-- ==== Sys2Proof/Word.lean ====
section
/-! DEFINITION. The words of the block, with the plainest arithmetic over them: 16-bit words, 128-bit granules,
32-bit registers, program addresses, and the sparse tables that hold anything indexed by a number. -/

namespace Sys2Proof

/-- A word of 16 bits (chapter 00, "Data units"). -/
abbrev Word := BitVec 16
/-- A byte. -/
abbrev Byte := BitVec 8
/-- A granule of 16 bytes, byte 0 in bits 7..0 (R42). -/
abbrev Gran := BitVec 128
/-- A register of the REG region (R9). -/
abbrev Reg := BitVec 32
/-- A program address (chapter 01, "Program space"). -/
abbrev PC := BitVec 22
/-- A word address of the unified space (Table 1.4). -/
abbrev WAddr := BitVec 40

/-- A table by number: keys strictly rising, and no entry equal to what an unlisted key reads as. -/
abbrev Tbl (α : Type) := List (Nat × α)

namespace Tbl

/-- The value at key `k`, `d` where the table lists none. -/
def get {α : Type} (d : α) (k : Nat) : Tbl α → α
  | [] => d
  | (j, v) :: t => if j = k then v else get d k t

/-- The table without key `k`. -/
def erase {α : Type} (k : Nat) (t : Tbl α) : Tbl α := t.filter (fun e => decide (e.1 ≠ k))

/-- The table with `v` listed at key `k`, which it did not list, before the first greater key. -/
def insert {α : Type} (k : Nat) (v : α) : Tbl α → Tbl α
  | [] => [(k, v)]
  | (j, w) :: t => if k < j then (k, v) :: (j, w) :: t else (j, w) :: insert k v t

/-- The table with key `k` reading `v`; writing the default `d` removes the entry, so equal tables are equal data. -/
def set {α : Type} [DecidableEq α] (d : α) (k : Nat) (v : α) (t : Tbl α) : Tbl α :=
  if v = d then erase k t else insert k v (erase k t)

/-- Keys strictly rising from above `lo`, and no entry equal to the default. -/
def wfFrom {α : Type} [DecidableEq α] (d : α) : Nat → Tbl α → Bool
  | _, [] => true
  | lo, (j, v) :: t => decide (lo ≤ j) && !decide (v = d) && wfFrom d (j + 1) t

/-- The canonical form of a table whose unlisted keys read `d`. -/
def wf {α : Type} [DecidableEq α] (d : α) (t : Tbl α) : Bool := wfFrom d 0 t

/-- The table with `f` applied to every listed value, canonical for the default `d` (which `f` keeps). -/
def mapVal {α : Type} [DecidableEq α] (d : α) (f : Nat → α → α) : Tbl α → Tbl α
  | [] => []
  | (j, v) :: t => set d j (f j v) (mapVal d f t)

/-- The listed keys. -/
def keys {α : Type} (t : Tbl α) : List Nat := t.map Prod.fst

/-- The table without the keys that `p` rejects. -/
def keep {α : Type} (p : Nat → Bool) (t : Tbl α) : Tbl α := t.filter (fun e => p e.1)

end Tbl

/-- Bits `lo + w - 1 .. lo` of a number. -/
def bitsOf (n lo w : Nat) : Nat := (n / 2 ^ lo) % 2 ^ w

/-- The number `n` with bits `lo + w - 1 .. lo` replaced by `v`. -/
def setBitsOf (n lo w v : Nat) : Nat :=
  n - bitsOf n lo w * 2 ^ lo + (v % 2 ^ w) * 2 ^ lo

/-- The least `i < n` with `p i`. -/
def firstBelow (p : Nat → Bool) : Nat → Option Nat
  | 0 => none
  | n + 1 => match firstBelow p n with
    | some i => some i
    | none => if p n then some n else none

/-- One field of a register: the register's REG byte offset, the field's lowest bit and its width. -/
structure Fld where
  off : Nat
  lo  : Nat
  w   : Nat
deriving DecidableEq, Repr

end Sys2Proof
end

