-- ==== Sys2Proof/Config.lean ====
section
/-! DEFINITION. The values the spec leaves to the environment or leaves open: the cryptographic functions the block uses as they
are standardised elsewhere, the licensee's OTP, and the free values. Nothing here has a body a proof could see. -/

namespace Sys2Proof.Config

/-- A value the spec leaves open, fresh for every count it is applied to: nothing constrains it. -/
opaque free : Nat → Nat

/-- SHA-384 of a byte string (FIPS 180-4), as the spec names it without restating it. -/
opaque sha384 : List Byte → BitVec 384

/-- ECDSA P-384 verification: public key, signature, message bytes (FIPS 186-5). -/
opaque ecdsaOk : BitVec 768 → BitVec 768 → List Byte → Bool

/-- HMAC-SHA-384: key bytes, message bytes (FIPS 198-1). -/
opaque hmac384 : List Byte → List Byte → BitVec 384

/-- The GMAC tag of AES-256-GCM: key, authenticated bytes (NIST SP 800-38D; the spec states no IV for it). -/
opaque gmac : BitVec 256 → List Byte → BitVec 128

/-- AES-256-GCM encryption: key, 96-bit IV, authenticated bytes, plaintext; the ciphertext and the tag (NIST SP 800-38D). -/
opaque aesGcm : BitVec 256 → BitVec 96 → List Byte → List Byte → List Byte × BitVec 128

/-- The output of the CTR_DRBG for its `n`-th request after cold reset (NIST SP 800-90A). -/
opaque drbg : Nat → BitVec 384

/-- Whether the Peas detect tininess after rounding: IEEE 754-2019 lets an implementation choose, and the spec does not. -/
opaque tinyAfter : Bool

/-- Whether a fused multiply-add of zero, infinity and a quiet NaN raises NV: IEEE 754-2019 lets an implementation choose. -/
opaque fmaNanInvalid : Bool

/-- What an inactive element of a CVT entry between types of different widths outputs: the spec says "operand A unchanged" and gives no
representation of it in the wider or narrower type. Source type, type, A. -/
opaque cvtInactive : Nat → Nat → Nat → Nat

end Sys2Proof.Config
end

