-- ==== Sys2Proof/Machine/RegMap.lean ====
section
/-! DEFINITION. The register map of the REG region, as the register tables of the chapters give it: for every register its
offset, its fields, its reset value and what a plain write may change. Registers whose reads or writes do more than hold a
value are served by the operations of their own units; this file says only where each bit is and how it is accessed.
A sequencer, the supervisor and the Moth core have the same core registers at the same offsets of their own pages, so those
take the page's base offset `pg`. -/

namespace Sys2Proof.Machine

def CRP_ID : Nat := 0x0
def CRP_ID_MINOR : Fld := ⟨CRP_ID, 0, 8⟩
def CRP_ID_MAJOR : Fld := ⟨CRP_ID, 8, 8⟩
def CRP_ID_PRODUCT : Fld := ⟨CRP_ID, 16, 16⟩
def CRP_BUILD : Nat := 0x4
def CRP_BUILD_PODS : Fld := ⟨CRP_BUILD, 0, 5⟩
def CRP_BUILD_SLICES : Fld := ⟨CRP_BUILD, 8, 5⟩
def CRP_BUILD_CLUSTERS : Fld := ⟨CRP_BUILD, 16, 3⟩
def CRP_BUILD_BMPS : Fld := ⟨CRP_BUILD, 24, 4⟩
def CRP_PWR_CTL : Nat := 0x10
def CRP_PWR_CTL_REQ : Fld := ⟨CRP_PWR_CTL, 0, 3⟩
def CRP_PWR_STAT : Nat := 0x14
def CRP_PWR_STAT_STATE : Fld := ⟨CRP_PWR_STAT, 0, 3⟩
def CRP_PWR_STAT_BUSY : Fld := ⟨CRP_PWR_STAT, 3, 1⟩
def CRP_PWR_STAT_REQERR : Fld := ⟨CRP_PWR_STAT, 4, 1⟩
def CRP_PWR_STAT_ECAUSE : Fld := ⟨CRP_PWR_STAT, 8, 4⟩
def CRP_PWR_CFG : Nat := 0x18
def CRP_PWR_CFG_RET : Fld := ⟨CRP_PWR_CFG, 0, 1⟩
def CRP_RST_CTL : Nat := 0x20
def CRP_RST_CTL_WARM : Fld := ⟨CRP_RST_CTL, 0, 1⟩
def CRP_RST_CTL_COLD : Fld := ⟨CRP_RST_CTL, 1, 1⟩
def CRP_RST_CTL_DOM : Fld := ⟨CRP_RST_CTL, 2, 1⟩
def CRP_RST_CTL_REL : Fld := ⟨CRP_RST_CTL, 3, 1⟩
def CRP_RST_CTL_UNIT : Fld := ⟨CRP_RST_CTL, 8, 6⟩
def CRP_RST_CTL_KIND : Fld := ⟨CRP_RST_CTL, 15, 1⟩
def CRP_RST_STAT : Nat := 0x24
def CRP_RST_STAT_POR_OFF : Fld := ⟨CRP_RST_STAT, 0, 1⟩
def CRP_RST_STAT_POR_PIN : Fld := ⟨CRP_RST_STAT, 1, 1⟩
def CRP_RST_STAT_WDG_COLD : Fld := ⟨CRP_RST_STAT, 2, 1⟩
def CRP_RST_STAT_SW_COLD : Fld := ⟨CRP_RST_STAT, 3, 1⟩
def CRP_RST_STAT_SLEEP_COLD : Fld := ⟨CRP_RST_STAT, 4, 1⟩
def CRP_RST_STAT_WDG_WARM : Fld := ⟨CRP_RST_STAT, 8, 1⟩
def CRP_RST_STAT_SUP_ESC : Fld := ⟨CRP_RST_STAT, 9, 1⟩
def CRP_RST_STAT_LOCKSTEP : Fld := ⟨CRP_RST_STAT, 10, 1⟩
def CRP_RST_STAT_SW_WARM : Fld := ⟨CRP_RST_STAT, 11, 1⟩
def CRP_RST_STAT_WAKE : Fld := ⟨CRP_RST_STAT, 12, 1⟩
def CRP_RST_STAT_PIN_WARM : Fld := ⟨CRP_RST_STAT, 13, 1⟩
def CRP_RST_STAT_DOMERR : Fld := ⟨CRP_RST_STAT, 16, 1⟩
def CRP_STAT : Nat := 0x28
def CRP_STAT_LF_OK : Fld := ⟨CRP_STAT, 0, 1⟩
def CRP_STAT_PCLK_OK : Fld := ⟨CRP_STAT, 1, 1⟩
def CRP_STAT_TCLK_OK : Fld := ⟨CRP_STAT, 2, 1⟩
def CRP_STAT_RAIL_OK : Fld := ⟨CRP_STAT, 3, 1⟩
def CRP_STAT_SCR_INIT : Fld := ⟨CRP_STAT, 4, 1⟩
def CRP_STAT_SEQ_REL : Fld := ⟨CRP_STAT, 5, 1⟩
def CRP_CLK_MEAS : Nat := 0x2C
def CRP_CLK_MEAS_PMHZ : Fld := ⟨CRP_CLK_MEAS, 0, 12⟩
def CRP_CLK_MEAS_TPPM : Fld := ⟨CRP_CLK_MEAS, 16, 16⟩
def SEC_STAT : Nat := 0x10000
def SEC_STAT_BOOT : Fld := ⟨SEC_STAT, 0, 4⟩
def SEC_STAT_ENT_FAIL : Fld := ⟨SEC_STAT, 4, 1⟩
def SEC_STAT_FABKEY : Fld := ⟨SEC_STAT, 5, 1⟩
def SEC_STAT_DBG_OFF : Fld := ⟨SEC_STAT, 6, 1⟩
def SEC_CTL : Nat := 0x10004
def SEC_CTL_LINK_AUTH : Fld := ⟨SEC_CTL, 0, 1⟩
def SEC_CTL_LINK_ENC : Fld := ⟨SEC_CTL, 1, 1⟩
def SEC_LOCK : Nat := 0x10008
def SEC_LOCK_CFG : Fld := ⟨SEC_LOCK, 0, 1⟩
def SEC_NARROW : Nat := 0x1000C
def SEC_NARROW_H_STG : Fld := ⟨SEC_NARROW, 0, 1⟩
def SEC_NARROW_H_CMT : Fld := ⟨SEC_NARROW, 1, 1⟩
def SEC_NARROW_H_CORE : Fld := ⟨SEC_NARROW, 2, 1⟩
def SEC_NARROW_H_DBG : Fld := ⟨SEC_NARROW, 3, 1⟩
def SEC_NARROW_P_RD : Fld := ⟨SEC_NARROW, 4, 1⟩
def SEC_NARROW_M_CRP : Fld := ⟨SEC_NARROW, 5, 1⟩
def SEC_VER : Nat := 0x10010
def SEC_VER_MIN_VER : Fld := ⟨SEC_VER, 0, 16⟩
def SEC_VER_VERSION : Fld := ⟨SEC_VER, 16, 16⟩
def SEC_VERADV : Nat := 0x10014
def SEC_VERADV_GO : Fld := ⟨SEC_VERADV, 0, 1⟩
def SEC_REFUSE : Nat := 0x10018
def SEC_REFUSE_CNT0 : Fld := ⟨SEC_REFUSE, 0, 8⟩
def SEC_REFUSE_CNT1 : Fld := ⟨SEC_REFUSE, 8, 8⟩
def SEC_REFUSE_CNT2 : Fld := ⟨SEC_REFUSE, 16, 8⟩
def SEC_REFUSE_CNT3 : Fld := ⟨SEC_REFUSE, 24, 8⟩
def SEC_AUD_STAT : Nat := 0x10020
def SEC_AUD_STAT_COUNT : Fld := ⟨SEC_AUD_STAT, 0, 9⟩
def SEC_AUD_STAT_OVF : Fld := ⟨SEC_AUD_STAT, 16, 1⟩
def SEC_AUD_SEL : Nat := 0x10024
def SEC_AUD_SEL_WORD : Fld := ⟨SEC_AUD_SEL, 0, 5⟩
def SEC_AUD_DATA : Nat := 0x10028
def SEC_AUD_DATA_DATA : Fld := ⟨SEC_AUD_DATA, 0, 32⟩
def SEC_AUD_POP : Nat := 0x1002C
def SEC_AUD_POP_POP : Fld := ⟨SEC_AUD_POP, 0, 1⟩
def SEC_AUD_SEQ : Nat := 0x10030
def SEC_AUD_SEQ_SEQ : Fld := ⟨SEC_AUD_SEQ, 0, 32⟩
def HLT_CTL : Nat := 0x20000
def HLT_CTL_AUTO : Fld := ⟨HLT_CTL, 0, 1⟩
def HLT_CTL_ST_EN : Fld := ⟨HLT_CTL, 1, 1⟩
def HLT_CTL_ST_MAPPED : Fld := ⟨HLT_CTL, 2, 1⟩
def HLT_CTL_LS_RST : Fld := ⟨HLT_CTL, 3, 1⟩
def HLT_CTL_LOAD : Fld := ⟨HLT_CTL, 4, 1⟩
def HLT_STAT : Nat := 0x20004
def HLT_STAT_IMGBAD : Fld := ⟨HLT_STAT, 0, 1⟩
def HLT_STAT_LOADERR : Fld := ⟨HLT_STAT, 1, 1⟩
def HLT_STAT_LSMIS : Fld := ⟨HLT_STAT, 2, 1⟩
def HLT_SWAP : Nat := 0x20010
def HLT_SWAP_KIND : Fld := ⟨HLT_SWAP, 0, 3⟩
def HLT_SWAP_GRP : Fld := ⟨HLT_SWAP, 4, 4⟩
def HLT_SWAP_UNIT : Fld := ⟨HLT_SWAP, 8, 7⟩
def HLT_SWAP_ROW : Fld := ⟨HLT_SWAP, 16, 12⟩
def HLT_SWAP_GO : Fld := ⟨HLT_SWAP, 31, 1⟩
def HLT_SWAP_STAT : Nat := 0x20014
def HLT_SWAP_STAT_STAGED : Fld := ⟨HLT_SWAP_STAT, 0, 1⟩
def HLT_SWAP_STAT_READY : Fld := ⟨HLT_SWAP_STAT, 1, 1⟩
def HLT_SWAP_STAT_DONE : Fld := ⟨HLT_SWAP_STAT, 2, 1⟩
def HLT_SWAP_STAT_ERR : Fld := ⟨HLT_SWAP_STAT, 3, 1⟩
def HLT_SWAP_STAT_ECAUSE : Fld := ⟨HLT_SWAP_STAT, 4, 4⟩
def HLT_SWAP_STAT_ROWS : Fld := ⟨HLT_SWAP_STAT, 16, 13⟩
def HLT_MAP_POD : Nat := 0x20020
def HLT_MAP_POD_FAILED : Fld := ⟨HLT_MAP_POD, 0, 17⟩
def HLT_MAP_SEQ : Nat := 0x20024
def HLT_MAP_SEQ_RET0 : Fld := ⟨HLT_MAP_SEQ, 0, 4⟩
def HLT_MAP_SEQ_RET1 : Fld := ⟨HLT_MAP_SEQ, 4, 4⟩
def HLT_MAP_SEQ_RET2 : Fld := ⟨HLT_MAP_SEQ, 8, 4⟩
def HLT_MAP_SEQ_RET3 : Fld := ⟨HLT_MAP_SEQ, 12, 4⟩
def HLT_MAP_BANK (n : Nat) : Nat := 0x20040 + 0x4 * n
def HLT_MAP_BANK_LBANK (n : Nat) : Fld := ⟨(HLT_MAP_BANK n), 0, 7⟩
def HLT_MAP_BANK_VALID (n : Nat) : Fld := ⟨(HLT_MAP_BANK n), 15, 1⟩
def HLT_ROW_SEL : Nat := 0x20080
def HLT_ROW_SEL_SLICE : Fld := ⟨HLT_ROW_SEL, 0, 4⟩
def HLT_ROW_SEL_LBANK : Fld := ⟨HLT_ROW_SEL, 4, 7⟩
def HLT_ROW_CNT : Nat := 0x20084
def HLT_ROW_CNT_COUNT : Fld := ⟨HLT_ROW_CNT, 0, 7⟩
def HLT_CE_CFG : Nat := 0x20090
def HLT_CE_CFG_THR : Fld := ⟨HLT_CE_CFG, 0, 16⟩
def HLT_CE_CFG_WIN : Fld := ⟨HLT_CE_CFG, 16, 4⟩
def HLT_CE_CFG_ROWEN : Fld := ⟨HLT_CE_CFG, 20, 1⟩
def HLT_THERM_CFG : Nat := 0x200A0
def HLT_THERM_CFG_HIGH : Fld := ⟨HLT_THERM_CFG, 0, 12⟩
def HLT_THERM_CFG_CRIT : Fld := ⟨HLT_THERM_CFG, 16, 12⟩
def HLT_THERM_SEL : Nat := 0x200A4
def HLT_THERM_SEL_SENSOR : Fld := ⟨HLT_THERM_SEL, 0, 4⟩
def HLT_THERM_DATA : Nat := 0x200A8
def HLT_THERM_DATA_TEMP : Fld := ⟨HLT_THERM_DATA, 0, 12⟩
def HLT_THERM_DATA_MAX : Fld := ⟨HLT_THERM_DATA, 16, 12⟩
def HLT_THERM_STAT : Nat := 0x200AC
def HLT_THERM_STAT_HIGH : Fld := ⟨HLT_THERM_STAT, 0, 16⟩
def HLT_THERM_STAT_CRIT : Fld := ⟨HLT_THERM_STAT, 16, 16⟩
def HLT_LANE_CFG : Nat := 0x200B0
def HLT_LANE_CFG_THR : Fld := ⟨HLT_LANE_CFG, 0, 8⟩
def HLT_LOG_STAT : Nat := 0x200C0
def HLT_LOG_STAT_COUNT : Fld := ⟨HLT_LOG_STAT, 0, 7⟩
def HLT_LOG_STAT_OVF : Fld := ⟨HLT_LOG_STAT, 8, 1⟩
def HLT_LOG_POP : Nat := 0x200C4
def HLT_LOG_POP_POP : Fld := ⟨HLT_LOG_POP, 0, 1⟩
def HLT_LOG_D (n : Nat) : Nat := 0x200D0 + 0x4 * n
def HLT_LOG_D_DATA (n : Nat) : Fld := ⟨(HLT_LOG_D n), 0, 32⟩
def HLT_IMG_SEL : Nat := 0x200E0
def HLT_IMG_SEL_WORD : Fld := ⟨HLT_IMG_SEL, 0, 17⟩
def HLT_IMG_DATA : Nat := 0x200E4
def HLT_IMG_DATA_DATA : Fld := ⟨HLT_IMG_DATA, 0, 32⟩
def HLT_IMG_GEN : Nat := 0x200E8
def HLT_IMG_GEN_GEN : Fld := ⟨HLT_IMG_GEN, 0, 32⟩
def TBU_TB_LO : Nat := 0x30000
def TBU_TB_LO_TB : Fld := ⟨TBU_TB_LO, 0, 32⟩
def TBU_TB_HI : Nat := 0x30004
def TBU_TB_HI_TB : Fld := ⟨TBU_TB_HI, 0, 32⟩
def TBU_TB_SET_LO : Nat := 0x30008
def TBU_TB_SET_LO_VALUE : Fld := ⟨TBU_TB_SET_LO, 0, 32⟩
def TBU_TB_SET_HI : Nat := 0x3000C
def TBU_TB_SET_HI_VALUE : Fld := ⟨TBU_TB_SET_HI, 0, 32⟩
def TBU_TB_STAT : Nat := 0x30010
def TBU_TB_STAT_LOAD : Fld := ⟨TBU_TB_STAT, 0, 1⟩
def TBU_TB_STAT_LOADERR : Fld := ⟨TBU_TB_STAT, 1, 1⟩
def TBU_TB_STAT_LF : Fld := ⟨TBU_TB_STAT, 2, 1⟩
def TBU_TB_STAT_FRAC : Fld := ⟨TBU_TB_STAT, 4, 4⟩
def TBU_TB_STAT_ACC : Fld := ⟨TBU_TB_STAT, 8, 6⟩
def TBU_TICK_CTL : Nat := 0x30020
def TBU_TICK_CTL_EN : Fld := ⟨TBU_TICK_CTL, 0, 1⟩
def TBU_TICK_PER : Nat := 0x30024
def TBU_TICK_PER_PER : Fld := ⟨TBU_TICK_PER, 0, 27⟩
def TBU_TICK_QM : Nat := 0x30028
def TBU_TICK_QM_QM : Fld := ⟨TBU_TICK_QM, 0, 20⟩
def TBU_TICK_STAT : Nat := 0x3002C
def TBU_TICK_STAT_STARTED : Fld := ⟨TBU_TICK_STAT, 0, 1⟩
def TBU_TICK_STAT_PEND : Fld := ⟨TBU_TICK_STAT, 1, 1⟩
def TBU_TICK_STAT_SKIP : Fld := ⟨TBU_TICK_STAT, 16, 16⟩
def TBU_TICK_NEXT_LO : Nat := 0x30030
def TBU_TICK_NEXT_LO_NEXT : Fld := ⟨TBU_TICK_NEXT_LO, 0, 32⟩
def TBU_TICK_NEXT_HI : Nat := 0x30034
def TBU_TICK_NEXT_HI_NEXT : Fld := ⟨TBU_TICK_NEXT_HI, 0, 32⟩
def TBU_GRP_CTL : Nat := 0x30040
def TBU_GRP_CTL_FIRST : Fld := ⟨TBU_GRP_CTL, 0, 5⟩
def TBU_GRP_CTL_COUNT : Fld := ⟨TBU_GRP_CTL, 8, 6⟩
def TBU_GRP_CTL_RELOAD : Fld := ⟨TBU_GRP_CTL, 16, 1⟩
def TBU_GRP_CTL_GO : Fld := ⟨TBU_GRP_CTL, 24, 1⟩
def TBU_GRP_CTL_GERR : Fld := ⟨TBU_GRP_CTL, 25, 1⟩
def TBU_GRP_BASE_LO : Nat := 0x30044
def TBU_GRP_BASE_LO_BASE : Fld := ⟨TBU_GRP_BASE_LO, 0, 32⟩
def TBU_GRP_BASE_HI : Nat := 0x30048
def TBU_GRP_BASE_HI_BASE : Fld := ⟨TBU_GRP_BASE_HI, 0, 32⟩
def TBU_GRP_PER : Nat := 0x3004C
def TBU_GRP_PER_PER : Fld := ⟨TBU_GRP_PER, 0, 32⟩
def TBU_CMP_LO (n : Nat) : Nat := 0x30100 + 0x20 * n
def TBU_CMP_LO_CMP (n : Nat) : Fld := ⟨(TBU_CMP_LO n), 0, 32⟩
def TBU_CMP_HI (n : Nat) : Nat := 0x30104 + 0x20 * n
def TBU_CMP_HI_CMP (n : Nat) : Fld := ⟨(TBU_CMP_HI n), 0, 32⟩
def TBU_CMP_PER (n : Nat) : Nat := 0x30108 + 0x20 * n
def TBU_CMP_PER_PER (n : Nat) : Fld := ⟨(TBU_CMP_PER n), 0, 32⟩
def TBU_CMP_CFG (n : Nat) : Nat := 0x3010C + 0x20 * n
def TBU_CMP_CFG_EN (n : Nat) : Fld := ⟨(TBU_CMP_CFG n), 0, 1⟩
def TBU_CMP_CFG_ACT (n : Nat) : Fld := ⟨(TBU_CMP_CFG n), 1, 3⟩
def TBU_CMP_CFG_EV (n : Nat) : Fld := ⟨(TBU_CMP_CFG n), 4, 1⟩
def TBU_CMP_CFG_WAKE (n : Nat) : Fld := ⟨(TBU_CMP_CFG n), 5, 1⟩
def TBU_CMP_CFG_IDLE (n : Nat) : Fld := ⟨(TBU_CMP_CFG n), 6, 1⟩
def TBU_CMP_CFG_EVN (n : Nat) : Fld := ⟨(TBU_CMP_CFG n), 8, 4⟩
def TBU_CMP_STAT (n : Nat) : Nat := 0x30110 + 0x20 * n
def TBU_CMP_STAT_MATCH (n : Nat) : Fld := ⟨(TBU_CMP_STAT n), 0, 1⟩
def TBU_CMP_STAT_LATE (n : Nat) : Fld := ⟨(TBU_CMP_STAT n), 1, 1⟩
def TBU_CMP_STAT_PIN (n : Nat) : Fld := ⟨(TBU_CMP_STAT n), 2, 1⟩
def TBU_CMP_STAT_MISS (n : Nat) : Fld := ⟨(TBU_CMP_STAT n), 16, 16⟩
def TBU_CAP_RISE_LO (n : Nat) : Nat := 0x30600 + 0x20 * n
def TBU_CAP_RISE_LO_RISE (n : Nat) : Fld := ⟨(TBU_CAP_RISE_LO n), 0, 32⟩
def TBU_CAP_RISE_HI (n : Nat) : Nat := 0x30604 + 0x20 * n
def TBU_CAP_RISE_HI_RISE (n : Nat) : Fld := ⟨(TBU_CAP_RISE_HI n), 0, 32⟩
def TBU_CAP_FALL_LO (n : Nat) : Nat := 0x30608 + 0x20 * n
def TBU_CAP_FALL_LO_FALL (n : Nat) : Fld := ⟨(TBU_CAP_FALL_LO n), 0, 32⟩
def TBU_CAP_FALL_HI (n : Nat) : Nat := 0x3060C + 0x20 * n
def TBU_CAP_FALL_HI_FALL (n : Nat) : Fld := ⟨(TBU_CAP_FALL_HI n), 0, 32⟩
def TBU_CAP_WIDTH (n : Nat) : Nat := 0x30610 + 0x20 * n
def TBU_CAP_WIDTH_WIDTH (n : Nat) : Fld := ⟨(TBU_CAP_WIDTH n), 0, 32⟩
def TBU_CAP_CFG (n : Nat) : Nat := 0x30614 + 0x20 * n
def TBU_CAP_CFG_EN (n : Nat) : Fld := ⟨(TBU_CAP_CFG n), 0, 1⟩
def TBU_CAP_CFG_EVSEL (n : Nat) : Fld := ⟨(TBU_CAP_CFG n), 1, 2⟩
def TBU_CAP_CFG_FILT (n : Nat) : Fld := ⟨(TBU_CAP_CFG n), 8, 8⟩
def TBU_CAP_STAT (n : Nat) : Nat := 0x30618 + 0x20 * n
def TBU_CAP_STAT_RV (n : Nat) : Fld := ⟨(TBU_CAP_STAT n), 0, 1⟩
def TBU_CAP_STAT_FV (n : Nat) : Fld := ⟨(TBU_CAP_STAT n), 1, 1⟩
def TBU_CAP_STAT_WV (n : Nat) : Fld := ⟨(TBU_CAP_STAT n), 2, 1⟩
def TBU_CAP_STAT_ROVR (n : Nat) : Fld := ⟨(TBU_CAP_STAT n), 3, 1⟩
def TBU_CAP_STAT_FOVR (n : Nat) : Fld := ⟨(TBU_CAP_STAT n), 4, 1⟩
def TBU_CAP_STAT_LFR (n : Nat) : Fld := ⟨(TBU_CAP_STAT n), 5, 1⟩
def TBU_CAP_STAT_LVL (n : Nat) : Fld := ⟨(TBU_CAP_STAT n), 6, 1⟩
def EVC_CTL : Nat := 0x40000
def EVC_CTL_EN : Fld := ⟨EVC_CTL, 0, 1⟩
def EVC_STAT : Nat := 0x40004
def EVC_STAT_ORDER : Fld := ⟨EVC_STAT, 0, 1⟩
def EVC_STAT_PSTK : Fld := ⟨EVC_STAT, 1, 1⟩
def EVC_STAT_ORD_TGT : Fld := ⟨EVC_STAT, 8, 6⟩
def EVC_STAT_PSTK_TGT : Fld := ⟨EVC_STAT, 16, 6⟩
def EVC_SRC_SEL : Nat := 0x40010
def EVC_SRC_SEL_SRC : Fld := ⟨EVC_SRC_SEL, 0, 9⟩
def EVC_SRC_CFG : Nat := 0x40014
def EVC_SRC_CFG_EN : Fld := ⟨EVC_SRC_CFG, 0, 1⟩
def EVC_SRC_CFG_PRIO : Fld := ⟨EVC_SRC_CFG, 1, 3⟩
def EVC_SRC_CFG_TGT : Fld := ⟨EVC_SRC_CFG, 4, 6⟩
def EVC_SRC_CFG_MCNT : Fld := ⟨EVC_SRC_CFG, 12, 4⟩
def EVC_SRC_CFG_MTIME : Fld := ⟨EVC_SRC_CFG, 16, 12⟩
def EVC_SRC_STAT : Nat := 0x40018
def EVC_SRC_STAT_PEND : Fld := ⟨EVC_SRC_STAT, 0, 1⟩
def EVC_SRC_STAT_COUNT : Fld := ⟨EVC_SRC_STAT, 16, 16⟩
def EVC_SRC_TS_LO : Nat := 0x40020
def EVC_SRC_TS_LO_TS : Fld := ⟨EVC_SRC_TS_LO, 0, 32⟩
def EVC_SRC_TS_HI : Nat := 0x40024
def EVC_SRC_TS_HI_TS : Fld := ⟨EVC_SRC_TS_HI, 0, 32⟩
def EVC_SRC_CMD : Nat := 0x40028
def EVC_SRC_CMD_CLEAR : Fld := ⟨EVC_SRC_CMD, 0, 1⟩
def EVC_SWEV : Nat := 0x4002C
def EVC_SWEV_EVENT : Fld := ⟨EVC_SWEV, 0, 9⟩
def EVC_PEND (n : Nat) : Nat := 0x40040 + 0x4 * n
def EVC_PEND_PEND (n : Nat) : Fld := ⟨(EVC_PEND n), 0, 32⟩
def EVC_TGT_CLAIM (n : Nat) : Nat := 0x50000 + 0x400 * n
def EVC_TGT_CLAIM_EVENT (n : Nat) : Fld := ⟨(EVC_TGT_CLAIM n), 0, 9⟩
def EVC_TGT_CLAIM_PRIO (n : Nat) : Fld := ⟨(EVC_TGT_CLAIM n), 9, 3⟩
def EVC_TGT_CLAIM_NONE (n : Nat) : Fld := ⟨(EVC_TGT_CLAIM n), 15, 1⟩
def EVC_TGT_CLAIM_COUNT (n : Nat) : Fld := ⟨(EVC_TGT_CLAIM n), 16, 16⟩
def EVC_TGT_CLTS_LO (n : Nat) : Nat := 0x50004 + 0x400 * n
def EVC_TGT_CLTS_LO_TS (n : Nat) : Fld := ⟨(EVC_TGT_CLTS_LO n), 0, 32⟩
def EVC_TGT_CLTS_HI (n : Nat) : Nat := 0x50008 + 0x400 * n
def EVC_TGT_CLTS_HI_TS (n : Nat) : Fld := ⟨(EVC_TGT_CLTS_HI n), 0, 32⟩
def EVC_TGT_DONE (n : Nat) : Nat := 0x5000C + 0x400 * n
def EVC_TGT_DONE_LEVEL (n : Nat) : Fld := ⟨(EVC_TGT_DONE n), 0, 3⟩
def EVC_TGT_PUSH (n : Nat) : Nat := 0x50010 + 0x400 * n
def EVC_TGT_PUSH_LEVEL (n : Nat) : Fld := ⟨(EVC_TGT_PUSH n), 0, 3⟩
def EVC_TGT_STACK (n : Nat) : Nat := 0x50014 + 0x400 * n
def EVC_TGT_STACK_DEPTH (n : Nat) : Fld := ⟨(EVC_TGT_STACK n), 0, 3⟩
def EVC_TGT_STACK_TOP (n : Nat) : Fld := ⟨(EVC_TGT_STACK n), 4, 3⟩
def EVC_TGT_STACK_ENTRIES (n : Nat) : Fld := ⟨(EVC_TGT_STACK n), 8, 21⟩
def EVC_TGT_RQ (n : Nat) : Nat := 0x50018 + 0x400 * n
def EVC_TGT_RQ_RP (n : Nat) : Fld := ⟨(EVC_TGT_RQ n), 0, 3⟩
def EVC_TGT_RQ_IDLE (n : Nat) : Fld := ⟨(EVC_TGT_RQ n), 3, 1⟩
def EVC_TGT_MBOX (n : Nat) : Nat := 0x5001C + 0x400 * n
def EVC_TGT_MBOX_BASE (n : Nat) : Fld := ⟨(EVC_TGT_MBOX n), 0, 10⟩
def EVC_TGT_MBOX_EN (n : Nat) : Fld := ⟨(EVC_TGT_MBOX n), 15, 1⟩
def PMU_CTL : Nat := 0x60000
def PMU_CTL_EN : Fld := ⟨PMU_CTL, 0, 1⟩
def PMU_CTL_RL_EN : Fld := ⟨PMU_CTL, 1, 1⟩
def PMU_CTL_RL_MODE : Fld := ⟨PMU_CTL, 2, 1⟩
def PMU_CTL_CLR : Fld := ⟨PMU_CTL, 8, 1⟩
def PMU_STAT : Nat := 0x60004
def PMU_STAT_RL_ERR : Fld := ⟨PMU_STAT, 0, 1⟩
def PMU_STAT_RL_BUSY : Fld := ⟨PMU_STAT, 1, 1⟩
def PMU_OVF (n : Nat) : Nat := 0x60010 + 0x4 * n
def PMU_OVF_OVF (n : Nat) : Fld := ⟨(PMU_OVF n), 0, 32⟩
def PMU_RL_BASE_LO : Nat := 0x60040
def PMU_RL_BASE_LO_ADDR : Fld := ⟨PMU_RL_BASE_LO, 0, 32⟩
def PMU_RL_BASE_HI : Nat := 0x60044
def PMU_RL_BASE_HI_ADDR : Fld := ⟨PMU_RL_BASE_HI, 0, 8⟩
def PMU_RL_CFG : Nat := 0x60048
def PMU_RL_CFG_SIZE : Fld := ⟨PMU_RL_CFG, 0, 5⟩
def PMU_RL_PTR : Nat := 0x6004C
def PMU_RL_PTR_WPTR : Fld := ⟨PMU_RL_PTR, 0, 16⟩
def PMU_RL_PTR_RPTR : Fld := ⟨PMU_RL_PTR, 16, 16⟩
def PMU_RL_CNT : Nat := 0x60050
def PMU_RL_CNT_LOST : Fld := ⟨PMU_RL_CNT, 0, 16⟩
def PMU_RL_CNT_SKIP : Fld := ⟨PMU_RL_CNT, 16, 16⟩
def PMU_SNAP : Nat := 0x60058
def PMU_SNAP_GO : Fld := ⟨PMU_SNAP, 0, 1⟩
def PMU_CHI : Nat := 0x6005C
def PMU_CHI_HI : Fld := ⟨PMU_CHI, 0, 32⟩
def PMU_SNAP_TB_LO : Nat := 0x60060
def PMU_SNAP_TB_LO_TB : Fld := ⟨PMU_SNAP_TB_LO, 0, 32⟩
def PMU_SNAP_TB_HI : Nat := 0x60064
def PMU_SNAP_TB_HI_TB : Fld := ⟨PMU_SNAP_TB_HI, 0, 32⟩
def PMU_CHI_PAIR : Nat := 0x60068
def PMU_CHI_PAIR_K : Fld := ⟨PMU_CHI_PAIR, 0, 7⟩
def PMU_CHI_PAIR_VALID : Fld := ⟨PMU_CHI_PAIR, 7, 1⟩
def PMU_BW_CFG : Nat := 0x60070
def PMU_BW_CFG_WEXP : Fld := ⟨PMU_BW_CFG, 0, 5⟩
def PMU_BW_LAST (n : Nat) : Nat := 0x60100 + 0x8 * n
def PMU_BW_LAST_BYTES (n : Nat) : Fld := ⟨(PMU_BW_LAST n), 0, 32⟩
def PMU_BW_MAX (n : Nat) : Nat := 0x60104 + 0x8 * n
def PMU_BW_MAX_BYTES (n : Nat) : Fld := ⟨(PMU_BW_MAX n), 0, 32⟩
def PMU_CFG (n : Nat) : Nat := 0x60400 + 0x4 * n
def PMU_CFG_EVT (n : Nat) : Fld := ⟨(PMU_CFG n), 0, 6⟩
def PMU_CFG_UCLASS (n : Nat) : Fld := ⟨(PMU_CFG n), 6, 4⟩
def PMU_CFG_INST (n : Nat) : Fld := ⟨(PMU_CFG n), 10, 6⟩
def PMU_CFG_MODE (n : Nat) : Fld := ⟨(PMU_CFG n), 16, 2⟩
def PMU_CFG_CHAIN (n : Nat) : Fld := ⟨(PMU_CFG n), 18, 1⟩
def PMU_CFG_OVIE (n : Nat) : Fld := ⟨(PMU_CFG n), 19, 1⟩
def PMU_CFG_EN (n : Nat) : Fld := ⟨(PMU_CFG n), 20, 1⟩
def PMU_CFG_THR (n : Nat) : Fld := ⟨(PMU_CFG n), 24, 8⟩
def PMU_CNT (n : Nat) : Nat := 0x60800 + 0x4 * n
def PMU_CNT_COUNT (n : Nat) : Fld := ⟨(PMU_CNT n), 0, 32⟩
def PMU_SNP (n : Nat) : Nat := 0x60C00 + 0x4 * n
def PMU_SNP_COUNT (n : Nat) : Fld := ⟨(PMU_SNP n), 0, 32⟩
def DBG_CTL : Nat := 0x70000
def DBG_CTL_ATTACH : Fld := ⟨DBG_CTL, 0, 1⟩
def DBG_CTL_SLEEPEMU : Fld := ⟨DBG_CTL, 1, 1⟩
def DBG_CTL_RSTHALT : Fld := ⟨DBG_CTL, 2, 1⟩
def DBG_AUTH_STAT : Nat := 0x70004
def DBG_AUTH_STAT_GRANTED : Fld := ⟨DBG_AUTH_STAT, 0, 1⟩
def DBG_AUTH_STAT_CODEWR : Fld := ⟨DBG_AUTH_STAT, 1, 1⟩
def DBG_CORESEL : Nat := 0x70010
def DBG_CORESEL_CORE : Fld := ⟨DBG_CORESEL, 0, 6⟩
def DBG_RUN_CTL : Nat := 0x70014
def DBG_RUN_CTL_HALT : Fld := ⟨DBG_RUN_CTL, 0, 1⟩
def DBG_RUN_CTL_RESUME : Fld := ⟨DBG_RUN_CTL, 1, 1⟩
def DBG_RUN_CTL_STEP : Fld := ⟨DBG_RUN_CTL, 2, 1⟩
def DBG_RUN_CTL_MODE : Fld := ⟨DBG_RUN_CTL, 8, 1⟩
def DBG_RUN_CTL_STEP_IRQ : Fld := ⟨DBG_RUN_CTL, 9, 1⟩
def DBG_RUN_STAT : Nat := 0x70018
def DBG_RUN_STAT_STATE : Fld := ⟨DBG_RUN_STAT, 0, 2⟩
def DBG_RUN_STAT_CAUSE : Fld := ⟨DBG_RUN_STAT, 4, 3⟩
def DBG_RUN_STAT_IDX : Fld := ⟨DBG_RUN_STAT, 8, 2⟩
def DBG_HALT_PC : Nat := 0x7001C
def DBG_HALT_PC_PC : Fld := ⟨DBG_HALT_PC, 0, 22⟩
def DBG_BP (n : Nat) : Nat := 0x70020 + 0x4 * n
def DBG_BP_ADDR (n : Nat) : Fld := ⟨(DBG_BP n), 0, 22⟩
def DBG_BP_EN (n : Nat) : Fld := ⟨(DBG_BP n), 31, 1⟩
def DBG_WP_LO_LO (n : Nat) : Nat := 0x70040 + 0x20 * n
def DBG_WP_LO_LO_LO (n : Nat) : Fld := ⟨(DBG_WP_LO_LO n), 0, 32⟩
def DBG_WP_LO_HI (n : Nat) : Nat := 0x70044 + 0x20 * n
def DBG_WP_LO_HI_LO (n : Nat) : Fld := ⟨(DBG_WP_LO_HI n), 0, 8⟩
def DBG_WP_HI_LO (n : Nat) : Nat := 0x70048 + 0x20 * n
def DBG_WP_HI_LO_HI (n : Nat) : Fld := ⟨(DBG_WP_HI_LO n), 0, 32⟩
def DBG_WP_HI_HI (n : Nat) : Nat := 0x7004C + 0x20 * n
def DBG_WP_HI_HI_HI (n : Nat) : Fld := ⟨(DBG_WP_HI_HI n), 0, 8⟩
def DBG_WP_CTL (n : Nat) : Nat := 0x70050 + 0x20 * n
def DBG_WP_CTL_EN (n : Nat) : Fld := ⟨(DBG_WP_CTL n), 0, 1⟩
def DBG_WP_CTL_LD (n : Nat) : Fld := ⟨(DBG_WP_CTL n), 1, 1⟩
def DBG_WP_CTL_ST (n : Nat) : Fld := ⟨(DBG_WP_CTL n), 2, 1⟩
def DBG_FREEZE : Nat := 0x70080
def DBG_FREEZE_LP : Fld := ⟨DBG_FREEZE, 0, 16⟩
def DBG_XTRIG_POD : Nat := 0x70084
def DBG_XTRIG_POD_LP : Fld := ⟨DBG_XTRIG_POD, 0, 16⟩
def DBG_XTRIG_CORE : Nat := 0x70088
def DBG_XTRIG_CORE_LS : Fld := ⟨DBG_XTRIG_CORE, 0, 32⟩
def DBG_XTRIG_CTL : Nat := 0x7008C
def DBG_XTRIG_CTL_EN : Fld := ⟨DBG_XTRIG_CTL, 0, 1⟩
def DBG_XTRIG_CTL_SUP : Fld := ⟨DBG_XTRIG_CTL, 1, 1⟩
def DBG_XTRIG_CTL_MOTH : Fld := ⟨DBG_XTRIG_CTL, 2, 1⟩
def DBG_MADDR_LO : Nat := 0x700A0
def DBG_MADDR_LO_ADDR : Fld := ⟨DBG_MADDR_LO, 0, 32⟩
def DBG_MADDR_HI : Nat := 0x700A4
def DBG_MADDR_HI_ADDR : Fld := ⟨DBG_MADDR_HI, 0, 8⟩
def DBG_MDATA : Nat := 0x700A8
def DBG_MDATA_DATA : Fld := ⟨DBG_MDATA, 0, 32⟩
def DBG_MCTL : Nat := 0x700AC
def DBG_MCTL_RD : Fld := ⟨DBG_MCTL, 0, 1⟩
def DBG_MCTL_INC : Fld := ⟨DBG_MCTL, 1, 1⟩
def DBG_MCTL_QUIET : Fld := ⟨DBG_MCTL, 2, 1⟩
def DBG_MCTL_VIEW : Fld := ⟨DBG_MCTL, 8, 2⟩
def DBG_MCTL_GROUP : Fld := ⟨DBG_MCTL, 16, 6⟩
def DBG_MSTAT : Nat := 0x700B0
def DBG_MSTAT_BUSY : Fld := ⟨DBG_MSTAT, 0, 1⟩
def DBG_MSTAT_DONE : Fld := ⟨DBG_MSTAT, 1, 1⟩
def DBG_MSTAT_ERR : Fld := ⟨DBG_MSTAT, 2, 1⟩
def DBG_MSTAT_CAUSE : Fld := ⟨DBG_MSTAT, 4, 4⟩
def DBG_MSV_SEL : Nat := 0x700C0
def DBG_MSV_SEL_INDEX : Fld := ⟨DBG_MSV_SEL, 0, 6⟩
def DBG_MSV_DATA : Nat := 0x700C4
def DBG_MSV_DATA_DATA : Fld := ⟨DBG_MSV_DATA, 0, 32⟩
def DBG_VT_CDATA (n : Nat) : Nat := 0x70100 + 0x10 * n
def DBG_VT_CDATA_DATA (n : Nat) : Fld := ⟨(DBG_VT_CDATA n), 0, 9⟩
def DBG_VT_DDATA (n : Nat) : Nat := 0x70104 + 0x10 * n
def DBG_VT_DDATA_DATA (n : Nat) : Fld := ⟨(DBG_VT_DDATA n), 0, 9⟩
def DBG_VT_STAT (n : Nat) : Nat := 0x70108 + 0x10 * n
def DBG_VT_STAT_TXCNT (n : Nat) : Fld := ⟨(DBG_VT_STAT n), 0, 7⟩
def DBG_VT_STAT_RXCNT (n : Nat) : Fld := ⟨(DBG_VT_STAT n), 8, 7⟩
def DBG_VT_STAT_TXOVR (n : Nat) : Fld := ⟨(DBG_VT_STAT n), 16, 1⟩
def DBG_VT_STAT_RXOVR (n : Nat) : Fld := ⟨(DBG_VT_STAT n), 17, 1⟩
def DBG_AUTH_CHAL (n : Nat) : Nat := 0x70E00 + 0x4 * n
def DBG_AUTH_CHAL_CHAL (n : Nat) : Fld := ⟨(DBG_AUTH_CHAL n), 0, 32⟩
def DBG_AUTH_RESP (n : Nat) : Nat := 0x70E30 + 0x4 * n
def DBG_AUTH_RESP_RESP (n : Nat) : Fld := ⟨(DBG_AUTH_RESP n), 0, 32⟩
def DBG_AUTH_CTL : Nat := 0x70EF0
def DBG_AUTH_CTL_NEW : Fld := ⟨DBG_AUTH_CTL, 0, 1⟩
def DBG_AUTH_CTL_VERIFY : Fld := ⟨DBG_AUTH_CTL, 1, 1⟩
def DBG_AUTH_CTL_DROP : Fld := ⟨DBG_AUTH_CTL, 2, 1⟩
def DBG_AUTH_CTL_LEVEL : Fld := ⟨DBG_AUTH_CTL, 8, 1⟩
def DBG_AUTH_ERR : Nat := 0x70EF4
def DBG_AUTH_ERR_FAILS : Fld := ⟨DBG_AUTH_ERR, 0, 3⟩
def DBG_AUTH_ERR_LOCKED : Fld := ⟨DBG_AUTH_ERR, 3, 1⟩
def DBG_AUTH_ERR_BUSY : Fld := ⟨DBG_AUTH_ERR, 4, 1⟩
def DBG_AUTH_ERR_CAUSE : Fld := ⟨DBG_AUTH_ERR, 5, 3⟩
def EPC_CTL : Nat := 0x80000
def EPC_CTL_BG_EN : Fld := ⟨EPC_CTL, 0, 1⟩
def EPC_CTL_FREEZE : Fld := ⟨EPC_CTL, 1, 1⟩
def EPC_CTL_LOWMARK : Fld := ⟨EPC_CTL, 16, 9⟩
def EPC_STAT : Nat := 0x80004
def EPC_STAT_FROZEN : Fld := ⟨EPC_STAT, 0, 1⟩
def EPC_STAT_FLIP_BUSY : Fld := ⟨EPC_STAT, 1, 1⟩
def EPC_STAT_CMD_REF : Fld := ⟨EPC_STAT, 2, 1⟩
def EPC_STAT_LOW : Fld := ⟨EPC_STAT, 3, 1⟩
def EPC_STAT_HOST_CAP : Fld := ⟨EPC_STAT, 4, 1⟩
def EPC_STAT_HOST_CONF : Fld := ⟨EPC_STAT, 5, 1⟩
def EPC_STAT_PEER_CAP : Fld := ⟨EPC_STAT, 6, 1⟩
def EPC_STAT_PEER_CONF : Fld := ⟨EPC_STAT, 7, 1⟩
def EPC_STAT_TSEQ : Fld := ⟨EPC_STAT, 8, 8⟩
def EPC_GSEL : Nat := 0x80008
def EPC_GSEL_GROUP : Fld := ⟨EPC_GSEL, 0, 6⟩
def EPC_GEPOCH : Nat := 0x8000C
def EPC_GEPOCH_GEPOCH : Fld := ⟨EPC_GEPOCH, 0, 32⟩
def EPC_WEPOCH : Nat := 0x80010
def EPC_WEPOCH_WEPOCH : Fld := ⟨EPC_WEPOCH, 0, 32⟩
def EPC_GSTAT : Nat := 0x80014
def EPC_GSTAT_OPEN : Fld := ⟨EPC_GSTAT, 0, 16⟩
def EPC_GSTAT_LEASED : Fld := ⟨EPC_GSTAT, 16, 1⟩
def EPC_GSTAT_DEFERRED : Fld := ⟨EPC_GSTAT, 17, 1⟩
def EPC_GSTAT_SWEEP : Fld := ⟨EPC_GSTAT, 18, 1⟩
def EPC_GCMD : Nat := 0x80018
def EPC_GCMD_GROUP : Fld := ⟨EPC_GCMD, 0, 6⟩
def EPC_GCMD_OP : Fld := ⟨EPC_GCMD, 8, 2⟩
def EPC_POOL_SEL : Nat := 0x80020
def EPC_POOL_SEL_SLICE : Fld := ⟨EPC_POOL_SEL, 0, 4⟩
def EPC_POOL_SEL_LBANK : Fld := ⟨EPC_POOL_SEL, 4, 7⟩
def EPC_POOL_CNT0 : Nat := 0x80024
def EPC_POOL_CNT0_FREE : Fld := ⟨EPC_POOL_CNT0, 0, 10⟩
def EPC_POOL_CNT0_WORK : Fld := ⟨EPC_POOL_CNT0, 10, 10⟩
def EPC_POOL_CNT0_DONE : Fld := ⟨EPC_POOL_CNT0, 20, 10⟩
def EPC_POOL_CNT1 : Nat := 0x80028
def EPC_POOL_CNT1_STALE : Fld := ⟨EPC_POOL_CNT1, 0, 10⟩
def EPC_POOL_CNT1_BORROWED : Fld := ⟨EPC_POOL_CNT1, 10, 10⟩
def EPC_SMAP_IDX : Nat := 0x80030
def EPC_SMAP_IDX_BLOCK : Fld := ⟨EPC_SMAP_IDX, 0, 11⟩
def EPC_SMAP_DATA : Nat := 0x80034
def EPC_SMAP_DATA_GROUP : Fld := ⟨EPC_SMAP_DATA, 0, 6⟩
def EPC_LEASE_CTL (n : Nat) : Nat := 0x80040 + 0x8 * n
def EPC_LEASE_CTL_GROUP (n : Nat) : Fld := ⟨(EPC_LEASE_CTL n), 0, 6⟩
def EPC_LEASE_CTL_TAKE (n : Nat) : Fld := ⟨(EPC_LEASE_CTL n), 8, 1⟩
def EPC_LEASE_CTL_HELD (n : Nat) : Fld := ⟨(EPC_LEASE_CTL n), 9, 1⟩
def EPC_LEASE_CTL_EXPIRED (n : Nat) : Fld := ⟨(EPC_LEASE_CTL n), 10, 1⟩
def EPC_LEASE_CTL_RELEASE (n : Nat) : Fld := ⟨(EPC_LEASE_CTL n), 11, 1⟩
def EPC_LEASE_CTL_TSEQ (n : Nat) : Fld := ⟨(EPC_LEASE_CTL n), 16, 8⟩
def EPC_LEASE_EPOCH (n : Nat) : Nat := 0x80044 + 0x8 * n
def EPC_LEASE_EPOCH_EPOCH (n : Nat) : Fld := ⟨(EPC_LEASE_EPOCH n), 0, 32⟩
def EPC_FLIPPED_LO : Nat := 0x80060
def EPC_FLIPPED_LO_GROUPS : Fld := ⟨EPC_FLIPPED_LO, 0, 32⟩
def EPC_FLIPPED_HI : Nat := 0x80064
def EPC_FLIPPED_HI_GROUPS : Fld := ⟨EPC_FLIPPED_HI, 0, 32⟩
def EPC_FLIPS_LO : Nat := 0x80068
def EPC_FLIPS_LO_COUNT : Fld := ⟨EPC_FLIPS_LO, 0, 32⟩
def EPC_FLIPS_HI : Nat := 0x8006C
def EPC_FLIPS_HI_COUNT : Fld := ⟨EPC_FLIPS_HI, 0, 32⟩
def EPC_LEASE_FLIPS_LO (n : Nat) : Nat := 0x80070 + 0x8 * n
def EPC_LEASE_FLIPS_LO_FLIPS (n : Nat) : Fld := ⟨(EPC_LEASE_FLIPS_LO n), 0, 32⟩
def EPC_LEASE_FLIPS_HI (n : Nat) : Nat := 0x80074 + 0x8 * n
def EPC_LEASE_FLIPS_HI_FLIPS (n : Nat) : Fld := ⟨(EPC_LEASE_FLIPS_HI n), 0, 32⟩
def SMEM_CFG : Nat := 0x90000
def SMEM_CFG_SCRUB_EN : Fld := ⟨SMEM_CFG, 0, 1⟩
def SMEM_CFG_INIT : Fld := ⟨SMEM_CFG, 1, 1⟩
def SMEM_CFG_SCRUB_SHIFT : Fld := ⟨SMEM_CFG, 8, 5⟩
def SMEM_ARB : Nat := 0x90004
def SMEM_ARB_POD_LD : Fld := ⟨SMEM_ARB, 0, 3⟩
def SMEM_ARB_POD_ST : Fld := ⟨SMEM_ARB, 4, 3⟩
def SMEM_ARB_SEQ : Fld := ⟨SMEM_ARB, 8, 3⟩
def SMEM_ARB_HIF : Fld := ⟨SMEM_ARB, 12, 3⟩
def SMEM_ARB_WIAN : Fld := ⟨SMEM_ARB, 16, 3⟩
def SMEM_ARB_BMP : Fld := ⟨SMEM_ARB, 20, 3⟩
def SMEM_ARB_AGE_STEP : Fld := ⟨SMEM_ARB, 24, 4⟩
def SMEM_ERR_STAT : Nat := 0x90008
def SMEM_ERR_STAT_CE : Fld := ⟨SMEM_ERR_STAT, 0, 1⟩
def SMEM_ERR_STAT_UE : Fld := ⟨SMEM_ERR_STAT, 1, 1⟩
def SMEM_ERR_STAT_UE_MULTI : Fld := ⟨SMEM_ERR_STAT, 2, 1⟩
def SMEM_ERR_STAT_SCRUB_UE : Fld := ⟨SMEM_ERR_STAT, 3, 1⟩
def SMEM_UE_LOC : Nat := 0x9000C
def SMEM_UE_LOC_SLICE : Fld := ⟨SMEM_UE_LOC, 0, 4⟩
def SMEM_UE_LOC_PBANK : Fld := ⟨SMEM_UE_LOC, 4, 7⟩
def SMEM_UE_LOC_PROW : Fld := ⟨SMEM_UE_LOC, 11, 13⟩
def SMEM_UE_LOC_PORT : Fld := ⟨SMEM_UE_LOC, 24, 4⟩
def SMEM_UE_LOC_VALID : Fld := ⟨SMEM_UE_LOC, 31, 1⟩
def SMEM_CE_SEL : Nat := 0x90010
def SMEM_CE_SEL_SLICE : Fld := ⟨SMEM_CE_SEL, 0, 4⟩
def SMEM_CE_SEL_PBANK : Fld := ⟨SMEM_CE_SEL, 4, 7⟩
def SMEM_CE_CNT : Nat := 0x90014
def SMEM_CE_CNT_COUNT : Fld := ⟨SMEM_CE_CNT, 0, 16⟩
def SMEM_SIZE : Nat := 0x90018
def SMEM_SIZE_GRANULES : Fld := ⟨SMEM_SIZE, 0, 24⟩
def SMEM_SIZE_SLICES : Fld := ⟨SMEM_SIZE, 24, 8⟩
def BMP_CTRL (n : Nat) : Nat := 0xA0000 + 0x1000 * n
def BMP_CTRL_EN (n : Nat) : Fld := ⟨(BMP_CTRL n), 0, 1⟩
def BMP_CTRL_TRAIN (n : Nat) : Fld := ⟨(BMP_CTRL n), 1, 1⟩
def BMP_CTRL_TRN_TIMEOUT (n : Nat) : Fld := ⟨(BMP_CTRL n), 8, 4⟩
def BMP_CTRL_CPY_ABORT (n : Nat) : Fld := ⟨(BMP_CTRL n), 16, 1⟩
def BMP_STAT (n : Nat) : Nat := 0xA0004 + 0x1000 * n
def BMP_STAT_TRAINED (n : Nat) : Fld := ⟨(BMP_STAT n), 0, 1⟩
def BMP_STAT_TRAIN_FAIL (n : Nat) : Fld := ⟨(BMP_STAT n), 1, 1⟩
def BMP_STAT_IDLE (n : Nat) : Fld := ⟨(BMP_STAT n), 3, 1⟩
def BMP_STAT_CPY_BUSY (n : Nat) : Fld := ⟨(BMP_STAT n), 8, 1⟩
def BMP_STAT_CPY_DONE (n : Nat) : Fld := ⟨(BMP_STAT n), 9, 1⟩
def BMP_STAT_CPY_ERR (n : Nat) : Fld := ⟨(BMP_STAT n), 10, 1⟩
def BMP_STAT_UE (n : Nat) : Fld := ⟨(BMP_STAT n), 11, 1⟩
def BMP_STAT_CPY_CAUSE (n : Nat) : Fld := ⟨(BMP_STAT n), 12, 3⟩
def BMP_CAP (n : Nat) : Nat := 0xA0008 + 0x1000 * n
def BMP_CAP_CAP_64M (n : Nat) : Fld := ⟨(BMP_CAP n), 0, 16⟩
def BMP_MARGIN (n : Nat) : Nat := 0xA000C + 0x1000 * n
def BMP_MARGIN_RD (n : Nat) : Fld := ⟨(BMP_MARGIN n), 0, 8⟩
def BMP_MARGIN_WR (n : Nat) : Fld := ⟨(BMP_MARGIN n), 8, 8⟩
def BMP_MARGIN_REPAIRED (n : Nat) : Fld := ⟨(BMP_MARGIN n), 16, 8⟩
def BMP_ERR_LOC (n : Nat) : Nat := 0xA0010 + 0x1000 * n
def BMP_ERR_LOC_LOC (n : Nat) : Fld := ⟨(BMP_ERR_LOC n), 0, 32⟩
def BMP_CPY_SRC_LO (n : Nat) : Nat := 0xA0014 + 0x1000 * n
def BMP_CPY_SRC_LO_ADDR (n : Nat) : Fld := ⟨(BMP_CPY_SRC_LO n), 0, 32⟩
def BMP_CPY_SRC_HI (n : Nat) : Nat := 0xA0018 + 0x1000 * n
def BMP_CPY_SRC_HI_ADDR (n : Nat) : Fld := ⟨(BMP_CPY_SRC_HI n), 0, 8⟩
def BMP_CPY_DST_LO (n : Nat) : Nat := 0xA001C + 0x1000 * n
def BMP_CPY_DST_LO_ADDR (n : Nat) : Fld := ⟨(BMP_CPY_DST_LO n), 0, 32⟩
def BMP_CPY_DST_HI (n : Nat) : Nat := 0xA0020 + 0x1000 * n
def BMP_CPY_DST_HI_ADDR (n : Nat) : Fld := ⟨(BMP_CPY_DST_HI n), 0, 8⟩
def BMP_CPY_CMD (n : Nat) : Nat := 0xA0024 + 0x1000 * n
def BMP_CPY_CMD_LEN (n : Nat) : Fld := ⟨(BMP_CPY_CMD n), 0, 24⟩
def BMP_CPY_CTL (n : Nat) : Nat := 0xA0028 + 0x1000 * n
def BMP_CPY_CTL_GROUP (n : Nat) : Fld := ⟨(BMP_CPY_CTL n), 0, 6⟩
def BMP_CPY_CTL_VIEW (n : Nat) : Fld := ⟨(BMP_CPY_CTL n), 8, 2⟩
def BMP_CPY_CTL_GO (n : Nat) : Fld := ⟨(BMP_CPY_CTL n), 16, 1⟩
def BMP_ILV : Nat := 0xA0100
def BMP_ILV_WAYS : Fld := ⟨BMP_ILV, 0, 2⟩
def BMP_ILV_PORTS : Fld := ⟨BMP_ILV, 8, 8⟩
def MOTH_WATCH : Nat := 0xB0040
def MOTH_WATCH_WATCH : Fld := ⟨MOTH_WATCH, 0, 32⟩
def MOTH_WPEND : Nat := 0xB0044
def MOTH_WPEND_PEND : Fld := ⟨MOTH_WPEND, 0, 32⟩
def MOTH_WAKE_CFG : Nat := 0xB0048
def MOTH_WAKE_CFG_MSTOP : Fld := ⟨MOTH_WAKE_CFG, 0, 1⟩
def MOTH_WAKE_CFG_HW : Fld := ⟨MOTH_WAKE_CFG, 1, 1⟩
def MOTH_WAKE_STAT : Nat := 0xB004C
def MOTH_WAKE_STAT_SRC : Fld := ⟨MOTH_WAKE_STAT, 0, 5⟩
def MOTH_WAKE_STAT_WOKE : Fld := ⟨MOTH_WAKE_STAT, 8, 1⟩
def MOTH_MGMT_IN : Nat := 0xB0050
def MOTH_MGMT_IN_DATA : Fld := ⟨MOTH_MGMT_IN, 0, 32⟩
def MOTH_MGMT_OUT : Nat := 0xB0054
def MOTH_MGMT_OUT_DATA : Fld := ⟨MOTH_MGMT_OUT, 0, 32⟩
def MOTH_TB_LO : Nat := 0xB0060
def MOTH_TB_LO_TB : Fld := ⟨MOTH_TB_LO, 0, 32⟩
def MOTH_TB_HI : Nat := 0xB0064
def MOTH_TB_HI_TB : Fld := ⟨MOTH_TB_HI, 0, 32⟩
def MOTH_WDG_CFG : Nat := 0xB0080
def MOTH_WDG_CFG_EN : Fld := ⟨MOTH_WDG_CFG, 0, 1⟩
def MOTH_WDG_CFG_ACTION : Fld := ⟨MOTH_WDG_CFG, 1, 1⟩
def MOTH_WDG_CFG_DBG : Fld := ⟨MOTH_WDG_CFG, 2, 1⟩
def MOTH_WDG_CFG_LOCK : Fld := ⟨MOTH_WDG_CFG, 31, 1⟩
def MOTH_WDG_PER : Nat := 0xB0084
def MOTH_WDG_PER_PERIOD : Fld := ⟨MOTH_WDG_PER, 0, 16⟩
def MOTH_WDG_PER_WARN : Fld := ⟨MOTH_WDG_PER, 16, 16⟩
def MOTH_WDG_SVC : Nat := 0xB0090
def MOTH_WDG_SVC_KEY : Fld := ⟨MOTH_WDG_SVC, 0, 16⟩
def MOTH_WDG_CNT : Nat := 0xB0094
def MOTH_WDG_CNT_COUNT : Fld := ⟨MOTH_WDG_CNT, 0, 20⟩
def MOTH_WDG_STAT : Nat := 0xB0098
def MOTH_WDG_STAT_WARNED : Fld := ⟨MOTH_WDG_STAT, 0, 1⟩
def MOTH_WDG_STAT_EXPIRED : Fld := ⟨MOTH_WDG_STAT, 1, 1⟩
def MOTH_WDG_STAT_BADKEY : Fld := ⟨MOTH_WDG_STAT, 2, 1⟩
def MOTH_WDG_STAT_PAUSED : Fld := ⟨MOTH_WDG_STAT, 3, 1⟩
def MOTH_WDG_STAT_ARMED : Fld := ⟨MOTH_WDG_STAT, 4, 1⟩
def MOTH_RAIL_LIM : Nat := 0xB00A0
def MOTH_RAIL_LIM_VLOW : Fld := ⟨MOTH_RAIL_LIM, 0, 12⟩
def MOTH_RAIL_LIM_VMIN : Fld := ⟨MOTH_RAIL_LIM, 16, 12⟩
def MOTH_RAIL_CFG : Nat := 0xB00A4
def MOTH_RAIL_CFG_EN : Fld := ⟨MOTH_RAIL_CFG, 0, 1⟩
def MOTH_RAIL_CFG_FREEZE_EN : Fld := ⟨MOTH_RAIL_CFG, 1, 1⟩
def MOTH_RAIL_CFG_TPRED : Fld := ⟨MOTH_RAIL_CFG, 16, 12⟩
def MOTH_RAIL_DATA : Nat := 0xB00A8
def MOTH_RAIL_DATA_A : Fld := ⟨MOTH_RAIL_DATA, 0, 12⟩
def MOTH_RAIL_DATA_MIN : Fld := ⟨MOTH_RAIL_DATA, 16, 12⟩
def MOTH_RAIL_STAT : Nat := 0xB00AC
def MOTH_RAIL_STAT_LOW : Fld := ⟨MOTH_RAIL_STAT, 0, 1⟩
def MOTH_RAIL_STAT_PRED : Fld := ⟨MOTH_RAIL_STAT, 1, 1⟩
def MOTH_RAIL_STAT_FROZE : Fld := ⟨MOTH_RAIL_STAT, 2, 1⟩
def MOTH_RAIL_STAT_SLOPE : Fld := ⟨MOTH_RAIL_STAT, 16, 16⟩
def SUP_CORE_CFG : Nat := 0x100000
def SUP_CORE_CFG_SPLIT_EN : Fld := ⟨SUP_CORE_CFG, 0, 1⟩
def SUP_CORE_CFG_DET : Fld := ⟨SUP_CORE_CFG, 1, 1⟩
def SUP_MINT_BASE_LO : Nat := 0x100040
def SUP_MINT_BASE_LO_BASE : Fld := ⟨SUP_MINT_BASE_LO, 0, 32⟩
def SUP_MINT_BASE_HI : Nat := 0x100044
def SUP_MINT_BASE_HI_BASE : Fld := ⟨SUP_MINT_BASE_HI, 0, 8⟩
def SUP_MINT_LEN : Nat := 0x100048
def SUP_MINT_LEN_LENGTH : Fld := ⟨SUP_MINT_LEN, 0, 32⟩
def SUP_MINT_ATTR : Nat := 0x10004C
def SUP_MINT_ATTR_PERM : Fld := ⟨SUP_MINT_ATTR, 0, 16⟩
def SUP_MINT_ATTR_GROUP : Fld := ⟨SUP_MINT_ATTR, 16, 6⟩
def SUP_MINT_ATTR_VIEW : Fld := ⟨SUP_MINT_ATTR, 22, 2⟩
def SUP_MINT_ATTR_SKEY : Fld := ⟨SUP_MINT_ATTR, 24, 8⟩
def SUP_MINT_OWNER : Nat := 0x100050
def SUP_MINT_OWNER_OWNER : Fld := ⟨SUP_MINT_OWNER, 0, 14⟩
def SUP_MINT_TGT : Nat := 0x100054
def SUP_MINT_TGT_CORE : Fld := ⟨SUP_MINT_TGT, 0, 6⟩
def SUP_MINT_TGT_KIND : Fld := ⟨SUP_MINT_TGT, 6, 2⟩
def SUP_MINT_TGT_REG : Fld := ⟨SUP_MINT_TGT, 8, 3⟩
def SUP_MINT_TGT_SET : Fld := ⟨SUP_MINT_TGT, 11, 4⟩
def SUP_MINT_TGT_SLOT : Fld := ⟨SUP_MINT_TGT, 16, 9⟩
def SUP_MINT_CTL : Nat := 0x100058
def SUP_MINT_CTL_GO : Fld := ⟨SUP_MINT_CTL, 0, 1⟩
def SUP_MINT_CTL_MODE : Fld := ⟨SUP_MINT_CTL, 1, 1⟩
def SUP_MINT_CTL_SRC : Fld := ⟨SUP_MINT_CTL, 2, 3⟩
def SUP_MINT_STAT : Nat := 0x10005C
def SUP_MINT_STAT_BUSY : Fld := ⟨SUP_MINT_STAT, 0, 1⟩
def SUP_MINT_STAT_DONE : Fld := ⟨SUP_MINT_STAT, 1, 1⟩
def SUP_MINT_STAT_ERR : Fld := ⟨SUP_MINT_STAT, 2, 1⟩
def SUP_MINT_STAT_ECAUSE : Fld := ⟨SUP_MINT_STAT, 4, 4⟩
def SUP_CS_CFG : Nat := 0x100100
def SUP_CS_CFG_WAIT : Fld := ⟨SUP_CS_CFG, 0, 6⟩
def SUP_CS_CFG_LC_EN : Fld := ⟨SUP_CS_CFG, 8, 1⟩
def SUP_CS_CFG_BTB_EN : Fld := ⟨SUP_CS_CFG, 9, 1⟩
def SUP_CS_CFG_DUAL_EN : Fld := ⟨SUP_CS_CFG, 10, 1⟩
def SUP_CS_CFG_LC_INV : Fld := ⟨SUP_CS_CFG, 16, 1⟩
def SUP_CS_STAT : Nat := 0x100104
def SUP_CS_STAT_BUSY : Fld := ⟨SUP_CS_STAT, 0, 1⟩
def SUP_CS_STAT_WERR : Fld := ⟨SUP_CS_STAT, 1, 1⟩
def SUP_CS_STAT_CHK : Fld := ⟨SUP_CS_STAT, 2, 1⟩
def SUP_CS_STAT_CHKFAIL : Fld := ⟨SUP_CS_STAT, 3, 1⟩
def SUP_CS_ERRLOC : Nat := 0x100108
def SUP_CS_ERRLOC_LINE : Fld := ⟨SUP_CS_ERRLOC, 0, 18⟩
def SUP_CSW_ADDR : Nat := 0x10010C
def SUP_CSW_ADDR_LINE : Fld := ⟨SUP_CSW_ADDR, 0, 18⟩
def SUP_CSW_ADDR_TGT : Fld := ⟨SUP_CSW_ADDR, 31, 1⟩
def SUP_CSW_DATA (n : Nat) : Nat := 0x100110 + 0x4 * n
def SUP_CSW_DATA_IMAGE (n : Nat) : Fld := ⟨(SUP_CSW_DATA n), 0, 32⟩
def SUP_CSW_CTL : Nat := 0x100130
def SUP_CSW_CTL_GO : Fld := ⟨SUP_CSW_CTL, 0, 1⟩
def SEQ_CORE_CFG (pg : Nat) : Nat := pg + 0x0
def SEQ_CORE_CFG_SPLIT_EN (pg : Nat) : Fld := ⟨(SEQ_CORE_CFG pg), 0, 1⟩
def SEQ_CORE_CFG_DET (pg : Nat) : Fld := ⟨(SEQ_CORE_CFG pg), 1, 1⟩
def SEQ_DET_STAT (pg : Nat) : Nat := pg + 0x4
def SEQ_DET_STAT_OVR (pg : Nat) : Fld := ⟨(SEQ_DET_STAT pg), 0, 1⟩
def SEQ_DET_STAT_FETCH_LATE (pg : Nat) : Fld := ⟨(SEQ_DET_STAT pg), 1, 1⟩
def SEQ_DET_STAT_NF (pg : Nat) : Fld := ⟨(SEQ_DET_STAT pg), 2, 1⟩
def SEQ_DET_STAT_MAXEX (pg : Nat) : Fld := ⟨(SEQ_DET_STAT pg), 16, 16⟩
def SEQ_DET_CNT (pg : Nat) : Nat := pg + 0x8
def SEQ_DET_CNT_COUNT (pg : Nat) : Fld := ⟨(SEQ_DET_CNT pg), 0, 32⟩
def SEQ_EXC_CFG (pg : Nat) : Nat := pg + 0x20
def SEQ_EXC_CFG_NIW_MAX (pg : Nat) : Fld := ⟨(SEQ_EXC_CFG pg), 0, 11⟩
def SEQ_EXC_STAT (pg : Nat) : Nat := pg + 0x24
def SEQ_EXC_STAT_LEVEL (pg : Nat) : Fld := ⟨(SEQ_EXC_STAT pg), 0, 4⟩
def SEQ_EXC_STAT_CPL (pg : Nat) : Fld := ⟨(SEQ_EXC_STAT pg), 4, 4⟩
def SEQ_EXC_STAT_NIWOPEN (pg : Nat) : Fld := ⟨(SEQ_EXC_STAT pg), 8, 1⟩
def SEQ_EXC_STAT_NIWOVR (pg : Nat) : Fld := ⟨(SEQ_EXC_STAT pg), 16, 1⟩
def SEQ_EXC_STAT_DBLF (pg : Nat) : Fld := ⟨(SEQ_EXC_STAT pg), 17, 1⟩
def SEQ_EXC_STAT_CRST (pg : Nat) : Fld := ⟨(SEQ_EXC_STAT pg), 18, 1⟩
def SEQ_EXC_CNT (pg : Nat) : Nat := pg + 0x28
def SEQ_EXC_CNT_NIWOVR (pg : Nat) : Fld := ⟨(SEQ_EXC_CNT pg), 0, 16⟩
def SEQ_EXC_CNT_DBLF (pg : Nat) : Fld := ⟨(SEQ_EXC_CNT pg), 16, 16⟩
def SEQ_SVW_SEL (pg : Nat) : Nat := pg + 0x30
def SEQ_SVW_SEL_SET (pg : Nat) : Fld := ⟨(SEQ_SVW_SEL pg), 0, 5⟩
def SEQ_SVW_SEL_INDEX (pg : Nat) : Fld := ⟨(SEQ_SVW_SEL pg), 8, 6⟩
def SEQ_SVW_DATA (pg : Nat) : Nat := pg + 0x34
def SEQ_SVW_DATA_DATA (pg : Nat) : Fld := ⟨(SEQ_SVW_DATA pg), 0, 32⟩
def SEQ_SCHED_CFG (pg : Nat) : Nat := pg + 0x60
def SEQ_SCHED_CFG_QUANTUM (pg : Nat) : Fld := ⟨(SEQ_SCHED_CFG pg), 0, 8⟩
def SEQ_SCHED_CFG_AGE_STEP (pg : Nat) : Fld := ⟨(SEQ_SCHED_CFG pg), 8, 4⟩
def SEQ_SCHED_STAT (pg : Nat) : Nat := pg + 0x64
def SEQ_SCHED_STAT_LIVE (pg : Nat) : Fld := ⟨(SEQ_SCHED_STAT pg), 0, 9⟩
def SEQ_SCHED_STAT_LIVEV (pg : Nat) : Fld := ⟨(SEQ_SCHED_STAT pg), 9, 1⟩
def SEQ_SCHED_STAT_IDLE (pg : Nat) : Fld := ⟨(SEQ_SCHED_STAT pg), 10, 1⟩
def SEQ_SCHED_STAT_READY (pg : Nat) : Fld := ⟨(SEQ_SCHED_STAT pg), 16, 10⟩
def SEQ_SCHED_STAT_PARK (pg : Nat) : Fld := ⟨(SEQ_SCHED_STAT pg), 28, 1⟩
def SEQ_SCHED_STAT_CMDERR (pg : Nat) : Fld := ⟨(SEQ_SCHED_STAT pg), 29, 1⟩
def SEQ_CTX_CMD (pg : Nat) : Nat := pg + 0x68
def SEQ_CTX_CMD_SLOT (pg : Nat) : Fld := ⟨(SEQ_CTX_CMD pg), 0, 9⟩
def SEQ_CTX_CMD_OP (pg : Nat) : Fld := ⟨(SEQ_CTX_CMD pg), 12, 4⟩
def SEQ_CTX_SEL (pg : Nat) : Nat := pg + 0x6C
def SEQ_CTX_SEL_SLOT (pg : Nat) : Fld := ⟨(SEQ_CTX_SEL pg), 0, 9⟩
def SEQ_CTX_SEL_WORD (pg : Nat) : Fld := ⟨(SEQ_CTX_SEL pg), 16, 6⟩
def SEQ_CTX_DATA (pg : Nat) : Nat := pg + 0x70
def SEQ_CTX_DATA_DATA (pg : Nat) : Fld := ⟨(SEQ_CTX_DATA pg), 0, 32⟩
def SEQ_CTX_BUD (pg : Nat) : Nat := pg + 0x74
def SEQ_CTX_BUD_VALUE (pg : Nat) : Fld := ⟨(SEQ_CTX_BUD pg), 0, 24⟩
def SEQ_CTX_BUD_EN (pg : Nat) : Fld := ⟨(SEQ_CTX_BUD pg), 31, 1⟩
def SEQ_PARKED (pg : Nat) (n : Nat) : Nat := pg + 0x80 + 0x4 * n
def SEQ_PARKED_SLOTS (pg : Nat) (n : Nat) : Fld := ⟨(SEQ_PARKED pg n), 0, 32⟩
def POD_STAT (n : Nat) : Nat := 0x400000 + 0x10000 * n
def POD_STAT_BUSY (n : Nat) : Fld := ⟨(POD_STAT n), 0, 1⟩
def POD_STAT_MAPPED (n : Nat) : Fld := ⟨(POD_STAT n), 1, 1⟩
def POD_STAT_PAIRED (n : Nat) : Fld := ⟨(POD_STAT n), 2, 1⟩
def POD_STAT_SELFTEST (n : Nat) : Fld := ⟨(POD_STAT n), 3, 1⟩
def POD_STAT_LP (n : Nat) : Fld := ⟨(POD_STAT n), 4, 4⟩
def POD_STAT_PAIR_HI (n : Nat) : Fld := ⟨(POD_STAT n), 8, 1⟩
def POD_STAT_CTX (n : Nat) : Fld := ⟨(POD_STAT n), 16, 14⟩
def POD_TICKET (n : Nat) : Nat := 0x400004 + 0x10000 * n
def POD_TICKET_TICKET (n : Nat) : Fld := ⟨(POD_TICKET n), 0, 8⟩
def POD_INDEX (n : Nat) : Nat := 0x400008 + 0x10000 * n
def POD_INDEX_NEXT (n : Nat) : Fld := ⟨(POD_INDEX n), 0, 24⟩
def POD_CHAIN_LO (n : Nat) : Nat := 0x40000C + 0x10000 * n
def POD_CHAIN_LO_ADDR (n : Nat) : Fld := ⟨(POD_CHAIN_LO n), 0, 32⟩
def POD_CHAIN_HI (n : Nat) : Nat := 0x400010 + 0x10000 * n
def POD_CHAIN_HI_ADDR (n : Nat) : Fld := ⟨(POD_CHAIN_HI n), 0, 8⟩
def POD_FLAGS (n : Nat) : Nat := 0x400014 + 0x10000 * n
def POD_FLAGS_NX (n : Nat) : Fld := ⟨(POD_FLAGS n), 0, 1⟩
def POD_FLAGS_UF (n : Nat) : Fld := ⟨(POD_FLAGS n), 1, 1⟩
def POD_FLAGS_OF (n : Nat) : Fld := ⟨(POD_FLAGS n), 2, 1⟩
def POD_FLAGS_DZ (n : Nat) : Fld := ⟨(POD_FLAGS n), 3, 1⟩
def POD_FLAGS_NV (n : Nat) : Fld := ⟨(POD_FLAGS n), 4, 1⟩
def POD_FLAGS_SAT (n : Nat) : Fld := ⟨(POD_FLAGS n), 5, 1⟩
def POD_RUNS (n : Nat) : Nat := 0x400018 + 0x10000 * n
def POD_RUNS_COUNT (n : Nat) : Fld := ⟨(POD_RUNS n), 0, 32⟩
def POD_CTL (n : Nat) : Nat := 0x40001C + 0x10000 * n
def POD_CTL_ABORT (n : Nat) : Fld := ⟨(POD_CTL n), 0, 1⟩
def POD_ALLOC_CFG : Nat := 0x40F000
def POD_ALLOC_CFG_EN : Fld := ⟨POD_ALLOC_CFG, 0, 1⟩
def POD_ALLOC_CFG_PAIR_EN : Fld := ⟨POD_ALLOC_CFG, 1, 1⟩
def POD_ALLOC_CFG_AGE_STEP : Fld := ⟨POD_ALLOC_CFG, 4, 4⟩
def POD_ALLOC_STAT : Nat := 0x40F004
def POD_ALLOC_STAT_FREE : Fld := ⟨POD_ALLOC_STAT, 0, 16⟩
def POD_ALLOC_STAT_QUEUED : Fld := ⟨POD_ALLOC_STAT, 16, 10⟩
def POD_ALLOC_WAIT : Nat := 0x40F008
def POD_ALLOC_WAIT_MAXWAIT : Fld := ⟨POD_ALLOC_WAIT, 0, 24⟩
def POD_ALLOC_SEL : Nat := 0x40F00C
def POD_ALLOC_SEL_LS : Fld := ⟨POD_ALLOC_SEL, 0, 5⟩
def POD_ALLOC_LIVE : Nat := 0x40F010
def POD_ALLOC_LIVE_LIVE : Fld := ⟨POD_ALLOC_LIVE, 0, 5⟩
def POD_ALLOC_LIVE_QUEUED : Fld := ⟨POD_ALLOC_LIVE, 8, 5⟩
def POD_ALLOC_LIVE_RUNNING : Fld := ⟨POD_ALLOC_LIVE, 16, 5⟩
def HIF_CTL : Nat := 0xC00000
def HIF_CTL_EN : Fld := ⟨HIF_CTL, 0, 1⟩
def HIF_STAT : Nat := 0xC00004
def HIF_STAT_POST_FULL : Fld := ⟨HIF_STAT, 0, 1⟩
def HIF_STAT_INBOX_ERR : Fld := ⟨HIF_STAT, 1, 1⟩
def HIF_STAT_CANCELLED : Fld := ⟨HIF_STAT, 2, 1⟩
def HIF_STAT_INBOX_FULL : Fld := ⟨HIF_STAT, 3, 1⟩
def HIF_STAT_PENDING : Fld := ⟨HIF_STAT, 16, 11⟩
def HIF_INBOX_CFG : Nat := 0xC00008
def HIF_INBOX_CFG_BASE : Fld := ⟨HIF_INBOX_CFG, 0, 23⟩
def HIF_INBOX_CFG_SIZE : Fld := ⟨HIF_INBOX_CFG, 24, 4⟩
def HIF_INBOX_PTR : Nat := 0xC0000C
def HIF_INBOX_PTR_HEAD : Fld := ⟨HIF_INBOX_PTR, 0, 12⟩
def HIF_INBOX_PTR_TAIL : Fld := ⟨HIF_INBOX_PTR, 16, 12⟩
def HIF_POST (n : Nat) : Nat := 0xC00010 + 0x4 * n
def HIF_POST_WORD (n : Nat) : Fld := ⟨(HIF_POST n), 0, 32⟩
def HIF_POST_CTL : Nat := 0xC00030
def HIF_POST_CTL_RING : Fld := ⟨HIF_POST_CTL, 0, 6⟩
def HIF_POST_CTL_GROUP : Fld := ⟨HIF_POST_CTL, 8, 6⟩
def HIF_POST_CTL_IMM : Fld := ⟨HIF_POST_CTL, 16, 1⟩
def HIF_POST_CTL_GO : Fld := ⟨HIF_POST_CTL, 24, 1⟩
def HIF_BCAST_SEQ (n : Nat) : Nat := 0xC00040 + 0x8 * n
def HIF_BCAST_SEQ_LS (n : Nat) : Fld := ⟨(HIF_BCAST_SEQ n), 0, 32⟩
def HIF_BCAST_POD (n : Nat) : Nat := 0xC00044 + 0x8 * n
def HIF_BCAST_POD_LP (n : Nat) : Fld := ⟨(HIF_BCAST_POD n), 0, 16⟩
def HIF_RING_SQBASE_LO (n : Nat) : Nat := 0xC00100 + 0x40 * n
def HIF_RING_SQBASE_LO_ADDR (n : Nat) : Fld := ⟨(HIF_RING_SQBASE_LO n), 0, 32⟩
def HIF_RING_SQBASE_HI (n : Nat) : Nat := 0xC00104 + 0x40 * n
def HIF_RING_SQBASE_HI_ADDR (n : Nat) : Fld := ⟨(HIF_RING_SQBASE_HI n), 0, 32⟩
def HIF_RING_CQBASE_LO (n : Nat) : Nat := 0xC00108 + 0x40 * n
def HIF_RING_CQBASE_LO_ADDR (n : Nat) : Fld := ⟨(HIF_RING_CQBASE_LO n), 0, 32⟩
def HIF_RING_CQBASE_HI (n : Nat) : Nat := 0xC0010C + 0x40 * n
def HIF_RING_CQBASE_HI_ADDR (n : Nat) : Fld := ⟨(HIF_RING_CQBASE_HI n), 0, 32⟩
def HIF_RING_MSGADDR_LO (n : Nat) : Nat := 0xC00110 + 0x40 * n
def HIF_RING_MSGADDR_LO_ADDR (n : Nat) : Fld := ⟨(HIF_RING_MSGADDR_LO n), 0, 32⟩
def HIF_RING_MSGADDR_HI (n : Nat) : Nat := 0xC00114 + 0x40 * n
def HIF_RING_MSGADDR_HI_ADDR (n : Nat) : Fld := ⟨(HIF_RING_MSGADDR_HI n), 0, 32⟩
def HIF_RING_MSGDATA (n : Nat) : Nat := 0xC00118 + 0x40 * n
def HIF_RING_MSGDATA_DATA (n : Nat) : Fld := ⟨(HIF_RING_MSGDATA n), 0, 32⟩
def HIF_RING_CFG (n : Nat) : Nat := 0xC0011C + 0x40 * n
def HIF_RING_CFG_EN (n : Nat) : Fld := ⟨(HIF_RING_CFG n), 0, 1⟩
def HIF_RING_CFG_SQSIZE (n : Nat) : Fld := ⟨(HIF_RING_CFG n), 1, 4⟩
def HIF_RING_CFG_CQSIZE (n : Nat) : Fld := ⟨(HIF_RING_CFG n), 5, 4⟩
def HIF_RING_CFG_QOS (n : Nat) : Fld := ⟨(HIF_RING_CFG n), 9, 4⟩
def HIF_RING_CFG_NMODE (n : Nat) : Fld := ⟨(HIF_RING_CFG n), 13, 2⟩
def HIF_RING_CFG_IRQLINE (n : Nat) : Fld := ⟨(HIF_RING_CFG n), 15, 4⟩
def HIF_RING_STAT (n : Nat) : Nat := 0xC00120 + 0x40 * n
def HIF_RING_STAT_FETCH_ERR (n : Nat) : Fld := ⟨(HIF_RING_STAT n), 0, 1⟩
def HIF_RING_STAT_WRITE_ERR (n : Nat) : Fld := ⟨(HIF_RING_STAT n), 1, 1⟩
def HIF_RING_STAT_DB_ERR (n : Nat) : Fld := ⟨(HIF_RING_STAT n), 2, 1⟩
def HIF_RING_STAT_INLINE_ERR (n : Nat) : Fld := ⟨(HIF_RING_STAT n), 3, 1⟩
def HIF_RING_STAT_CQ_FULL (n : Nat) : Fld := ⟨(HIF_RING_STAT n), 4, 1⟩
def HIF_RING_STAT_STOPPED (n : Nat) : Fld := ⟨(HIF_RING_STAT n), 5, 1⟩
def HIF_RING_PTR (n : Nat) : Nat := 0xC00124 + 0x40 * n
def HIF_RING_PTR_SQ_HEAD (n : Nat) : Fld := ⟨(HIF_RING_PTR n), 0, 12⟩
def HIF_RING_PTR_CQ_TAIL (n : Nat) : Fld := ⟨(HIF_RING_PTR n), 16, 12⟩
def HIF_RING_BIND (n : Nat) : Nat := 0xC00128 + 0x40 * n
def HIF_RING_BIND_EN (n : Nat) : Fld := ⟨(HIF_RING_BIND n), 0, 1⟩
def HIF_RING_BIND_LS (n : Nat) : Fld := ⟨(HIF_RING_BIND n), 1, 5⟩
def HIF_RING_BIND_MBOX (n : Nat) : Fld := ⟨(HIF_RING_BIND n), 16, 13⟩
def HIF_DB_SQTAIL (n : Nat) : Nat := 0xC10000 + 0x1000 * n
def HIF_DB_SQTAIL_TAIL (n : Nat) : Fld := ⟨(HIF_DB_SQTAIL n), 0, 12⟩
def HIF_DB_CQHEAD (n : Nat) : Nat := 0xC10004 + 0x1000 * n
def HIF_DB_CQHEAD_HEAD (n : Nat) : Fld := ⟨(HIF_DB_CQHEAD n), 0, 12⟩
def HIF_DB_IRQ (n : Nat) : Nat := 0xC10008 + 0x1000 * n
def HIF_DB_IRQ_PEND (n : Nat) : Fld := ⟨(HIF_DB_IRQ n), 0, 1⟩
def HIF_DB_INLINE (n : Nat) (k : Nat) : Nat := 0xC10040 + 0x1000 * n + 0x4 * k
def HIF_DB_INLINE_DESC (n : Nat) (k : Nat) : Fld := ⟨(HIF_DB_INLINE n k), 0, 32⟩
def WIAN_CTL : Nat := 0x1000000
def WIAN_CTL_EN : Fld := ⟨WIAN_CTL, 0, 1⟩
def WIAN_CTL_DISC : Fld := ⟨WIAN_CTL, 1, 1⟩
def WIAN_CTL_CAND : Fld := ⟨WIAN_CTL, 2, 1⟩
def WIAN_CTL_AUTO : Fld := ⟨WIAN_CTL, 3, 1⟩
def WIAN_CTL_ING_EN : Fld := ⟨WIAN_CTL, 4, 1⟩
def WIAN_CTL_MAXDEPTH : Fld := ⟨WIAN_CTL, 8, 6⟩
def WIAN_CTL_QUIET : Fld := ⟨WIAN_CTL, 16, 8⟩
def WIAN_STAT : Nat := 0x1000004
def WIAN_STAT_DSTATE : Fld := ⟨WIAN_STAT, 0, 2⟩
def WIAN_STAT_MONARCH : Fld := ⟨WIAN_STAT, 2, 1⟩
def WIAN_STAT_ERRC : Fld := ⟨WIAN_STAT, 3, 3⟩
def WIAN_STAT_SYNC : Fld := ⟨WIAN_STAT, 8, 2⟩
def WIAN_STAT_LATE : Fld := ⟨WIAN_STAT, 10, 1⟩
def WIAN_STAT_REFUSED : Fld := ⟨WIAN_STAT, 11, 1⟩
def WIAN_STAT_BADFRM : Fld := ⟨WIAN_STAT, 12, 1⟩
def WIAN_STAT_ROUND : Fld := ⟨WIAN_STAT, 16, 16⟩
def WIAN_ID : Nat := 0x1000008
def WIAN_ID_ADDR : Fld := ⟨WIAN_ID, 0, 12⟩
def WIAN_ID_VALID : Fld := ⟨WIAN_ID, 12, 1⟩
def WIAN_ID_MADDR : Fld := ⟨WIAN_ID, 16, 12⟩
def WIAN_NDEV : Nat := 0x100000C
def WIAN_NDEV_N : Fld := ⟨WIAN_NDEV, 0, 13⟩
def WIAN_NDEV_DEPTH : Fld := ⟨WIAN_NDEV, 16, 6⟩
def WIAN_PATH : Nat := 0x1000010
def WIAN_PATH_NS : Fld := ⟨WIAN_PATH, 0, 24⟩
def WIAN_SERIAL_LO : Nat := 0x1000018
def WIAN_SERIAL_LO_SERIAL : Fld := ⟨WIAN_SERIAL_LO, 0, 32⟩
def WIAN_SERIAL_HI : Nat := 0x100001C
def WIAN_SERIAL_HI_SERIAL : Fld := ⟨WIAN_SERIAL_HI, 0, 32⟩
def WIAN_RT_IDX : Nat := 0x1000020
def WIAN_RT_IDX_DST : Fld := ⟨WIAN_RT_IDX, 0, 12⟩
def WIAN_RT_DATA : Nat := 0x1000024
def WIAN_RT_DATA_PORT : Fld := ⟨WIAN_RT_DATA, 0, 4⟩
def WIAN_TS_CFG : Nat := 0x1000028
def WIAN_TS_CFG_PER : Fld := ⟨WIAN_TS_CFG, 0, 4⟩
def WIAN_TS_CFG_SLEW : Fld := ⟨WIAN_TS_CFG, 4, 4⟩
def WIAN_TS_CFG_STEPMAX : Fld := ⟨WIAN_TS_CFG, 16, 16⟩
def WIAN_TS_OFFS : Nat := 0x100002C
def WIAN_TS_OFFS_THETA : Fld := ⟨WIAN_TS_OFFS, 0, 32⟩
def WIAN_LINK_CTL (n : Nat) : Nat := 0x1000100 + 0x40 * n
def WIAN_LINK_CTL_EN (n : Nat) : Fld := ⟨(WIAN_LINK_CTL n), 0, 1⟩
def WIAN_LINK_CTL_RETRAIN (n : Nat) : Fld := ⟨(WIAN_LINK_CTL n), 1, 1⟩
def WIAN_LINK_STAT (n : Nat) : Nat := 0x1000104 + 0x40 * n
def WIAN_LINK_STAT_STATE (n : Nat) : Fld := ⟨(WIAN_LINK_STAT n), 0, 3⟩
def WIAN_LINK_STAT_TREE (n : Nat) : Fld := ⟨(WIAN_LINK_STAT n), 3, 1⟩
def WIAN_LINK_STAT_PARENT (n : Nat) : Fld := ⟨(WIAN_LINK_STAT n), 4, 1⟩
def WIAN_LINK_STAT_SPARE (n : Nat) : Fld := ⟨(WIAN_LINK_STAT n), 5, 3⟩
def WIAN_LINK_STAT_LANE_DEG (n : Nat) : Fld := ⟨(WIAN_LINK_STAT n), 8, 1⟩
def WIAN_LINK_STAT_PARTV (n : Nat) : Fld := ⟨(WIAN_LINK_STAT n), 9, 1⟩
def WIAN_LINK_DELAY (n : Nat) : Nat := 0x1000108 + 0x40 * n
def WIAN_LINK_DELAY_DELAY (n : Nat) : Fld := ⟨(WIAN_LINK_DELAY n), 0, 24⟩
def WIAN_LINK_LEN (n : Nat) : Nat := 0x100010C + 0x40 * n
def WIAN_LINK_LEN_CM (n : Nat) : Fld := ⟨(WIAN_LINK_LEN n), 0, 24⟩
def WIAN_LINK_CAL (n : Nat) : Nat := 0x1000110 + 0x40 * n
def WIAN_LINK_CAL_FIX (n : Nat) : Fld := ⟨(WIAN_LINK_CAL n), 0, 16⟩
def WIAN_LINK_CAL_ASYM (n : Nat) : Fld := ⟨(WIAN_LINK_CAL n), 16, 16⟩
def WIAN_LINK_VF (n : Nat) : Nat := 0x1000114 + 0x40 * n
def WIAN_LINK_VF_VF (n : Nat) : Fld := ⟨(WIAN_LINK_VF n), 0, 18⟩
def WIAN_LINK_PART_ID (n : Nat) : Nat := 0x1000118 + 0x40 * n
def WIAN_LINK_PART_ID_ID (n : Nat) : Fld := ⟨(WIAN_LINK_PART_ID n), 0, 32⟩
def WIAN_LINK_PART_SER_LO (n : Nat) : Nat := 0x100011C + 0x40 * n
def WIAN_LINK_PART_SER_LO_SERIAL (n : Nat) : Fld := ⟨(WIAN_LINK_PART_SER_LO n), 0, 32⟩
def WIAN_LINK_PART_SER_HI (n : Nat) : Nat := 0x1000120 + 0x40 * n
def WIAN_LINK_PART_SER_HI_SERIAL (n : Nat) : Fld := ⟨(WIAN_LINK_PART_SER_HI n), 0, 32⟩
def WIAN_LINK_PART_INFO (n : Nat) : Nat := 0x1000124 + 0x40 * n
def WIAN_LINK_PART_INFO_INFO (n : Nat) : Fld := ⟨(WIAN_LINK_PART_INFO n), 0, 7⟩
def WIAN_LINK_CNT (n : Nat) : Nat := 0x1000128 + 0x40 * n
def WIAN_LINK_CNT_REPLAY (n : Nat) : Fld := ⟨(WIAN_LINK_CNT n), 0, 16⟩
def WIAN_LINK_CNT_DOWNS (n : Nat) : Fld := ⟨(WIAN_LINK_CNT n), 16, 16⟩
def WIAN_INWIN_BASE (n : Nat) : Nat := 0x1000200 + 0x10 * n
def WIAN_INWIN_BASE_BASE (n : Nat) : Fld := ⟨(WIAN_INWIN_BASE n), 0, 23⟩
def WIAN_INWIN_LEN (n : Nat) : Nat := 0x1000204 + 0x10 * n
def WIAN_INWIN_LEN_LEN (n : Nat) : Fld := ⟨(WIAN_INWIN_LEN n), 0, 23⟩
def WIAN_INWIN_SRC (n : Nat) : Nat := 0x1000208 + 0x10 * n
def WIAN_INWIN_SRC_LO (n : Nat) : Fld := ⟨(WIAN_INWIN_SRC n), 0, 12⟩
def WIAN_INWIN_SRC_HI (n : Nat) : Fld := ⟨(WIAN_INWIN_SRC n), 16, 12⟩
def WIAN_INWIN_CTL (n : Nat) : Nat := 0x100020C + 0x10 * n
def WIAN_INWIN_CTL_WR (n : Nat) : Fld := ⟨(WIAN_INWIN_CTL n), 0, 1⟩
def WIAN_INWIN_CTL_RD (n : Nat) : Fld := ⟨(WIAN_INWIN_CTL n), 1, 1⟩
def WIAN_TX_LOC (n : Nat) : Nat := 0x1000300 + 0x20 * n
def WIAN_TX_LOC_LOC (n : Nat) : Fld := ⟨(WIAN_TX_LOC n), 0, 23⟩
def WIAN_TX_REM (n : Nat) : Nat := 0x1000304 + 0x20 * n
def WIAN_TX_REM_REM (n : Nat) : Fld := ⟨(WIAN_TX_REM n), 0, 23⟩
def WIAN_TX_CMD (n : Nat) : Nat := 0x1000308 + 0x20 * n
def WIAN_TX_CMD_LEN (n : Nat) : Fld := ⟨(WIAN_TX_CMD n), 0, 20⟩
def WIAN_TX_CMD_DEV (n : Nat) : Fld := ⟨(WIAN_TX_CMD n), 20, 12⟩
def WIAN_TX_CTL (n : Nat) : Nat := 0x100030C + 0x20 * n
def WIAN_TX_CTL_GROUP (n : Nat) : Fld := ⟨(WIAN_TX_CTL n), 0, 6⟩
def WIAN_TX_CTL_VIEW (n : Nat) : Fld := ⟨(WIAN_TX_CTL n), 8, 2⟩
def WIAN_TX_CTL_DIR (n : Nat) : Fld := ⟨(WIAN_TX_CTL n), 12, 1⟩
def WIAN_TX_CTL_GO (n : Nat) : Fld := ⟨(WIAN_TX_CTL n), 16, 1⟩
def WIAN_TX_CTL_ABORT (n : Nat) : Fld := ⟨(WIAN_TX_CTL n), 17, 1⟩
def WIAN_TX_CTL_TIMEOUT (n : Nat) : Fld := ⟨(WIAN_TX_CTL n), 20, 8⟩
def WIAN_TX_STAT (n : Nat) : Nat := 0x1000310 + 0x20 * n
def WIAN_TX_STAT_BUSY (n : Nat) : Fld := ⟨(WIAN_TX_STAT n), 0, 1⟩
def WIAN_TX_STAT_DONE (n : Nat) : Fld := ⟨(WIAN_TX_STAT n), 1, 1⟩
def WIAN_TX_STAT_ERR (n : Nat) : Fld := ⟨(WIAN_TX_STAT n), 2, 1⟩
def WIAN_TX_STAT_LSIDE (n : Nat) : Fld := ⟨(WIAN_TX_STAT n), 3, 1⟩
def WIAN_TX_STAT_CAUSE (n : Nat) : Fld := ⟨(WIAN_TX_STAT n), 4, 4⟩

/-- One row of the register map: registers at `base + s1 * i + s2 * j`, their reset value, the bits a plain write sets, the
bits a written 1 clears, the bits a read clears, and the fields that have reserved encodings (lowest bit, width, least and
greatest legal value) under R14. -/
structure RegRow where
  base : Nat
  s1   : Nat
  n1   : Nat
  s2   : Nat
  n2   : Nat
  rst  : Nat
  rw   : Nat
  w1c  : Nat
  rc   : Nat
  chk  : List (Nat × Nat × Nat × Nat)
deriving DecidableEq, Repr

/-- Does the row hold the register at offset `off`? -/
def RegRow.hit (r : RegRow) (off : Nat) : Bool :=
  decide (r.base ≤ off) &&
    (let d := off - r.base
     let i := if r.s1 = 0 then 0 else if r.n2 ≤ 1 then d / r.s1 else min (d / r.s1) (r.n1 - 1)
     let e := d - i * r.s1
     let j := if r.s2 = 0 then 0 else e / r.s2
     decide (i < r.n1) && decide (j < r.n2) && decide (e = j * r.s2))

/-- The registers of the Crp rows, at their REG offsets. -/
def rowsCrp : List RegRow :=
  [⟨0x0, 0x0, 1, 0x0, 1, 0x7A090204, 0x0, 0x0, 0x0, []⟩,
   ⟨0x4, 0x0, 1, 0x0, 1, 0x8041011, 0x0, 0x0, 0x0, []⟩,
   ⟨0x10, 0x0, 1, 0x0, 1, 0x0, 0x0, 0x0, 0x0, []⟩,
   ⟨0x14, 0x0, 1, 0x0, 1, 0x0, 0x0, 0x10, 0x0, []⟩,
   ⟨0x18, 0x0, 1, 0x0, 1, 0x1, 0x1, 0x0, 0x0, []⟩,
   ⟨0x20, 0x0, 1, 0x0, 1, 0x0, 0xBF00, 0x0, 0x0, []⟩,
   ⟨0x24, 0x0, 1, 0x0, 1, 0x0, 0x0, 0x13F1F, 0x0, []⟩,
   ⟨0x28, 0x0, 1, 0x0, 1, 0x0, 0x0, 0x0, 0x0, []⟩,
   ⟨0x2C, 0x0, 1, 0x0, 1, 0x0, 0x0, 0x0, 0x0, []⟩]

/-- The registers of the Sec rows, at their REG offsets. -/
def rowsSec : List RegRow :=
  [⟨0x10000, 0x0, 1, 0x0, 1, 0x0, 0x0, 0x0, 0x0, []⟩,
   ⟨0x10004, 0x0, 1, 0x0, 1, 0x0, 0x3, 0x0, 0x0, []⟩,
   ⟨0x10008, 0x0, 1, 0x0, 1, 0x0, 0x0, 0x0, 0x0, []⟩,
   ⟨0x1000C, 0x0, 1, 0x0, 1, 0x0, 0x3F, 0x0, 0x0, []⟩,
   ⟨0x10010, 0x0, 1, 0x0, 1, 0x0, 0x0, 0x0, 0x0, []⟩,
   ⟨0x10014, 0x0, 1, 0x0, 1, 0x0, 0x0, 0x0, 0x0, []⟩,
   ⟨0x10018, 0x0, 1, 0x0, 1, 0x0, 0x0, 0x0, 0xFFFFFFFF, []⟩,
   ⟨0x10020, 0x0, 1, 0x0, 1, 0x0, 0x0, 0x10000, 0x0, []⟩,
   ⟨0x10024, 0x0, 1, 0x0, 1, 0x0, 0x1F, 0x0, 0x0, []⟩,
   ⟨0x10028, 0x0, 1, 0x0, 1, 0x0, 0x0, 0x0, 0x0, []⟩,
   ⟨0x1002C, 0x0, 1, 0x0, 1, 0x0, 0x0, 0x0, 0x0, []⟩,
   ⟨0x10030, 0x0, 1, 0x0, 1, 0x0, 0x0, 0x0, 0x0, []⟩]

/-- The registers of the Hlt rows, at their REG offsets. -/
def rowsHlt : List RegRow :=
  [⟨0x20000, 0x0, 1, 0x0, 1, 0xB, 0xF, 0x0, 0x0, []⟩,
   ⟨0x20004, 0x0, 1, 0x0, 1, 0x0, 0x0, 0x7, 0x0, []⟩,
   ⟨0x20010, 0x0, 1, 0x0, 1, 0x0, 0xFFF7FF7, 0x0, 0x0, [(0, 3, 0, 4)]⟩,
   ⟨0x20014, 0x0, 1, 0x0, 1, 0x0, 0x0, 0xC, 0x0, []⟩,
   ⟨0x20020, 0x0, 1, 0x0, 1, 0x0, 0x0, 0x0, 0x0, []⟩,
   ⟨0x20024, 0x0, 1, 0x0, 1, 0xFFFF, 0x0, 0x0, 0x0, []⟩,
   ⟨0x20040, 0x4, 16, 0x0, 1, 0x0, 0x0, 0x0, 0x0, []⟩,
   ⟨0x20080, 0x0, 1, 0x0, 1, 0x0, 0x7FF, 0x0, 0x0, []⟩,
   ⟨0x20084, 0x0, 1, 0x0, 1, 0x0, 0x0, 0x0, 0x0, []⟩,
   ⟨0x20090, 0x0, 1, 0x0, 1, 0x1A0100, 0x1FFFFF, 0x0, 0x0, []⟩,
   ⟨0x200A0, 0x0, 1, 0x0, 1, 0x1F401B8, 0xFFF0FFF, 0x0, 0x0, []⟩,
   ⟨0x200A4, 0x0, 1, 0x0, 1, 0x0, 0xF, 0x0, 0x0, []⟩,
   ⟨0x200A8, 0x0, 1, 0x0, 1, 0x0, 0x0, 0x0, 0xFFF0000, []⟩,
   ⟨0x200AC, 0x0, 1, 0x0, 1, 0x0, 0x0, 0xFFFFFFFF, 0x0, []⟩,
   ⟨0x200B0, 0x0, 1, 0x0, 1, 0x10, 0xFF, 0x0, 0x0, []⟩,
   ⟨0x200C0, 0x0, 1, 0x0, 1, 0x0, 0x0, 0x100, 0x0, []⟩,
   ⟨0x200C4, 0x0, 1, 0x0, 1, 0x0, 0x0, 0x0, 0x0, []⟩,
   ⟨0x200D0, 0x4, 4, 0x0, 1, 0x0, 0x0, 0x0, 0x0, []⟩,
   ⟨0x200E0, 0x0, 1, 0x0, 1, 0x0, 0x1FFFF, 0x0, 0x0, []⟩,
   ⟨0x200E4, 0x0, 1, 0x0, 1, 0x0, 0xFFFFFFFF, 0x0, 0x0, []⟩,
   ⟨0x200E8, 0x0, 1, 0x0, 1, 0x0, 0x0, 0x0, 0x0, []⟩]

/-- The registers of the Tbu rows, at their REG offsets. -/
def rowsTbu : List RegRow :=
  [⟨0x30000, 0x0, 1, 0x0, 1, 0x0, 0x0, 0x0, 0x0, []⟩,
   ⟨0x30004, 0x0, 1, 0x0, 1, 0x0, 0x0, 0x0, 0x0, []⟩,
   ⟨0x30008, 0x0, 1, 0x0, 1, 0x0, 0xFFFFFFFF, 0x0, 0x0, []⟩,
   ⟨0x3000C, 0x0, 1, 0x0, 1, 0x0, 0xFFFFFFFF, 0x0, 0x0, []⟩,
   ⟨0x30010, 0x0, 1, 0x0, 1, 0x0, 0x0, 0x2, 0x0, []⟩,
   ⟨0x30020, 0x0, 1, 0x0, 1, 0x0, 0x1, 0x0, 0x0, []⟩,
   ⟨0x30024, 0x0, 1, 0x0, 1, 0xF4240, 0x7FFFFFF, 0x0, 0x0, []⟩,
   ⟨0x30028, 0x0, 1, 0x0, 1, 0x1F40, 0xFFFFF, 0x0, 0x0, []⟩,
   ⟨0x3002C, 0x0, 1, 0x0, 1, 0x0, 0x0, 0x0, 0xFFFF0000, []⟩,
   ⟨0x30030, 0x0, 1, 0x0, 1, 0xF4240, 0x0, 0x0, 0x0, []⟩,
   ⟨0x30034, 0x0, 1, 0x0, 1, 0x0, 0x0, 0x0, 0x0, []⟩,
   ⟨0x30040, 0x0, 1, 0x0, 1, 0x0, 0x13F1F, 0x2000000, 0x0, []⟩,
   ⟨0x30044, 0x0, 1, 0x0, 1, 0x0, 0xFFFFFFFF, 0x0, 0x0, []⟩,
   ⟨0x30048, 0x0, 1, 0x0, 1, 0x0, 0xFFFFFFFF, 0x0, 0x0, []⟩,
   ⟨0x3004C, 0x0, 1, 0x0, 1, 0x0, 0xFFFFFFFF, 0x0, 0x0, []⟩,
   ⟨0x30100, 0x20, 32, 0x0, 1, 0x0, 0xFFFFFFFF, 0x0, 0x0, []⟩,
   ⟨0x30104, 0x20, 32, 0x0, 1, 0x0, 0xFFFFFFFF, 0x0, 0x0, []⟩,
   ⟨0x30108, 0x20, 32, 0x0, 1, 0x0, 0xFFFFFFFF, 0x0, 0x0, []⟩,
   ⟨0x3010C, 0x20, 32, 0x0, 1, 0x0, 0xF7F, 0x0, 0x0, []⟩,
   ⟨0x30110, 0x20, 32, 0x0, 1, 0x0, 0x0, 0x3, 0xFFFF0000, []⟩,
   ⟨0x30600, 0x20, 16, 0x0, 1, 0x0, 0x0, 0x0, 0x0, []⟩,
   ⟨0x30604, 0x20, 16, 0x0, 1, 0x0, 0x0, 0x0, 0x0, []⟩,
   ⟨0x30608, 0x20, 16, 0x0, 1, 0x0, 0x0, 0x0, 0x0, []⟩,
   ⟨0x3060C, 0x20, 16, 0x0, 1, 0x0, 0x0, 0x0, 0x0, []⟩,
   ⟨0x30610, 0x20, 16, 0x0, 1, 0x0, 0x0, 0x0, 0x0, []⟩,
   ⟨0x30614, 0x20, 16, 0x0, 1, 0x0, 0xFF07, 0x0, 0x0, []⟩,
   ⟨0x30618, 0x20, 16, 0x0, 1, 0x0, 0x0, 0x18, 0x0, []⟩]

/-- The registers of the Evc rows, at their REG offsets. -/
def rowsEvc : List RegRow :=
  [⟨0x40000, 0x0, 1, 0x0, 1, 0x1, 0x1, 0x0, 0x0, []⟩,
   ⟨0x40004, 0x0, 1, 0x0, 1, 0x0, 0x0, 0x3, 0x0, []⟩,
   ⟨0x40010, 0x0, 1, 0x0, 1, 0x0, 0x1FF, 0x0, 0x0, []⟩,
   ⟨0x40014, 0x0, 1, 0x0, 1, 0x0, 0xFFFF3FF, 0x0, 0x0, [(4, 6, 0, 33)]⟩,
   ⟨0x40018, 0x0, 1, 0x0, 1, 0x0, 0x0, 0x0, 0x0, []⟩,
   ⟨0x40020, 0x0, 1, 0x0, 1, 0x0, 0x0, 0x0, 0x0, []⟩,
   ⟨0x40024, 0x0, 1, 0x0, 1, 0x0, 0x0, 0x0, 0x0, []⟩,
   ⟨0x40028, 0x0, 1, 0x0, 1, 0x0, 0x0, 0x0, 0x0, []⟩,
   ⟨0x4002C, 0x0, 1, 0x0, 1, 0x0, 0x0, 0x0, 0x0, []⟩,
   ⟨0x40040, 0x4, 16, 0x0, 1, 0x0, 0x0, 0x0, 0x0, []⟩]

/-- The registers of the EvcT rows, at their REG offsets. -/
def rowsEvcT : List RegRow :=
  [⟨0x50000, 0x400, 34, 0x0, 1, 0x8000, 0x0, 0x0, 0x0, []⟩,
   ⟨0x50004, 0x400, 34, 0x0, 1, 0x0, 0x0, 0x0, 0x0, []⟩,
   ⟨0x50008, 0x400, 34, 0x0, 1, 0x0, 0x0, 0x0, 0x0, []⟩,
   ⟨0x5000C, 0x400, 34, 0x0, 1, 0x0, 0x0, 0x0, 0x0, []⟩,
   ⟨0x50010, 0x400, 34, 0x0, 1, 0x0, 0x0, 0x0, 0x0, []⟩,
   ⟨0x50014, 0x400, 34, 0x0, 1, 0x0, 0x0, 0x0, 0x0, []⟩,
   ⟨0x50018, 0x400, 34, 0x0, 1, 0x0, 0x0, 0x0, 0x0, []⟩,
   ⟨0x5001C, 0x400, 32, 0x0, 1, 0x0, 0x83FF, 0x0, 0x0, []⟩]

/-- The registers of the Pmu rows, at their REG offsets. -/
def rowsPmu : List RegRow :=
  [⟨0x60000, 0x0, 1, 0x0, 1, 0x1, 0x7, 0x0, 0x0, []⟩,
   ⟨0x60004, 0x0, 1, 0x0, 1, 0x0, 0x0, 0x1, 0x0, []⟩,
   ⟨0x60010, 0x4, 8, 0x0, 1, 0x0, 0x0, 0xFFFFFFFF, 0x0, []⟩,
   ⟨0x60040, 0x0, 1, 0x0, 1, 0x0, 0xFFFFFFFF, 0x0, 0x0, []⟩,
   ⟨0x60044, 0x0, 1, 0x0, 1, 0x0, 0xFF, 0x0, 0x0, []⟩,
   ⟨0x60048, 0x0, 1, 0x0, 1, 0x0, 0x1F, 0x0, 0x0, [(0, 5, 1, 16)]⟩,
   ⟨0x6004C, 0x0, 1, 0x0, 1, 0x0, 0xFFFF0000, 0x0, 0x0, []⟩,
   ⟨0x60050, 0x0, 1, 0x0, 1, 0x0, 0x0, 0x0, 0xFFFFFFFF, []⟩,
   ⟨0x60058, 0x0, 1, 0x0, 1, 0x0, 0x0, 0x0, 0x0, []⟩,
   ⟨0x6005C, 0x0, 1, 0x0, 1, 0x0, 0x0, 0x0, 0x0, []⟩,
   ⟨0x60060, 0x0, 1, 0x0, 1, 0x0, 0x0, 0x0, 0x0, []⟩,
   ⟨0x60064, 0x0, 1, 0x0, 1, 0x0, 0x0, 0x0, 0x0, []⟩,
   ⟨0x60068, 0x0, 1, 0x0, 1, 0x0, 0x0, 0x0, 0x0, []⟩,
   ⟨0x60070, 0x0, 1, 0x0, 1, 0x14, 0x1F, 0x0, 0x0, [(0, 5, 10, 24)]⟩,
   ⟨0x60100, 0x8, 20, 0x0, 1, 0x0, 0x0, 0x0, 0x0, []⟩,
   ⟨0x60104, 0x8, 20, 0x0, 1, 0x0, 0x0, 0x0, 0xFFFFFFFF, []⟩,
   ⟨0x60400, 0x4, 256, 0x0, 1, 0x0, 0xFF1FFFFF, 0x0, 0x0, []⟩,
   ⟨0x60800, 0x4, 256, 0x0, 1, 0x0, 0xFFFFFFFF, 0x0, 0x0, []⟩,
   ⟨0x60C00, 0x4, 256, 0x0, 1, 0x0, 0x0, 0x0, 0x0, []⟩]

/-- The registers of the Dbg rows, at their REG offsets. -/
def rowsDbg : List RegRow :=
  [⟨0x70000, 0x0, 1, 0x0, 1, 0x0, 0x7, 0x0, 0x0, []⟩,
   ⟨0x70004, 0x0, 1, 0x0, 1, 0x0, 0x0, 0x0, 0x0, []⟩,
   ⟨0x70010, 0x0, 1, 0x0, 1, 0x0, 0x3F, 0x0, 0x0, [(0, 6, 0, 33)]⟩,
   ⟨0x70014, 0x0, 1, 0x0, 1, 0x0, 0x300, 0x0, 0x0, []⟩,
   ⟨0x70018, 0x0, 1, 0x0, 1, 0x0, 0x0, 0x0, 0x0, []⟩,
   ⟨0x7001C, 0x0, 1, 0x0, 1, 0x0, 0x0, 0x0, 0x0, []⟩,
   ⟨0x70020, 0x4, 4, 0x0, 1, 0x0, 0x803FFFFF, 0x0, 0x0, []⟩,
   ⟨0x70040, 0x20, 2, 0x0, 1, 0x0, 0xFFFFFFFF, 0x0, 0x0, []⟩,
   ⟨0x70044, 0x20, 2, 0x0, 1, 0x0, 0xFF, 0x0, 0x0, []⟩,
   ⟨0x70048, 0x20, 2, 0x0, 1, 0x0, 0xFFFFFFFF, 0x0, 0x0, []⟩,
   ⟨0x7004C, 0x20, 2, 0x0, 1, 0x0, 0xFF, 0x0, 0x0, []⟩,
   ⟨0x70050, 0x20, 2, 0x0, 1, 0x0, 0x7, 0x0, 0x0, []⟩,
   ⟨0x70080, 0x0, 1, 0x0, 1, 0x0, 0xFFFF, 0x0, 0x0, []⟩,
   ⟨0x70084, 0x0, 1, 0x0, 1, 0x0, 0xFFFF, 0x0, 0x0, []⟩,
   ⟨0x70088, 0x0, 1, 0x0, 1, 0x0, 0xFFFFFFFF, 0x0, 0x0, []⟩,
   ⟨0x7008C, 0x0, 1, 0x0, 1, 0x0, 0x7, 0x0, 0x0, []⟩,
   ⟨0x700A0, 0x0, 1, 0x0, 1, 0x0, 0xFFFFFFFF, 0x0, 0x0, []⟩,
   ⟨0x700A4, 0x0, 1, 0x0, 1, 0x0, 0xFF, 0x0, 0x0, []⟩,
   ⟨0x700A8, 0x0, 1, 0x0, 1, 0x0, 0xFFFFFFFF, 0x0, 0x0, []⟩,
   ⟨0x700AC, 0x0, 1, 0x0, 1, 0x0, 0x3F0306, 0x0, 0x0, []⟩,
   ⟨0x700B0, 0x0, 1, 0x0, 1, 0x0, 0x0, 0x6, 0x0, []⟩,
   ⟨0x700C0, 0x0, 1, 0x0, 1, 0x0, 0x3F, 0x0, 0x0, []⟩,
   ⟨0x700C4, 0x0, 1, 0x0, 1, 0x0, 0xFFFFFFFF, 0x0, 0x0, []⟩,
   ⟨0x70100, 0x10, 4, 0x0, 1, 0x0, 0x1FF, 0x0, 0x0, []⟩,
   ⟨0x70104, 0x10, 4, 0x0, 1, 0x0, 0x1FF, 0x0, 0x0, []⟩,
   ⟨0x70108, 0x10, 4, 0x0, 1, 0x0, 0x0, 0x30000, 0x0, []⟩,
   ⟨0x70E00, 0x4, 12, 0x0, 1, 0x0, 0x0, 0x0, 0x0, []⟩,
   ⟨0x70E30, 0x4, 48, 0x0, 1, 0x0, 0x0, 0x0, 0x0, []⟩,
   ⟨0x70EF0, 0x0, 1, 0x0, 1, 0x0, 0x100, 0x0, 0x0, []⟩,
   ⟨0x70EF4, 0x0, 1, 0x0, 1, 0x0, 0x0, 0x0, 0x0, []⟩]

/-- The registers of the Epc rows, at their REG offsets. -/
def rowsEpc : List RegRow :=
  [⟨0x80000, 0x0, 1, 0x0, 1, 0x200001, 0x1FF0001, 0x0, 0x0, []⟩,
   ⟨0x80004, 0x0, 1, 0x0, 1, 0x0, 0x0, 0xFC, 0x0, []⟩,
   ⟨0x80008, 0x0, 1, 0x0, 1, 0x0, 0x3F, 0x0, 0x0, []⟩,
   ⟨0x8000C, 0x0, 1, 0x0, 1, 0x0, 0x0, 0x0, 0x0, []⟩,
   ⟨0x80010, 0x0, 1, 0x0, 1, 0x1, 0x0, 0x0, 0x0, []⟩,
   ⟨0x80014, 0x0, 1, 0x0, 1, 0x0, 0x0, 0x0, 0x0, []⟩,
   ⟨0x80018, 0x0, 1, 0x0, 1, 0x0, 0x0, 0x0, 0x0, []⟩,
   ⟨0x80020, 0x0, 1, 0x0, 1, 0x0, 0x7FF, 0x0, 0x0, [(4, 7, 0, 126)]⟩,
   ⟨0x80024, 0x0, 1, 0x0, 1, 0x200, 0x0, 0x0, 0x0, []⟩,
   ⟨0x80028, 0x0, 1, 0x0, 1, 0x0, 0x0, 0x0, 0x0, []⟩,
   ⟨0x80030, 0x0, 1, 0x0, 1, 0x0, 0x7FF, 0x0, 0x0, []⟩,
   ⟨0x80034, 0x0, 1, 0x0, 1, 0x3F, 0x3F, 0x0, 0x0, []⟩,
   ⟨0x80040, 0x8, 4, 0x0, 1, 0x0, 0x3F, 0x400, 0x0, []⟩,
   ⟨0x80044, 0x8, 4, 0x0, 1, 0x0, 0x0, 0x0, 0x0, []⟩,
   ⟨0x80060, 0x0, 1, 0x0, 1, 0x0, 0x0, 0x0, 0x0, []⟩,
   ⟨0x80064, 0x0, 1, 0x0, 1, 0x0, 0x0, 0x0, 0x0, []⟩,
   ⟨0x80068, 0x0, 1, 0x0, 1, 0x0, 0x0, 0x0, 0x0, []⟩,
   ⟨0x8006C, 0x0, 1, 0x0, 1, 0x0, 0x0, 0x0, 0x0, []⟩,
   ⟨0x80070, 0x8, 4, 0x0, 1, 0x0, 0x0, 0x0, 0x0, []⟩,
   ⟨0x80074, 0x8, 4, 0x0, 1, 0x0, 0x0, 0x0, 0x0, []⟩]

/-- The registers of the Smem rows, at their REG offsets. -/
def rowsSmem : List RegRow :=
  [⟨0x90000, 0x0, 1, 0x0, 1, 0x1001, 0x1F01, 0x0, 0x0, [(8, 5, 10, 24)]⟩,
   ⟨0x90004, 0x0, 1, 0x0, 1, 0x2266354, 0xF777777, 0x0, 0x0, [(24, 4, 1, 8)]⟩,
   ⟨0x90008, 0x0, 1, 0x0, 1, 0x0, 0x0, 0xF, 0x0, []⟩,
   ⟨0x9000C, 0x0, 1, 0x0, 1, 0x0, 0x0, 0x0, 0x0, []⟩,
   ⟨0x90010, 0x0, 1, 0x0, 1, 0x0, 0x7FF, 0x0, 0x0, []⟩,
   ⟨0x90014, 0x0, 1, 0x0, 1, 0x0, 0x0, 0x0, 0xFFFF, []⟩,
   ⟨0x90018, 0x0, 1, 0x0, 1, 0x107F0000, 0x0, 0x0, 0x0, []⟩]

/-- The registers of the Bmp rows, at their REG offsets. -/
def rowsBmp : List RegRow :=
  [⟨0xA0000, 0x1000, 8, 0x0, 1, 0xA00, 0xF01, 0x0, 0x0, [(8, 4, 1, 15)]⟩,
   ⟨0xA0004, 0x1000, 8, 0x0, 1, 0x8, 0x0, 0xE00, 0x0, []⟩,
   ⟨0xA0008, 0x1000, 8, 0x0, 1, 0x0, 0x0, 0x0, 0x0, []⟩,
   ⟨0xA000C, 0x1000, 8, 0x0, 1, 0x0, 0x0, 0x0, 0x0, []⟩,
   ⟨0xA0010, 0x1000, 8, 0x0, 1, 0x0, 0x0, 0x0, 0x0, []⟩,
   ⟨0xA0014, 0x1000, 8, 0x0, 1, 0x0, 0xFFFFFFFF, 0x0, 0x0, []⟩,
   ⟨0xA0018, 0x1000, 8, 0x0, 1, 0x0, 0xFF, 0x0, 0x0, []⟩,
   ⟨0xA001C, 0x1000, 8, 0x0, 1, 0x0, 0xFFFFFFFF, 0x0, 0x0, []⟩,
   ⟨0xA0020, 0x1000, 8, 0x0, 1, 0x0, 0xFF, 0x0, 0x0, []⟩,
   ⟨0xA0024, 0x1000, 8, 0x0, 1, 0x0, 0xFFFFFF, 0x0, 0x0, []⟩,
   ⟨0xA0028, 0x1000, 8, 0x0, 1, 0x0, 0x33F, 0x0, 0x0, [(8, 2, 0, 3)]⟩,
   ⟨0xA0100, 0x0, 1, 0x0, 1, 0xFF03, 0xFF03, 0x0, 0x0, []⟩]

/-- The registers of the Moth rows, at their REG offsets. -/
def rowsMoth : List RegRow :=
  [⟨0xB0040, 0x0, 1, 0x0, 1, 0x4E, 0xFFFFFFFF, 0x0, 0x0, []⟩,
   ⟨0xB0044, 0x0, 1, 0x0, 1, 0x0, 0x0, 0x0, 0x0, []⟩,
   ⟨0xB0048, 0x0, 1, 0x0, 1, 0x1, 0x3, 0x0, 0x0, []⟩,
   ⟨0xB004C, 0x0, 1, 0x0, 1, 0x0, 0x0, 0x100, 0x0, []⟩,
   ⟨0xB0050, 0x0, 1, 0x0, 1, 0x0, 0xFFFFFFFF, 0x0, 0x0, []⟩,
   ⟨0xB0054, 0x0, 1, 0x0, 1, 0x0, 0xFFFFFFFF, 0x0, 0x0, []⟩,
   ⟨0xB0060, 0x0, 1, 0x0, 1, 0x0, 0x0, 0x0, 0x0, []⟩,
   ⟨0xB0064, 0x0, 1, 0x0, 1, 0x0, 0x0, 0x0, 0x0, []⟩,
   ⟨0xB0080, 0x0, 1, 0x0, 1, 0x1, 0x7, 0x0, 0x0, []⟩,
   ⟨0xB0084, 0x0, 1, 0x0, 1, 0x20001000, 0xFFFFFFFF, 0x0, 0x0, [(0, 16, 1, 65535)]⟩,
   ⟨0xB0090, 0x0, 1, 0x0, 1, 0x0, 0x0, 0x0, 0x0, []⟩,
   ⟨0xB0094, 0x0, 1, 0x0, 1, 0x10000, 0x0, 0x0, 0x0, []⟩,
   ⟨0xB0098, 0x0, 1, 0x0, 1, 0x0, 0x0, 0x7, 0x0, []⟩,
   ⟨0xB00A0, 0x0, 1, 0x0, 1, 0x22202AB, 0xFFF0FFF, 0x0, 0x0, []⟩,
   ⟨0xB00A4, 0x0, 1, 0x0, 1, 0xC80003, 0xFFF0003, 0x0, 0x0, []⟩,
   ⟨0xB00A8, 0x0, 1, 0x0, 1, 0x0, 0x0, 0x0, 0xFFF0000, []⟩,
   ⟨0xB00AC, 0x0, 1, 0x0, 1, 0x0, 0x0, 0x7, 0x0, []⟩]

/-- The registers of the Sup rows, at their REG offsets. -/
def rowsSup : List RegRow :=
  [⟨0x100000, 0x0, 1, 0x0, 1, 0x0, 0x3, 0x0, 0x0, []⟩,
   ⟨0x100040, 0x0, 1, 0x0, 1, 0x0, 0xFFFFFFFF, 0x0, 0x0, []⟩,
   ⟨0x100044, 0x0, 1, 0x0, 1, 0x0, 0xFF, 0x0, 0x0, []⟩,
   ⟨0x100048, 0x0, 1, 0x0, 1, 0x0, 0xFFFFFFFF, 0x0, 0x0, []⟩,
   ⟨0x10004C, 0x0, 1, 0x0, 1, 0x0, 0xFFFFFFFF, 0x0, 0x0, []⟩,
   ⟨0x100050, 0x0, 1, 0x0, 1, 0x0, 0x3FFF, 0x0, 0x0, []⟩,
   ⟨0x100054, 0x0, 1, 0x0, 1, 0x0, 0x1FF7FFF, 0x0, 0x0, []⟩,
   ⟨0x100058, 0x0, 1, 0x0, 1, 0x0, 0x1E, 0x0, 0x0, []⟩,
   ⟨0x10005C, 0x0, 1, 0x0, 1, 0x0, 0x0, 0x6, 0x0, []⟩,
   ⟨0x100100, 0x0, 1, 0x0, 1, 0x710, 0x73F, 0x0, 0x0, [(0, 6, 4, 63)]⟩,
   ⟨0x100104, 0x0, 1, 0x0, 1, 0x0, 0x0, 0xE, 0x0, []⟩,
   ⟨0x100108, 0x0, 1, 0x0, 1, 0x0, 0x0, 0x0, 0x0, []⟩,
   ⟨0x10010C, 0x0, 1, 0x0, 1, 0x0, 0x8003FFFF, 0x0, 0x0, []⟩,
   ⟨0x100110, 0x4, 8, 0x0, 1, 0x0, 0xFFFFFFFF, 0x0, 0x0, []⟩,
   ⟨0x100130, 0x0, 1, 0x0, 1, 0x0, 0x0, 0x0, 0x0, []⟩]

/-- The registers of the Seq rows, relative to a core page. -/
def rowsSeq : List RegRow :=
  [⟨0x0, 0x0, 1, 0x0, 1, 0x0, 0x3, 0x0, 0x0, []⟩,
   ⟨0x4, 0x0, 1, 0x0, 1, 0x0, 0x0, 0x7, 0xFFFF0000, []⟩,
   ⟨0x8, 0x0, 1, 0x0, 1, 0x0, 0x0, 0x0, 0xFFFFFFFF, []⟩,
   ⟨0x20, 0x0, 1, 0x0, 1, 0x100, 0x7FF, 0x0, 0x0, [(0, 11, 0, 1024)]⟩,
   ⟨0x24, 0x0, 1, 0x0, 1, 0x0, 0x0, 0x70000, 0x0, []⟩,
   ⟨0x28, 0x0, 1, 0x0, 1, 0x0, 0x0, 0x0, 0xFFFFFFFF, []⟩,
   ⟨0x30, 0x0, 1, 0x0, 1, 0x0, 0x3F1F, 0x0, 0x0, []⟩,
   ⟨0x34, 0x0, 1, 0x0, 1, 0x0, 0xFFFFFFFF, 0x0, 0x0, []⟩,
   ⟨0x60, 0x0, 1, 0x0, 1, 0x210, 0xFFF, 0x0, 0x0, [(8, 4, 1, 8)]⟩,
   ⟨0x64, 0x0, 1, 0x0, 1, 0x400, 0x0, 0x30000000, 0x0, []⟩,
   ⟨0x68, 0x0, 1, 0x0, 1, 0x0, 0x0, 0x0, 0x0, []⟩,
   ⟨0x6C, 0x0, 1, 0x0, 1, 0x0, 0x3F01FF, 0x0, 0x0, []⟩,
   ⟨0x70, 0x0, 1, 0x0, 1, 0x0, 0xFFFFFFFF, 0x0, 0x0, []⟩,
   ⟨0x74, 0x0, 1, 0x0, 1, 0x0, 0x80FFFFFF, 0x0, 0x0, []⟩,
   ⟨0x80, 0x4, 16, 0x0, 1, 0x0, 0x0, 0x0, 0x0, []⟩]

/-- The registers of the Pod rows, relative to a POD page. -/
def rowsPod : List RegRow :=
  [⟨0x0, 0x0, 1, 0x0, 1, 0x0, 0x0, 0x0, 0x0, []⟩,
   ⟨0x4, 0x0, 1, 0x0, 1, 0x0, 0x0, 0x0, 0x0, []⟩,
   ⟨0x8, 0x0, 1, 0x0, 1, 0x0, 0x0, 0x0, 0x0, []⟩,
   ⟨0xC, 0x0, 1, 0x0, 1, 0x0, 0x0, 0x0, 0x0, []⟩,
   ⟨0x10, 0x0, 1, 0x0, 1, 0x0, 0x0, 0x0, 0x0, []⟩,
   ⟨0x14, 0x0, 1, 0x0, 1, 0x0, 0x0, 0x0, 0x0, []⟩,
   ⟨0x18, 0x0, 1, 0x0, 1, 0x0, 0x0, 0x0, 0x0, []⟩,
   ⟨0x1C, 0x0, 1, 0x0, 1, 0x0, 0x0, 0x0, 0x0, []⟩,
   ⟨0xF000, 0x0, 1, 0x0, 1, 0x23, 0xF3, 0x0, 0x0, [(4, 4, 1, 8)]⟩,
   ⟨0xF004, 0x0, 1, 0x0, 1, 0x0, 0x0, 0x0, 0x0, []⟩,
   ⟨0xF008, 0x0, 1, 0x0, 1, 0x0, 0x0, 0x0, 0xFFFFFF, []⟩,
   ⟨0xF00C, 0x0, 1, 0x0, 1, 0x0, 0x1F, 0x0, 0x0, []⟩,
   ⟨0xF010, 0x0, 1, 0x0, 1, 0x0, 0x0, 0x0, 0x0, []⟩]

/-- The registers of the Hif rows, at their REG offsets. -/
def rowsHif : List RegRow :=
  [⟨0xC00000, 0x0, 1, 0x0, 1, 0x0, 0x1, 0x0, 0x0, []⟩,
   ⟨0xC00004, 0x0, 1, 0x0, 1, 0x0, 0x0, 0x7, 0x0, []⟩,
   ⟨0xC00008, 0x0, 1, 0x0, 1, 0x0, 0xF7FFFFF, 0x0, 0x0, [(24, 4, 2, 12)]⟩,
   ⟨0xC0000C, 0x0, 1, 0x0, 1, 0x0, 0xFFF, 0x0, 0x0, []⟩,
   ⟨0xC00010, 0x4, 8, 0x0, 1, 0x0, 0xFFFFFFFF, 0x0, 0x0, []⟩,
   ⟨0xC00030, 0x0, 1, 0x0, 1, 0x0, 0x13F3F, 0x0, 0x0, []⟩,
   ⟨0xC00040, 0x8, 4, 0x0, 1, 0xFFFFFFFF, 0xFFFFFFFF, 0x0, 0x0, []⟩,
   ⟨0xC00044, 0x8, 4, 0x0, 1, 0xFFFF, 0xFFFF, 0x0, 0x0, []⟩,
   ⟨0xC00100, 0x40, 64, 0x0, 1, 0x0, 0xFFFFFFFF, 0x0, 0x0, []⟩,
   ⟨0xC00104, 0x40, 64, 0x0, 1, 0x0, 0xFFFFFFFF, 0x0, 0x0, []⟩,
   ⟨0xC00108, 0x40, 64, 0x0, 1, 0x0, 0xFFFFFFFF, 0x0, 0x0, []⟩,
   ⟨0xC0010C, 0x40, 64, 0x0, 1, 0x0, 0xFFFFFFFF, 0x0, 0x0, []⟩,
   ⟨0xC00110, 0x40, 64, 0x0, 1, 0x0, 0xFFFFFFFF, 0x0, 0x0, []⟩,
   ⟨0xC00114, 0x40, 64, 0x0, 1, 0x0, 0xFFFFFFFF, 0x0, 0x0, []⟩,
   ⟨0xC00118, 0x40, 64, 0x0, 1, 0x0, 0xFFFFFFFF, 0x0, 0x0, []⟩,
   ⟨0xC0011C, 0x40, 64, 0x0, 1, 0x0, 0x7FFFF, 0x0, 0x0, [(1, 4, 2, 12), (5, 4, 2, 12), (13, 2, 0, 2)]⟩,
   ⟨0xC00120, 0x40, 64, 0x0, 1, 0x0, 0x0, 0xF, 0x0, []⟩,
   ⟨0xC00124, 0x40, 64, 0x0, 1, 0x0, 0x0, 0x0, 0x0, []⟩,
   ⟨0xC00128, 0x40, 64, 0x0, 1, 0x0, 0x1FFF003F, 0x0, 0x0, []⟩]

/-- The registers of the Db rows, at their REG offsets. -/
def rowsDb : List RegRow :=
  [⟨0xC10000, 0x1000, 64, 0x0, 1, 0x0, 0xFFF, 0x0, 0x0, []⟩,
   ⟨0xC10004, 0x1000, 64, 0x0, 1, 0x0, 0xFFF, 0x0, 0x0, []⟩,
   ⟨0xC10008, 0x1000, 64, 0x0, 1, 0x0, 0x0, 0x1, 0x0, []⟩,
   ⟨0xC10040, 0x1000, 64, 0x4, 16, 0x0, 0x0, 0x0, 0x0, []⟩]

/-- The registers of the Wian rows, at their REG offsets. -/
def rowsWian : List RegRow :=
  [⟨0x1000000, 0x0, 1, 0x0, 1, 0x643F0C, 0xFF3F1D, 0x0, 0x0, [(16, 8, 10, 255)]⟩,
   ⟨0x1000004, 0x0, 1, 0x0, 1, 0x0, 0x0, 0x1C00, 0x0, []⟩,
   ⟨0x1000008, 0x0, 1, 0x0, 1, 0x0, 0x0, 0x0, 0x0, []⟩,
   ⟨0x100000C, 0x0, 1, 0x0, 1, 0x0, 0x0, 0x0, 0x0, []⟩,
   ⟨0x1000010, 0x0, 1, 0x0, 1, 0x0, 0x0, 0x0, 0x0, []⟩,
   ⟨0x1000018, 0x0, 1, 0x0, 1, 0x0, 0x0, 0x0, 0x0, []⟩,
   ⟨0x100001C, 0x0, 1, 0x0, 1, 0x0, 0x0, 0x0, 0x0, []⟩,
   ⟨0x1000020, 0x0, 1, 0x0, 1, 0x0, 0xFFF, 0x0, 0x0, []⟩,
   ⟨0x1000024, 0x0, 1, 0x0, 1, 0xF, 0xF, 0x0, 0x0, []⟩,
   ⟨0x1000028, 0x0, 1, 0x0, 1, 0x3E80064, 0xFFFF00FF, 0x0, 0x0, [(0, 4, 0, 10), (4, 4, 4, 12)]⟩,
   ⟨0x100002C, 0x0, 1, 0x0, 1, 0x0, 0x0, 0x0, 0x0, []⟩,
   ⟨0x1000100, 0x40, 4, 0x0, 1, 0x1, 0x1, 0x0, 0x0, []⟩,
   ⟨0x1000104, 0x40, 4, 0x0, 1, 0x0, 0x0, 0x0, 0x0, []⟩,
   ⟨0x1000108, 0x40, 4, 0x0, 1, 0x0, 0x0, 0x0, 0x0, []⟩,
   ⟨0x100010C, 0x40, 4, 0x0, 1, 0x0, 0x0, 0x0, 0x0, []⟩,
   ⟨0x1000110, 0x40, 4, 0x0, 1, 0x0, 0xFFFFFFFF, 0x0, 0x0, []⟩,
   ⟨0x1000114, 0x40, 4, 0x0, 1, 0x31CE0, 0x3FFFF, 0x0, 0x0, []⟩,
   ⟨0x1000118, 0x40, 4, 0x0, 1, 0x0, 0x0, 0x0, 0x0, []⟩,
   ⟨0x100011C, 0x40, 4, 0x0, 1, 0x0, 0x0, 0x0, 0x0, []⟩,
   ⟨0x1000120, 0x40, 4, 0x0, 1, 0x0, 0x0, 0x0, 0x0, []⟩,
   ⟨0x1000124, 0x40, 4, 0x0, 1, 0x0, 0x0, 0x0, 0x0, []⟩,
   ⟨0x1000128, 0x40, 4, 0x0, 1, 0x0, 0x0, 0x0, 0xFFFFFFFF, []⟩,
   ⟨0x1000200, 0x10, 8, 0x0, 1, 0x0, 0x7FFFFF, 0x0, 0x0, []⟩,
   ⟨0x1000204, 0x10, 8, 0x0, 1, 0x0, 0x7FFFFF, 0x0, 0x0, []⟩,
   ⟨0x1000208, 0x10, 8, 0x0, 1, 0x0, 0xFFF0FFF, 0x0, 0x0, []⟩,
   ⟨0x100020C, 0x10, 8, 0x0, 1, 0x0, 0x3, 0x0, 0x0, []⟩,
   ⟨0x1000300, 0x20, 4, 0x0, 1, 0x0, 0x7FFFFF, 0x0, 0x0, []⟩,
   ⟨0x1000304, 0x20, 4, 0x0, 1, 0x0, 0x7FFFFF, 0x0, 0x0, []⟩,
   ⟨0x1000308, 0x20, 4, 0x0, 1, 0x0, 0xFFFFFFFF, 0x0, 0x0, []⟩,
   ⟨0x100030C, 0x20, 4, 0x0, 1, 0x1000000, 0xFF0133F, 0x0, 0x0, [(8, 2, 0, 2), (20, 8, 1, 255)]⟩,
   ⟨0x1000310, 0x20, 4, 0x0, 1, 0x0, 0x0, 0x6, 0x0, []⟩]

/-- The rows that serve a 64 KiB page of the REG region, and the base those rows count from. -/
def rowsOfPage (p : Nat) : List RegRow × Nat :=
  if p = 0x00 then (rowsCrp, 0) else if p = 0x01 then (rowsSec, 0) else if p = 0x02 then (rowsHlt, 0)
  else if p = 0x03 then (rowsTbu, 0) else if p = 0x04 then (rowsEvc, 0) else if p = 0x05 then (rowsEvcT, 0)
  else if p = 0x06 then (rowsPmu, 0) else if p = 0x07 then (rowsDbg, 0) else if p = 0x08 then (rowsEpc, 0)
  else if p = 0x09 then (rowsSmem, 0) else if p = 0x0A then (rowsBmp, 0)
  else if p = 0x0B then (rowsMoth, 0)
  else if p = 0x10 then (rowsSup, 0)
  else if 0x11 ≤ p ∧ p ≤ 0x34 then (rowsSeq, p * 0x10000)
  else if 0x40 ≤ p ∧ p ≤ 0x50 then (rowsPod, p * 0x10000)
  else if p = 0xC0 then (rowsHif, 0) else if 0xC1 ≤ p ∧ p ≤ 0xC4 then (rowsDb, 0)
  else if p = 0x100 then (rowsWian, 0)
  else ([], 0)

/-- The core registers that the supervisor page and the MOTH block repeat: `SUP_CORE_CFG`, `SUP_DET_STAT`, `SUP_DET_CNT`,
`SUP_EXC_CFG` to `SUP_SVW_DATA`, and `MOTH_EXC_CFG` to `MOTH_SVW_DATA`. -/
def rowsShared (p : Nat) : List RegRow :=
  if p = 0x10 then rowsSeq.filter (fun r => decide (r.base ≤ 0x34))
  else if p = 0x0B then rowsSeq.filter (fun r => decide (0x20 ≤ r.base ∧ r.base ≤ 0x34))
  else []

/-- The row of the register at canonical offset `off`, if one is assigned there. -/
def regRow (off : Nat) : Option RegRow :=
  let p := off / 0x10000
  let (rows, base) := rowsOfPage p
  match rows.find? (fun r => r.hit (off - base)) with
  | some r => some r
  | none => (rowsShared p).find? (fun r => r.hit (off % 0x10000))

/-- Registers that appear at a second offset name the first: the allocator registers of every POD page, the CRP registers,
the page of target 33 and virtual terminal 3 in the MOTH block (chapters 04, 13, 16, 19). -/
def regAlias (off : Nat) : Nat :=
  let p := off / 0x10000
  let o := off % 0x10000
  if 0x40 ≤ p ∧ p ≤ 0x50 ∧ 0xF000 ≤ o then 0x400000 + o
  else if p = 0x0B ∧ o = 0x100 then CRP_PWR_CTL
  else if p = 0x0B ∧ o = 0x104 then CRP_PWR_STAT
  else if p = 0x0B ∧ o = 0x108 then CRP_STAT
  else if p = 0x0B ∧ o = 0x10C then CRP_RST_STAT
  else if p = 0x0B ∧ 0x400 ≤ o ∧ o < 0x800 then 0x050000 + 33 * 0x400 + (o - 0x400)
  else if p = 0x0B ∧ 0x800 ≤ o ∧ o ≤ 0x80B then DBG_VT_CDATA 3 + (o - 0x800)
  else off

end Sys2Proof.Machine
end

