-- ==== Sys2Proof/Syntax.lean ====
section
/-! DEFINITION. The commands of the block: one constructor per row of the opcode table, with the operands its environment
supplies (which unit, which data, which physical outcome), and the types of those operands. -/

namespace Sys2Proof

/-- A Sprin core: a physical sequencer, the supervisor (its lockstep shadow is one with it) or the Moth core. -/
inductive CoreId where
  | seq (n : Nat)
  | sup
  | moth
deriving DecidableEq, Repr

/-- Who makes an access to the register region: the host port, the management port, the debug access port, the debug
bus master, or a Sprin core under a capability it has already checked (Table 9.3, R475, R12). -/
inductive Agent where
  | host
  | mgmt
  | dap
  | master
  | core (c : CoreId)
deriving DecidableEq, Repr

/-- The state of a row's check bits: what a soft error leaves in it (R53, R55, R56). -/
inductive Ecc where
  | single
  | double
deriving DecidableEq, Repr

/-- A physical upset that strikes one row of the memory accessed, before the access reads it: its data and check bits, or one of the three copies
of its tag (R298). `row` is the row of the bank that grants the access; its physical number in the commands of a scrub, a swap, a descriptor, a gate
or a trap; a scratch granule's number in SCRATCH_GRANT. -/
structure Upset where
  row : Nat
  ecc : Ecc
  tag : Option (BitVec 2) := none
deriving DecidableEq, Repr

/-- One 64-B beat of an NPX write with its byte enables. -/
structure NpxBeat where
  data : BitVec 512
  be   : BitVec 64
deriving DecidableEq, Repr

/-- One 64-B beat returned to the NPX initiator: `resp` 0 is OKAY. -/
structure RdBeat where
  resp : BitVec 2
  data : BitVec 512
deriving DecidableEq, Repr

/-- A Wian frame: header bytes 0 to 27 (byte b in bits 8b+7..8b) and the payload granules (Table 12.1). -/
structure Frame where
  hdr : BitVec 224
  pay : List Gran
deriving DecidableEq, Repr

/-- Why a received frame is bad (R381, R383, R529). -/
inductive BadFrame where
  | crc
  | tag
  | gap
  | fields
deriving DecidableEq, Repr

/-- What SEC reads from the code store at boot: the manifest (byte b in bits 8b+7..8b), the SHA-384 of the program lines it
covers, and whether a line could not be read (Table 18.3, R521). -/
structure BootImage where
  manifest : BitVec 2048
  imgHash  : BitVec 384
  readErr  : Bool
deriving DecidableEq, Repr

/-- The commands of the block, in the order of the opcode table; each constructor's comment names its row's rule. -/
inductive Instr where
  /-- REG_WRITE (R10). -/
  | regWrite (a : Agent) (addr : Nat) (v : Reg)
  /-- NPX_READ_REQUEST (R351). -/
  | npxReadRequest (id : BitVec 8) (smem : Bool) (addr : BitVec 28) (len : BitVec 6) (qos : BitVec 4)
  /-- NPX_WRITE_REQUEST (R354). -/
  | npxWriteRequest (id : BitVec 8) (smem : Bool) (addr : BitVec 28) (len : BitVec 6) (qos : BitVec 4) (beats : List NpxBeat)
  /-- ARBITER_GRANT (R50). -/
  | arbiterGrant (bank : Nat) (upsets : List Upset)
  /-- SMEM_READ_DATA (R48). -/
  | smemReadData (req : Nat)
  /-- SCRATCH_GRANT (R200): the request granted, and the soft errors that strike the tags it reads (R298). -/
  | scratchGrant (req : Nat × List Upset)
  /-- SCRUB_ACCESS (R59). -/
  | scrubAccess (upsets : List Upset)
  /-- SMEM_INIT (R60). -/
  | smemInit (a : Agent)
  /-- INIT_DONE (R60). -/
  | initDone
  /-- SMEM_CE_CNT_READ (R72). -/
  | smemCeCntRead (a : Agent)
  /-- BMP_TRAIN (R66). -/
  | bmpTrain (n : Nat)
  /-- BMP_TRAIN_REPORT (R552). -/
  | bmpTrainReport (n : Nat) (ok : Bool) (cap : BitVec 16) (mrgRd mrgWr repaired : BitVec 8)
  /-- BMP_TRAIN_TIMEOUT (R66). -/
  | bmpTrainTimeout (n : Nat)
  /-- BMP_READ_BEAT (R65). -/
  | bmpReadBeat (n : Nat) (tag : BitVec 6) (data : BitVec 1024) (stat : BitVec 2)
  /-- BMP_ILV_WRITE (R67). -/
  | bmpIlvWrite (v : Reg)
  /-- BMP_CPY_GO (R68). -/
  | bmpCpyGo (n : Nat) (v : Reg)
  /-- BMP_CPY_GRANULE_DONE (R69). -/
  | bmpCpyGranuleDone (n : Nat) (data : BitVec 128) (stat : BitVec 2) (upsets : List Upset)
  /-- BMP_CPY_ABORT (R69). -/
  | bmpCpyAbort (n : Nat)
  /-- TICK_INSTANT (R443). -/
  | tickInstant
  /-- FLIP_RELEASE (R96). -/
  | flipRelease
  /-- QUIESCE_MARGIN_START (R446). -/
  | quiesceMarginStart
  /-- ALLOC_HOLD_RELEASE (R36). -/
  | allocHoldRelease
  /-- GCMD_ADMIT (R83). -/
  | gcmdAdmit (g : BitVec 6)
  /-- GCMD_DONE (R83). -/
  | gcmdDone (g : BitVec 6)
  /-- GCMD_DISCARD (R84). -/
  | gcmdDiscard (g : BitVec 6)
  /-- GCMD_NONE (R83). -/
  | gcmdNone
  /-- SWEEP_DONE (R84). -/
  | sweepDone (g : BitVec 6)
  /-- LEASE_TAKE (R104). -/
  | leaseTake (n : Nat) (g : BitVec 6)
  /-- LEASE_RELEASE (R106). -/
  | leaseRelease (n : Nat)
  /-- FREEZE_REQUEST (R110). -/
  | freezeRequest
  /-- POOL_CNT0_READ (R112). -/
  | poolCnt0Read (a : Agent)
  /-- ALLOC_ACCEPT (R140). -/
  | allocAccept (c : CoreId) (upsets : List Upset)
  /-- ALLOC_GRANT (R144). -/
  | allocGrant
  /-- STREAM_ELEMENT_ISSUE (R163). -/
  | streamElementIssue (pod : Nat) (entry : Nat) (i : Nat)
  /-- RUN_END (R172). -/
  | runEnd (pod : Nat)
  /-- POD_ABORT (R152). -/
  | podAbort (pod : Nat)
  /-- ALLOC_WAIT_READ (R20). -/
  | allocWaitRead (a : Agent)
  /-- LIT (R227). -/
  | lit (c : CoreId) (x : BitVec 12)
  /-- BR (R228). -/
  | br (c : CoreId) (off : BitVec 10)
  /-- BZ (R228). -/
  | bz (c : CoreId) (off : BitVec 10)
  /-- BNZ (R228). -/
  | bnz (c : CoreId) (off : BitVec 10)
  /-- CALL (R228). -/
  | call (c : CoreId) (off : BitVec 10)
  /-- LD (R229). -/
  | ld (c : CoreId) (r : BitVec 3) (d : BitVec 6)
  /-- ST (R229). -/
  | st (c : CoreId) (r : BitVec 3) (d : BitVec 6)
  /-- LD2 (R192). -/
  | ld2 (c : CoreId) (r : BitVec 3) (d : BitVec 6)
  /-- ST2 (R192). -/
  | st2 (c : CoreId) (r : BitVec 3) (d : BitVec 6)
  /-- LDX (R229). -/
  | ldx (c : CoreId) (r : BitVec 3) (d : BitVec 6)
  /-- STX (R229). -/
  | stx (c : CoreId) (r : BitVec 3) (d : BitVec 6)
  /-- LD2X (R229). -/
  | ld2x (c : CoreId) (r : BitVec 3) (d : BitVec 6)
  /-- ST2X (R229). -/
  | st2x (c : CoreId) (r : BitVec 3) (d : BitVec 6)
  /-- NOP (R225). -/
  | nop (c : CoreId)
  /-- DUP (R225). -/
  | dup (c : CoreId)
  /-- DROP (R225). -/
  | drop (c : CoreId)
  /-- SWAP (R225). -/
  | swap (c : CoreId)
  /-- OVER (R225). -/
  | overOp (c : CoreId)
  /-- ROT (R225). -/
  | rot (c : CoreId)
  /-- NIP (R225). -/
  | nip (c : CoreId)
  /-- TUCK (R225). -/
  | tuck (c : CoreId)
  /-- TWO_DUP (R225). -/
  | twoDup (c : CoreId)
  /-- TWO_DROP (R225). -/
  | twoDrop (c : CoreId)
  /-- TWO_SWAP (R225). -/
  | twoSwap (c : CoreId)
  /-- TWO_OVER (R225). -/
  | twoOver (c : CoreId)
  /-- MINUS_ROT (R225). -/
  | minusRot (c : CoreId)
  /-- PICK (R225). -/
  | pick (c : CoreId) (k : BitVec 3)
  /-- ADD (R231). -/
  | add (c : CoreId)
  /-- ADC (R231). -/
  | adc (c : CoreId)
  /-- SUB (R231). -/
  | sub (c : CoreId)
  /-- SBC (R231). -/
  | sbc (c : CoreId)
  /-- NEG (R231). -/
  | neg (c : CoreId)
  /-- INC (R231). -/
  | inc (c : CoreId)
  /-- DEC (R231). -/
  | dec (c : CoreId)
  /-- AND (R225). -/
  | and (c : CoreId)
  /-- OR (R225). -/
  | or (c : CoreId)
  /-- XOR (R225). -/
  | xor (c : CoreId)
  /-- NOT (R225). -/
  | not (c : CoreId)
  /-- SHL (R232). -/
  | shl (c : CoreId)
  /-- SHR (R232). -/
  | shr (c : CoreId)
  /-- SRA (R232). -/
  | sra (c : CoreId)
  /-- ROL (R232). -/
  | rol (c : CoreId)
  /-- SHLI (R232). -/
  | shli (c : CoreId) (k : BitVec 4)
  /-- SHRI (R232). -/
  | shri (c : CoreId) (k : BitVec 4)
  /-- SRAI (R232). -/
  | srai (c : CoreId) (k : BitVec 4)
  /-- MIN (R225). -/
  | min (c : CoreId)
  /-- MAX (R225). -/
  | max (c : CoreId)
  /-- UMIN (R225). -/
  | umin (c : CoreId)
  /-- UMAX (R225). -/
  | umax (c : CoreId)
  /-- ABS (R225). -/
  | abs (c : CoreId)
  /-- SEXT8 (R225). -/
  | sext8 (c : CoreId)
  /-- ZEXT8 (R225). -/
  | zext8 (c : CoreId)
  /-- POPC (R225). -/
  | popc (c : CoreId)
  /-- CLZ (R225). -/
  | clz (c : CoreId)
  /-- MUL (R225). -/
  | mul (c : CoreId)
  /-- MULU (R225). -/
  | mulu (c : CoreId)
  /-- MULL (R225). -/
  | mull (c : CoreId)
  /-- DIV (R233). -/
  | div (c : CoreId)
  /-- DIVU (R233). -/
  | divu (c : CoreId)
  /-- DIV2U (R233). -/
  | div2u (c : CoreId)
  /-- ADD2 (R231). -/
  | add2 (c : CoreId)
  /-- SUB2 (R231). -/
  | sub2 (c : CoreId)
  /-- NEG2 (R231). -/
  | neg2 (c : CoreId)
  /-- EQ (R234). -/
  | eq (c : CoreId)
  /-- NE (R234). -/
  | ne (c : CoreId)
  /-- LT (R234). -/
  | lt (c : CoreId)
  /-- LE (R234). -/
  | le (c : CoreId)
  /-- GT (R234). -/
  | gt (c : CoreId)
  /-- GE (R234). -/
  | ge (c : CoreId)
  /-- ULT (R234). -/
  | ult (c : CoreId)
  /-- ULE (R234). -/
  | ule (c : CoreId)
  /-- UGT (R234). -/
  | ugt (c : CoreId)
  /-- UGE (R234). -/
  | uge (c : CoreId)
  /-- ZERO_EQ (R234). -/
  | zeroEq (c : CoreId)
  /-- ZERO_LT (R234). -/
  | zeroLt (c : CoreId)
  /-- SEL (R234). -/
  | sel (c : CoreId)
  /-- RET (R225). -/
  | ret (c : CoreId)
  /-- TO_R (R225). -/
  | toR (c : CoreId)
  /-- R_FROM (R225). -/
  | rFrom (c : CoreId)
  /-- R_FETCH (R225). -/
  | rFetch (c : CoreId)
  /-- JMPS (R225). -/
  | jmps (c : CoreId)
  /-- CALLS (R225). -/
  | calls (c : CoreId)
  /-- RETI (R316). -/
  | reti (c : CoreId)
  /-- RETT (R316). -/
  | rett (c : CoreId)
  /-- WAIT (R238). -/
  | wait (c : CoreId)
  /-- SYNCI (R239). -/
  | synci (c : CoreId)
  /-- NIWO (R314). -/
  | niwo (c : CoreId)
  /-- NIWC (R237). -/
  | niwc (c : CoreId)
  /-- FENCE (R240). -/
  | fence (c : CoreId)
  /-- LOOP (R212). -/
  | loop (c : CoreId) (d : BitVec 8)
  /-- REP (R214). -/
  | rep (c : CoreId)
  /-- REPI (R214). -/
  | repi (c : CoreId) (k : BitVec 6)
  /-- FL_FETCH (R225). -/
  | flFetch (c : CoreId)
  /-- FL_STORE (R225). -/
  | flStore (c : CoreId)
  /-- LC_FETCH (R225). -/
  | lcFetch (c : CoreId)
  /-- LC_STORE (R225). -/
  | lcStore (c : CoreId)
  /-- LS_FETCH (R225). -/
  | lsFetch (c : CoreId)
  /-- LS_STORE (R271). -/
  | lsStore (c : CoreId)
  /-- LE_FETCH (R225). -/
  | leFetch (c : CoreId)
  /-- LE_STORE (R225). -/
  | leStore (c : CoreId)
  /-- RC_FETCH (R225). -/
  | rcFetch (c : CoreId)
  /-- DEPTH (R225). -/
  | depth (c : CoreId)
  /-- RDEPTH (R225). -/
  | rdepth (c : CoreId)
  /-- LPUSH (R225). -/
  | lpush (c : CoreId)
  /-- LPOP (R271). -/
  | lpop (c : CoreId)
  /-- LEAVE (R225). -/
  | leave (c : CoreId)
  /-- CTXID (R242). -/
  | ctxid (c : CoreId)
  /-- LDP (R194). -/
  | ldp (c : CoreId) (r : BitVec 3)
  /-- STP (R194). -/
  | stp (c : CoreId) (r : BitVec 3)
  /-- LD2P (R194). -/
  | ld2p (c : CoreId) (r : BitVec 3)
  /-- ST2P (R194). -/
  | st2p (c : CoreId) (r : BitVec 3)
  /-- TAS (R246). -/
  | tas (c : CoreId) (r : BitVec 3)
  /-- LR (R247). -/
  | lr (c : CoreId) (r : BitVec 3)
  /-- SC (R247). -/
  | sc (c : CoreId) (r : BitVec 3)
  /-- LDM_STEP (R248). -/
  | ldmStep (c : CoreId) (r : BitVec 3)
  /-- STM_STEP (R249). -/
  | stmStep (c : CoreId) (r : BitVec 3)
  /-- CMOV (R225). -/
  | cmov (c : CoreId) (ra rb : BitVec 3)
  /-- CDERIVE (R253). -/
  | cderive (c : CoreId) (ra rb : BitVec 3)
  /-- CSEAL (R254). -/
  | cseal (c : CoreId) (ra rb : BitVec 3)
  /-- CUNSEAL (R254). -/
  | cunseal (c : CoreId) (ra rb : BitVec 3)
  /-- CBASE (R255). -/
  | cbase (c : CoreId) (r : BitVec 3)
  /-- CLEN (R255). -/
  | clen (c : CoreId) (r : BitVec 3)
  /-- CPERM (R255). -/
  | cperm (c : CoreId) (r : BitVec 3)
  /-- CATTR (R255). -/
  | cattr (c : CoreId) (r : BitVec 3)
  /-- COWNER (R255). -/
  | cowner (c : CoreId) (r : BitVec 3)
  /-- CTAG (R255). -/
  | ctag (c : CoreId) (r : BitVec 3)
  /-- CCLR (R255). -/
  | cclr (c : CoreId) (r : BitVec 3)
  /-- CPRIOR (R255). -/
  | cprior (c : CoreId) (r : BitVec 3)
  /-- CSKEY (R255). -/
  | cskey (c : CoreId) (r : BitVec 3)
  /-- CLDC (R256). -/
  | cldc (c : CoreId) (ra rb : BitVec 3)
  /-- CSTC (R256). -/
  | cstc (c : CoreId) (ra rb : BitVec 3)
  /-- SEV (R257). -/
  | sev (c : CoreId) (n : BitVec 6)
  /-- LITH (R227). -/
  | lith (c : CoreId) (n : BitVec 8)
  /-- TRAP (R313). -/
  | trap (c : CoreId) (n : BitVec 8) (upsets : List Upset)
  /-- VISSUE (R139). -/
  | vissue (c : CoreId) (r : BitVec 3)
  /-- VWAIT (R143). -/
  | vwait (c : CoreId)
  /-- VRESUME (R180). -/
  | vresume (c : CoreId)
  /-- VTEST (R251). -/
  | vtest (c : CoreId)
  /-- VPR_FETCH (R252). -/
  | vprFetch (c : CoreId)
  /-- VPR_STORE (R252). -/
  | vprStore (c : CoreId)
  /-- UNDEFINED_WORD (R230). -/
  | undefinedWord (c : CoreId) (w : BitVec 14)
  /-- SPILL_TRAP (R207). -/
  | spillTrap (c : CoreId) (upsets : List Upset)
  /-- FILL_TRAP (R207). -/
  | fillTrap (c : CoreId) (upsets : List Upset)
  /-- INTERRUPT_RECOGNISE (R285). -/
  | interruptRecognise (c : CoreId)
  /-- FAULT_ENTRY (R311). -/
  | faultEntry (c : CoreId)
  /-- NIW_EXPIRY (R315). -/
  | niwExpiry (c : CoreId)
  /-- BUDGET_EXHAUSTED (R338). -/
  | budgetExhausted (c : CoreId)
  /-- QUANTUM_EXPIRY (R331). -/
  | quantumExpiry (c : CoreId)
  /-- CONTEXT_DISPATCH (R330). -/
  | contextDispatch (c : CoreId)
  /-- CONTEXT_EVICT (R333). -/
  | contextEvict (c : CoreId) (slot : BitVec 9)
  /-- CONTEXT_LOAD (R333). -/
  | contextLoad (c : CoreId) (slot : BitVec 9)
  /-- CTX_LOAD (R339). -/
  | ctxLoad (n : Nat) (slot : BitVec 9)
  /-- CTX_WAKE (R339). -/
  | ctxWake (n : Nat) (slot : BitVec 9)
  /-- CTX_PARK (R339). -/
  | ctxPark (n : Nat) (slot : BitVec 9)
  /-- CTX_FREE (R339). -/
  | ctxFree (n : Nat) (slot : BitVec 9)
  /-- CTX_SETBUD (R339). -/
  | ctxSetbud (n : Nat) (slot : BitVec 9)
  /-- CTX_CMD_NONE (R339). -/
  | ctxCmdNone (n : Nat) (slot : BitVec 9)
  /-- CTX_DATA_WRITE (R347). -/
  | ctxDataWrite (n : Nat) (v : Reg)
  /-- SVW_DATA_WRITE (R321). -/
  | svwDataWrite (c : CoreId) (v : Reg)
  /-- MINT (R300). -/
  | mint (a : Agent)
  /-- MINT_COPY (R301). -/
  | mintCopy (a : Agent) (src : BitVec 3)
  /-- MINT_DONE (R302). -/
  | mintDone
  /-- SPLIT_EN_APPLY (R219). -/
  | splitEnApply (c : CoreId)
  /-- DET_SWITCH (R282). -/
  | detSwitch (c : CoreId)
  /-- LINE_REQUEST (R276). -/
  | lineRequest (c : CoreId) (line : BitVec 18)
  /-- LINE_DELIVERED (R276): the data bits and the line check (R272), and whether an error strikes it. -/
  | lineDelivered (c : CoreId) (data : BitVec 252) (check : BitVec 4) (err : Bool)
  /-- CODE_LINE_WRITE (R279). -/
  | codeLineWrite (a : Agent)
  /-- CODE_WRITE_DONE (R280). -/
  | codeWriteDone (err : Bool)
  /-- LC_INVALIDATE (R290). -/
  | lcInvalidate (a : Agent)
  /-- SEQ_DET_READ (R284). -/
  | seqDetRead (a : Agent) (c : CoreId) (cnt : Bool)
  /-- SEQ_EXC_CNT_READ (R315). -/
  | seqExcCntRead (a : Agent) (c : CoreId)
  /-- HIF_ENABLE (R375). -/
  | hifEnable
  /-- RING_ENABLE (R376). -/
  | ringEnable (n : Nat) (v : Reg)
  /-- RING_DISABLE (R366). -/
  | ringDisable (n : Nat)
  /-- DOORBELL_SQTAIL (R360). -/
  | doorbellSqtail (n : Nat) (v : Reg)
  /-- DOORBELL_CQHEAD (R365). -/
  | doorbellCqhead (n : Nat) (v : Reg)
  /-- INLINE_DOORBELL (R368). -/
  | inlineDoorbell (n : Nat) (beat : NpxBeat)
  /-- DESCRIPTOR_FETCH (R360). -/
  | descriptorFetch
  /-- DESCRIPTOR_READ_DONE (R361). -/
  | descriptorReadDone (n : Nat) (beats : List RdBeat) (upsets : List Upset)
  /-- POST_RECORD (R363). -/
  | postRecord (v : Reg)
  /-- COMPLETION_RECORD_WRITE (R365). -/
  | completionRecordWrite (n : Nat)
  /-- RECORD_WRITE_RESPONSE (R367). -/
  | recordWriteResponse (n : Nat) (resp : BitVec 2)
  /-- BROADCAST_WRITE (R372). -/
  | broadcastWrite (a : Agent) (off : BitVec 22) (v : Reg)
  /-- WR_FRAME (R398). -/
  | wrFrame (l : Nat) (f : Frame) (upsets : List Upset)
  /-- RD_FRAME (R398). -/
  | rdFrame (l : Nat) (f : Frame) (upsets : List Upset)
  /-- WRACK_FRAME (R402). -/
  | wrackFrame (l : Nat) (f : Frame)
  /-- RDR_FRAME (R402). -/
  | rdrFrame (l : Nat) (f : Frame) (upsets : List Upset)
  /-- FRAME_FORWARD (R390). -/
  | frameForward (l : Nat) (f : Frame)
  /-- FRAME_SEND (R382). -/
  | frameSend (l : Nat) (vc : BitVec 2)
  /-- LINK_FRAME (R383). -/
  | linkFrame (l : Nat) (f : Frame)
  /-- CAPX_FRAME (R384). -/
  | capxFrame (l : Nat) (f : Frame)
  /-- DISC_FRAME (R386). -/
  | discFrame (l : Nat) (f : Frame)
  /-- JOIN_FRAME (R387). -/
  | joinFrame (l : Nat) (f : Frame)
  /-- ASSIGN_FRAME (R389). -/
  | assignFrame (l : Nat) (f : Frame)
  /-- TSYNC_FRAME (R394). -/
  | tsyncFrame (l : Nat) (f : Frame)
  /-- TSYNC_EXCHANGE (R394). -/
  | tsyncExchange (l : Nat)
  /-- SLEW_CORRECTION (R395). -/
  | slewCorrection
  /-- DISCOVERY_START (R386). -/
  | discoveryStart
  /-- DISC_SEND (R386). -/
  | discSend
  /-- JOIN_SEND (R387). -/
  | joinSend
  /-- MONARCH_ASSIGN (R387). -/
  | monarchAssign
  /-- LINK_DOWN (R384): the link, and the lane that failed hard, if one did (R385). -/
  | linkDown (l : Nat × Option (BitVec 3))
  /-- LINK_TRAIN_START (R384). -/
  | linkTrainStart (l : Nat)
  /-- LINK_TRAINED (R384): `lanes` are the physical lanes that align. -/
  | linkTrained (l : Nat) (lanes : BitVec 5)
  /-- LINK_RETRAIN (R384). -/
  | linkRetrain (l : Nat)
  /-- LINK_AUTH_TIMEOUT (R527). -/
  | linkAuthTimeout (l : Nat)
  /-- LANE_MARGIN_LOW (R385). -/
  | laneMarginLow (l : Nat) (lane : BitVec 3) (margin : BitVec 8)
  /-- TX_GO (R401). -/
  | txGo (ch : Nat) (v : Reg)
  /-- TX_FRAME_ISSUE (R402). -/
  | txFrameIssue (ch : Nat) (upsets : List Upset)
  /-- TX_FRAME_TIMEOUT (R402). -/
  | txFrameTimeout (ch : Nat) (tag : BitVec 8)
  /-- TX_ABORT (R402). -/
  | txAbort (ch : Nat)
  /-- LINK_CNT_READ (R383). -/
  | linkCntRead (a : Agent) (l : Nat)
  /-- EVENT_PENDING (R407). -/
  | eventPending (e : Nat)
  /-- MODERATION_TIMEOUT (R410). -/
  | moderationTimeout (e : Nat)
  /-- EVC_CLAIM (R416). -/
  | evcClaim (a : Agent) (t : Nat)
  /-- EVC_DONE (R417). -/
  | evcDone (a : Agent) (t : Nat) (lvl : BitVec 3)
  /-- EVC_PUSH (R418). -/
  | evcPush (a : Agent) (t : Nat) (lvl : BitVec 3)
  /-- EVC_SRC_CLEAR (R407). -/
  | evcSrcClear
  /-- EVC_SWEV (R407). -/
  | evcSwev (e : BitVec 9)
  /-- MOTH_WAKE (R424). -/
  | mothWake (k : BitVec 5)
  /-- MCLK_STABLE (R424). -/
  | mclkStable
  /-- MGMT_WRITE (R425). -/
  | mgmtWrite (v : Reg)
  /-- TB_LOAD (R433). -/
  | tbLoad
  /-- COMPARE_MATCH (R434). -/
  | compareMatch (k : Nat)
  /-- CMP_STAGE (R435). -/
  | cmpStage (k : Nat) (v : Reg)
  /-- CMP_COMMIT (R435). -/
  | cmpCommit (k : Nat) (v : Reg)
  /-- CMP_ENABLE (R435). -/
  | cmpEnable (k : Nat) (v : Reg)
  /-- CMP_STAT_READ (R437). -/
  | cmpStatRead (a : Agent) (k : Nat)
  /-- GROUP_LOAD (R438). -/
  | groupLoad (v : Reg)
  /-- CAPTURE_EDGE (R439). -/
  | captureEdge (j : Nat) (rising : Bool)
  /-- CAP_RISE_READ (R440). -/
  | capRiseRead (a : Agent) (j : Nat)
  /-- CAP_FALL_READ (R440). -/
  | capFallRead (a : Agent) (j : Nat)
  /-- CAP_WIDTH_READ (R440). -/
  | capWidthRead (a : Agent) (j : Nat)
  /-- TICK_ARM (R442). -/
  | tickArm
  /-- TICK_PERIOD_WRITE (R444). -/
  | tickPeriodWrite (v : Reg)
  /-- TICK_STAT_READ (R443). -/
  | tickStatRead (a : Agent)
  /-- WDG_WARN (R447). -/
  | wdgWarn
  /-- WDG_EXPIRE (R447). -/
  | wdgExpire
  /-- WDG_SERVICE (R448). -/
  | wdgService (key : BitVec 32)
  /-- WDG_LOCK (R450). -/
  | wdgLock (v : Reg)
  /-- PMU_CNT_READ (R460). -/
  | pmuCntRead (a : Agent) (k : Nat)
  /-- PMU_SNAPSHOT (R461). -/
  | pmuSnapshot
  /-- PMU_CLEAR (R457). -/
  | pmuClear
  /-- RINGLET_ENABLE (R463). -/
  | ringletEnable (v : Reg)
  /-- RINGLET_WRITE (R463). -/
  | ringletWrite
  /-- RINGLET_WRITE_DONE (R466). -/
  | ringletWriteDone (ok : Bool)
  /-- PMU_RL_CNT_READ (R465). -/
  | pmuRlCntRead (a : Agent)
  /-- BW_WINDOW_END (R467). -/
  | bwWindowEnd
  /-- PMU_BW_MAX_READ (R467). -/
  | pmuBwMaxRead (a : Agent) (p : Nat)
  /-- TAP_IR_UPDATE (R471). -/
  | tapIrUpdate (ir : BitVec 5)
  /-- DBGREG_READ (R472). -/
  | dbgregRead (off : BitVec 14)
  /-- DBGREG_WRITE (R472). -/
  | dbgregWrite (off : BitVec 14) (data : Reg)
  /-- DBGREG_STATUS (R472). -/
  | dbgregStatus
  /-- DBGREG_NOP (R472). -/
  | dbgregNop
  /-- DBGREG_CAPTURE (R472). -/
  | dbgregCapture
  /-- DAPR_ACCESS (R473). -/
  | daprAccess (wr : Bool) (off : BitVec 14) (data : Reg)
  /-- MASTER_WRITE (R476). -/
  | masterWrite (v : Reg)
  /-- MASTER_READ (R476). -/
  | masterRead
  /-- MASTER_ACCESS_DONE (R479). -/
  | masterAccessDone (bulk : Reg) (stat : BitVec 2) (upsets : List Upset)
  /-- HALT_REQUEST (R480). -/
  | haltRequest
  /-- HALT_ENTRY (R481). -/
  | haltEntry (c : CoreId)
  /-- RESUME (R483). -/
  | resume
  /-- STEP (R483). -/
  | step
  /-- MSV_DATA_WRITE (R482). -/
  | msvDataWrite (v : Reg)
  /-- POD_FREEZE (R489). -/
  | podFreeze (mask : BitVec 16)
  /-- CROSS_TRIGGER (R491). -/
  | crossTrigger (c : CoreId)
  /-- VT_CDATA_WRITE (R494). -/
  | vtCdataWrite (a : Agent) (ch : Nat) (v : Reg)
  /-- VT_CDATA_READ (R494). -/
  | vtCdataRead (a : Agent) (ch : Nat)
  /-- VT_DDATA_WRITE (R494). -/
  | vtDdataWrite (ch : Nat) (v : Reg)
  /-- VT_DDATA_READ (R494). -/
  | vtDdataRead (ch : Nat)
  /-- AUTH_NEW (R525). -/
  | authNew
  /-- AUTH_VERIFY (R525). -/
  | authVerify (level : Bool)
  /-- AUTH_VERIFY_DONE (R526). -/
  | authVerifyDone
  /-- AUTH_DROP (R526). -/
  | authDrop
  /-- SWAP_STAGE (R504). -/
  | swapStage (v : Reg)
  /-- BANK_COPY_DONE (R506). -/
  | bankCopyDone
  /-- SWAP_APPLY (R507). -/
  | swapApply (upsets : List Upset)
  /-- SELFTEST_START (R502). -/
  | selftestStart (pod : Nat)
  /-- SELFTEST_DONE (R502). -/
  | selftestDone (pod : Nat) (ok : Bool)
  /-- LOCKSTEP_MISMATCH (R505). -/
  | lockstepMismatch
  /-- RAIL_SAMPLE (R509). -/
  | railSample (code : BitVec 12)
  /-- RAIL_DATA_READ (R509). -/
  | railDataRead (a : Agent)
  /-- THERMAL_SAMPLE (R511). -/
  | thermalSample (sensor : BitVec 4) (temp : BitVec 12)
  /-- THERM_DATA_READ (R511). -/
  | thermDataRead (a : Agent)
  /-- LOG_POP (R512). -/
  | logPop
  /-- IMAGE_DATA_WRITE (R515). -/
  | imageDataWrite (v : Reg)
  /-- IMAGE_LOAD (R515). -/
  | imageLoad
  /-- ENTROPY_FAIL (R520). -/
  | entropyFail
  /-- DRBG_RESEED (R520). -/
  | drbgReseed
  /-- VERSION_ADVANCE (R523). -/
  | versionAdvance (a : Agent)
  /-- SEC_LOCK_SET (R524). -/
  | secLockSet (a : Agent)
  /-- SEC_REFUSE_READ (R524). -/
  | secRefuseRead (a : Agent)
  /-- AUDIT_POP (R531). -/
  | auditPop (a : Agent)
  /-- PWR_REQ_RUN (R540). -/
  | pwrReqRun (a : Agent)
  /-- PWR_REQ_DOZE (R533). -/
  | pwrReqDoze (a : Agent)
  /-- PWR_REQ_NAP (R536). -/
  | pwrReqNap (a : Agent)
  /-- PWR_REQ_SLEEP (R536). -/
  | pwrReqSleep (a : Agent)
  /-- PWR_REQ_NONE (R540). -/
  | pwrReqNone (a : Agent)
  /-- NAP_ENTRY_DONE (R536). -/
  | napEntryDone
  /-- SLEEP_ENTRY_DONE (R539). -/
  | sleepEntryDone
  /-- NAP_EXIT (R537). -/
  | napExit
  /-- SLEEP_EXIT (R538). -/
  | sleepExit
  /-- SUPPLY_LOSS (R223). -/
  | supplyLoss
  /-- POWER_ON (R544). -/
  | powerOn
  /-- COLD_RESET_PIN (R548). -/
  | coldResetPin (low : Bool)
  /-- WARM_RESET_PIN (R548). -/
  | warmResetPin (low : Bool)
  /-- COLD_RESET_REQUEST (R542). -/
  | coldResetRequest (a : Agent)
  /-- WARM_RESET_REQUEST (R542). -/
  | warmResetRequest (a : Agent)
  /-- DOMAIN_RESET (R542). -/
  | domainReset (a : Agent) (v : Reg)
  /-- STARTUP_CHECK (R544). -/
  | startupCheck (lfOk : Bool) (pmhz : BitVec 12) (tppm : BitVec 16)
  /-- SUPERVISOR_RELEASE (R544). -/
  | supervisorRelease (m : BootImage)
  /-- SCRATCH_INIT_DONE (R544). -/
  | scratchInitDone
  /-- SEQ_RELEASE (R544). -/
  | seqRelease (a : Agent)
  /-- ISLAND_POWER_ACK (R549). -/
  | islandPowerAck (i : BitVec 6)
  /-- ISLAND_ACK_TIMEOUT (R549). -/
  | islandAckTimeout (i : BitVec 6)
  /-- SELF_REFRESH_ACK (R552). -/
  | selfRefreshAck (n : Nat)
  /-- BACKGROUND_RECLAIM_VISIT (R98). -/
  | backgroundReclaimVisit (bank : Nat)
  /-- BAD_FRAME (R383). -/
  | badFrame (l : Nat) (why : BadFrame) (f : Frame)
  /-- ENTROPY_RECOVERY (R520). -/
  | entropyRecovery
  /-- SECURE_BOOT_FAIL (R522). -/
  | secureBootFail (m : BootImage)
  /-- PMU_COUNTER_OVERFLOW (R458). -/
  | pmuCounterOverflow (n : Nat) (v : BitVec 32)
deriving DecidableEq, Repr

end Sys2Proof
end

