-- ==== Sys2Proof/Machine/State.lean ====
section
/-! DEFINITION. The state of the block as plain data, unit by unit, the reasons a step can stop, and the state after reset. -/

namespace Sys2Proof.Machine

/-- The three builds (Table 0.2). -/
inductive Build where
  | f16
  | f8
  | f4
deriving DecidableEq, Repr

/-! ### Stream memory (chapter 02) -/

/-- Stream memory: the bytes of every physical row (Table 2.1), the tags of the granules (R296), the rows whose check bits do
not match their data (R53), the corrected-error counters of the physical memory banks (R55), the initialiser and the
scrubber (R59, R60). A physical row is numbered `(slice * 128 + pbank) * 4608 + row`; its byte `i` is `16 * row + i`. -/
structure StreamMem where
  bytes : List Host.Cell
  tags  : Tbl Bool
  /-- The copy of a row's tag that disagrees with the two others (R298). -/
  odd   : Tbl (Option (BitVec 2))
  ecc   : Tbl (Option Ecc)
  ceCnt : Tbl Nat
  /-- Occupancies the running initialiser has completed; none while it does not run (R60). -/
  init  : Option Nat
  /-- The row the scrubber reads next, common to all memory banks (R59). -/
  scrubRow : Nat
  /-- PCLK until the next scrub access (R59). -/
  scrubIn  : Nat
deriving DecidableEq, Repr

/-- Who waits for an access to stream memory, and which part of that requester's work the access is. -/
inductive Dest where
  /-- Granule `q` of beat `b` of NPX read transaction `t`. -/
  | npxRd (t b q : Nat)
  /-- Granule `q` of beat `b` of NPX write transaction `t`. -/
  | npxWr (t b q : Nat)
  /-- The granule holding element `i` (or bound `i`) of load or index stream `e` of physical Pod `p`. -/
  | podLd (p e i : Nat)
  /-- Element `i` of the store stream of physical Pod `p`. -/
  | podSt (p i : Nat)
  /-- Access `tok` of a Sprin core. -/
  | core (c : CoreId) (tok : Nat)
  /-- The background fold of entry `i` of the remap table of logical bank `b` (R98). -/
  | reclaim (b i : Nat)
  /-- The scrub of physical row `k` (R59). -/
  | scrub (k : Nat)
  /-- Granule `q` of the descriptor that HIF writes into the inbox (R362). -/
  | inbox (q : Nat)
  /-- Granule `i` of the frame of virtual channel `vc` that is served from the receive buffer of link `l`; 4: this device's own frames. -/
  | frame (l vc i : Nat)
  /-- Granule `i` of the frame that transfer channel `c` sends next (R402). -/
  | tx (c i : Nat)
  /-- The granule in flight of the copy channel of bulk port `n` (R69). -/
  | copy (n : Nat)
  /-- The access of the debug bus master (R477). -/
  | master
  /-- Access `j` of what core `c` does in one piece: a gate, a descriptor, a trap (R139, R312, R341). -/
  | piece (c : CoreId) (j : Nat)
deriving DecidableEq, Repr

/-- What an access does to its granule: a read; a write of the enabled bytes, setting or clearing the tag (R296); a test and
set of one word (R246); a load that reserves (R247); or a store that lands only while the reservation holds (R247). -/
inductive Kind where
  | read
  | write (data : Gran) (be : BitVec 16) (tag : Bool)
  | tas (word : Nat)
  | lr
  | sc (word : Nat) (v : Word)
  | fold
deriving DecidableEq, Repr

/-- An access to stream memory as it reaches EPC: view, group and owner tag under R80. `late` is the group-epoch that an epoched write
belongs to which EPC accepted before a flip of its group and which is not performed yet (R33). -/
structure Access where
  dest  : Dest
  port  : Nat
  gran  : Nat
  view  : BitVec 2
  group : BitVec 6
  owner : BitVec 16
  kind  : Kind
  late  : Option (BitVec 32) := none
deriving DecidableEq, Repr

/-- What a PRIOR read accepted before a flip returns (R34): the physical row that held the committed version then, with its data and tag. -/
structure Prior where
  row  : Nat
  data : Gran
  tag  : Bool
deriving DecidableEq, Repr

/-- A request waiting at its memory bank's arbiter or in its port (R47, R49). `urgent` numbers the arbitration in which it
became urgent; `pre` is the pre-flip version of a PRIOR read accepted before a flip (R34). -/
structure Req where
  id     : Nat
  acc    : Access
  age    : Nat
  urgent : Option Nat
  pre    : Option Prior
deriving DecidableEq, Repr

/-- How an access to stream memory ends (Tables R56, 3.7 and 3.9). -/
inductive MemRes where
  | ok (d : Gran) (tag : Bool)
  | ue
  | capacity (cause : Nat)
  | conflict (cause : Nat)
  | frozen
deriving DecidableEq, Repr

/-- A granted read on its way to its requester (R48). -/
structure Granted where
  id   : Nat
  dest : Dest
  gran : Nat
  res  : MemRes
deriving DecidableEq, Repr

/-- The memory-bank arbiters: the waiting requests in arrival order, the reads granted and not yet delivered, the accesses EPC
holds during a flip in arrival order (R97), the accesses of the inbox, the fabric, the copy channels, the debug master and the cores' pieces
that have ended and whose unit has not gone on yet, the next request number and the count of arbitrations. -/
structure Arb where
  reqs    : List Req
  granted : List Granted
  held    : List Access
  ended   : List (Dest × MemRes)
  nextId  : Nat
  arbs    : Nat
deriving DecidableEq, Repr

/-! ### Epochs and commit groups (chapter 03) -/

/-- The counters of one commit group (R81). -/
structure Group where
  gepoch   : BitVec 32
  wepoch   : BitVec 32
  opens    : BitVec 16
  deferred : Bool
  sweep    : Bool
deriving DecidableEq, Repr

/-- The counters of a group after cold reset (R81). -/
def Group.init : Group := { gepoch := 0, wepoch := 1, opens := 0, deferred := false, sweep := false }

/-- One remap entry (Table 3.3). -/
structure Entry where
  home     : BitVec 12
  group    : BitVec 6
  epoch    : BitVec 32
  owner    : BitVec 16
  valid    : Bool
  borrowed : Bool
deriving DecidableEq, Repr

/-- An entry after cold reset: FREE (R117). -/
def Entry.free : Entry := { home := 0, group := 0, epoch := 0, owner := 0, valid := false, borrowed := false }

/-- A running flip: the flip set, whether it is the freeze flip, whether HLT applies a swap in it (no: the freeze flip, and a tick flip that
waited for it), and TB at its cycle 0 (R96, R110, Table 11.3). -/
structure Flip where
  set    : BitVec 64
  freeze : Bool
  swaps  : Bool
  tb     : BitVec 64
deriving DecidableEq, Repr

/-- EPC's own state beside its registers: group counters, remap tables (entry `i` of logical bank `b` at `512 b + i`), stamp
map, the background walk of each bank, the running flip and those that wait for its release (R110). -/
structure Epc where
  groups     : Tbl Group
  remap      : Tbl Entry
  smap       : Tbl (BitVec 6)
  walk       : Tbl Nat
  folding    : Tbl Bool
  flip       : Option Flip
  freezeWait : Bool
  tickWait   : Bool
deriving DecidableEq, Repr

/-! ### Bulk memory ports (chapter 02) -/

/-- One bulk port: the TB at which training started, the load requests outstanding at the controller (tag, the core access that waits and the
port-local byte address), and whether the copy stops after the granule in flight (R65, R66, R69). -/
structure Bmp where
  trainTb   : Option (BitVec 64)
  reads     : List (BitVec 6 × CoreId × Nat × BitVec 40)
  abort     : Bool
deriving DecidableEq, Repr

/-- An untrained, idle bulk port. -/
def Bmp.init : Bmp := { trainTb := none, reads := [], abort := false }

/-! ### Event controller (chapter 13) -/

/-- One event source's pending state and configuration (R407, `EVC_SRC_CFG`). -/
structure Source where
  cfg   : BitVec 32
  pend  : Bool
  count : BitVec 16
  ts    : BitVec 64
deriving DecidableEq, Repr

/-- An event source after reset. -/
def Source.init : Source := { cfg := 0, pend := false, count := 0, ts := 0 }

/-- One target: its priority stack, top first, and its last claim (chapter 13). -/
structure Target where
  stack : List (BitVec 3)
  claim : BitVec 32
  clts  : BitVec 64
deriving DecidableEq, Repr

/-- A target after reset: empty stack, no claim. -/
def Target.init : Target := { stack := [], claim := 0x8000, clts := 0 }

/-- The event controller and the wake logic: sources, targets, raises not yet handled (R407), and raises latched with their TB
while EVC is unpowered (R423). -/
structure Evc where
  src    : Tbl Source
  tgt    : Tbl Target
  raised : List (Nat × BitVec 64)
  wlatch : Tbl (BitVec 64)
  /-- Raises of watched events that have not woken the Moth core yet (R424). -/
  wakes  : List Nat
deriving DecidableEq, Repr

/-! ### Time base (chapter 14) -/

/-- Time: TB and its value before the last update, what of that update has been handled, and the clocks that run beside TCLK. -/
structure Clk where
  tb        : BitVec 64
  prev      : BitVec 64
  /-- Channels already matched, or fired, since the last update (R434, R435). -/
  cmpDone   : Tbl Bool
  /-- Tick instants the last update passed, and whether they are handled (R443). -/
  passed    : Nat
  tickDone  : Bool
  /-- The last update reached the start of the quiesce margin; the allocator is inside the margin (R446, R36). -/
  quietDue  : Bool
  margin    : Bool
  /-- The last update reached the end of a bandwidth window (R467). -/
  bwDue     : Bool
  /-- PCLK edges counted, their count at the last strobe, and the fractions of a PCLK (halves of TCLK thirds) and of an LFCLK period
  (32,768ths of 10^9) accumulated. -/
  pclk      : Nat
  /-- TCLK edges counted. -/
  tclk      : Nat
  t0        : Nat
  pAcc      : Nat
  lfAcc     : Nat
  /-- The tick period in force; the staged period with the instant it aligned to and the instant it takes effect (R444, R445). -/
  per       : Nat
  perStage  : Option (Nat × Nat × Nat)
  /-- The quiesce margin in force (R446). -/
  qm        : Nat
  /-- The low half of each channel's CMP staged by TBU_CMPk_LO (R435). -/
  loStage   : Tbl (BitVec 32)
  /-- The watchdog reached WARN, or 0, and that is not handled yet (R447). -/
  warnDue   : Bool
  expDue    : Bool
deriving DecidableEq, Repr

/-- Time as the Moth domain comes up from OFF (R453). -/
def Clk.init : Clk :=
  { tb := 0, prev := 0, cmpDone := [], passed := 0, tickDone := true, quietDue := false, margin := false, bwDue := false,
    pclk := 0, tclk := 0, t0 := 0, pAcc := 0, lfAcc := 0, per := 1000000, perStage := none, qm := 8000, loStage := [],
    warnDue := false, expDue := false }

/-! ### Sprin cores and contexts (chapters 06 to 10) -/

/-- A capability register: 128 bits and the hidden tag (R293, Table 9.1). -/
structure Cap where
  bits : BitVec 128
  tag  : Bool
deriving DecidableEq, Repr

/-- An untagged register of zeros. -/
def Cap.null : Cap := { bits := 0, tag := false }

/-- The flags of FL: Z, S, C, V (Table 6.2; the other bits read 0). -/
structure Flags where
  z : Bool
  s : Bool
  c : Bool
  v : Bool
deriving DecidableEq, Repr

/-- The sequencing registers of one running level (Table 6.2). -/
structure Regs where
  pc : PC
  fl : Flags
  rc : Word
  lc : Word
  ls : PC
  le : PC
deriving DecidableEq, Repr

/-- The sequencing registers at entry to a level and after reset (R221, R308). -/
def Regs.init : Regs := { pc := 0, fl := ⟨false, false, false, false⟩, rc := 0, lc := 0, ls := 0, le := 0 }

/-- A stack bank: cells by position from the bottom, and how many are live, for operands and return entries. A position at or
above its count keeps what was last written to it (R347). -/
structure Bank where
  cells : Tbl Word
  opd   : Nat
  rets  : Tbl PC
  rtd   : Nat
deriving DecidableEq, Repr

/-- An empty bank. -/
def Bank.init : Bank := { cells := [], opd := 0, rets := [], rtd := 0 }

/-- Why and whether a context runs (Table 10.2). -/
inductive CtxState where
  | free
  | ready
  | running
  | wait
  | vwait
  | parked
deriving DecidableEq, Repr

/-- A context: the state of Table 6.2, and the words 62 and 63 of its record with its VPR (Table 10.1). -/
structure Ctx where
  r      : Regs
  bank   : Bank
  osc    : Word
  rsc    : Word
  caps   : Tbl Cap
  vpr    : BitVec 256
  state  : CtxState
  prio   : BitVec 3
  budEn  : Bool
  budget : BitVec 24
  ticket : BitVec 8
  pcause : BitVec 4
  age    : BitVec 4
  /-- The dispatch at which the context became urgent (R330). -/
  urgent : Option Nat
  wgran  : BitVec 13
  warm   : Bool
  /-- The granule a supervisor context waits on, as word address div 8 (R346). -/
  watch  : Nat
  pflt   : Bool
  /-- A PARK command that waits for a boundary (Table 10.5). -/
  parkRq : Bool
  /-- The status of the ticket in TICKET is still to come: the context is in VWAIT, or was parked by command there (R335). -/
  vpend  : Bool
deriving DecidableEq, Repr

/-- A zeroed record: FREE, untagged, empty stacks (R221, R348). -/
def Ctx.init : Ctx :=
  { r := Regs.init, bank := Bank.init, osc := 0, rsc := 0, caps := [], vpr := 0, state := .free, prio := 0, budEn := false,
    budget := 0, ticket := 0, pcause := 0, age := 0, urgent := none, wgran := 0, warm := false, watch := 0, pflt := false,
    parkRq := false, vpend := false }

/-- A save set (Table 9.5): the interrupted level's registers, level code, live bank, CPL and SBH frame bases, with the
capability registers and their tags. -/
structure SaveSet where
  r     : Regs
  level : BitVec 4
  bank  : BitVec 3
  cpl   : BitVec 4
  base  : BitVec 5
  rbase : BitVec 4
  valid : Bool
  caps  : Tbl Cap
  /-- The handler set of an interrupted handler: where its C0 to C7 return to (R308, R317). -/
  cset  : BitVec 4
deriving DecidableEq, Repr

/-- A free save set. -/
def SaveSet.init : SaveSet :=
  { r := Regs.init, level := 0, bank := 0, cpl := 0, base := 0, rbase := 0, valid := false, caps := [], cset := 0 }

/-- A fault marked at an instruction: class, cause and address of Table 9.7, the address words of R311, and the latched count
of a REP target (R215). -/
structure FaultRec where
  cls   : BitVec 4
  cause : BitVec 4
  addr  : BitVec 48
deriving DecidableEq, Repr

/-- What an access in flight does when it is granted or its data arrive (R266). `pos` is the stack position of the first cell. -/
inductive FKind where
  | load (pos n : Nat)
  | store
  | tas (pos : Nat)
  | lr (pos : Nat)
  | sc (pos : Nat)
  | cldc (reg : BitVec 3)
  | cstc
  | split (pos : Nat) (ld : Bool) (second : Bool) (w : Word)
  | ldm (r : BitVec 3)
  | stm (r : BitVec 3)
deriving DecidableEq, Repr

/-- An instruction whose access is in flight, with the capability it goes through and the registers and bank before it, to which a
fault or an interrupt returns (R265, R286). `w` of a split access is its first word loaded, or its second word to store. `done` marks an access
that has ended behind an older one, `got` is the capability a CLDC then writes when it retires, `young` counts the instructions without an access
issued after it and before the next access, and `since` is the PCLK of its issue (R264, R266, R284). -/
structure Flight where
  tok  : Nat
  kind : FKind
  addr : WAddr
  cap  : Cap
  regs : Regs
  bank : Bank
  fail : Option FaultRec
  done : Bool
  got  : Option Cap
  young : Nat
  since : Nat
deriving DecidableEq, Repr

/-- The REP prefix whose target has not executed yet: the registers and bank before it and its latched count (R214, R215). -/
structure Rep where
  regs  : Regs
  bank  : Bank
  count : Word
deriving DecidableEq, Repr

/-- Why a core waits for a trap of SB0 before its instruction can execute (R207). -/
inductive Need where
  | spillOps
  | spillRets
  | fillOps
  | fillRets
deriving DecidableEq, Repr

/-- A VISSUE or VRESUME that the allocator has not accepted (R139, R180): the capability register it reads the descriptor through, the
word offset in it (VISSUE), or the resume of the live context's VPR; and the PCLK of its issue (R284). -/
structure VReq where
  creg   : BitVec 3
  off    : BitVec 32
  resume : Bool
  since  : Nat
deriving DecidableEq, Repr

/-- A line a core has requested: whether this is the second try (R273), the copy a line cache delivers, none where the code-store port serves the
request (R275, R276), and the PCLK at which the port delivers it in DET. -/
structure LineReq where
  line  : Nat
  again : Bool
  copy  : Option (BitVec 256)
  due   : Nat
deriving DecidableEq, Repr

/-- An entry of a branch-target buffer (R270): the flow change's address, its target, and the four words that begin there. -/
structure BtbEntry where
  addr   : PC
  target : PC
  words  : List (BitVec 14)
deriving DecidableEq, Repr

/-- One Sprin core: level and windows, save and handler sets, SBH, the work in flight, the marked fault, the contexts resident in
its live banks, its debug state and its fetch state. -/
structure Core where
  released : Bool
  level    : BitVec 4
  cpl      : BitVec 4
  hr       : Regs
  cset     : BitVec 4
  niw      : Option Nat
  trapBud  : Nat
  sv       : Tbl SaveSet
  cs       : Tbl Cap
  gtc      : Cap
  sbh      : Bank
  /-- SB0: what the spill and fill trap has read, or has still to write (R207, R208). -/
  sb0      : Bank
  base     : Nat
  rbase    : Nat
  rsv      : Option Nat
  flight   : List Flight
  tok      : Nat
  fault    : Option FaultRec
  need     : Option Need
  rep      : Option Rep
  vreq     : Option VReq
  /-- The ticket for which a VWAIT has stopped the core in place, at a handler level (R143). -/
  vwait    : Option Nat
  /-- A context has been dispatched and none of its instructions has issued: no interrupt is recognised (R332). -/
  fresh    : Bool
  /-- The live context's slot (for the supervisor: its bank 1–4), and the slots resident in SB1–SB4. -/
  live     : Option Nat
  resident : Tbl (Option Nat)
  /-- When each bank was last the live bank (R333), and the count of dispatches (R330). -/
  lastLive : Tbl Nat
  disp     : Nat
  quantum  : Nat
  budSub   : Nat
  /-- The Moth core waits in WAIT (R424). -/
  waiting  : Bool
  orderFault : Bool
  pstkFault  : Option (BitVec 4)
  /-- Settings in force: SPLIT_EN and DET (R219, R282), and LC_EN, BTB_EN, DUAL_EN since the last SYNCI (R290). -/
  splitEn  : Bool
  det      : Bool
  lcEn     : Bool
  btbEn    : Bool
  dualEn   : Bool
  /-- Debug: STATE, CAUSE and IDX of DBG_RUN_STAT, a requested halt with its cause and index, stepping (chapter 16). -/
  dstate   : BitVec 2
  dcause   : BitVec 3
  didx     : BitVec 2
  haltReq  : Option (BitVec 3 × BitVec 2)
  /-- A halt that follows the retirement of the instructions issued: a watchpoint match or the end of a step (R483, R488). -/
  after    : Option (BitVec 3 × BitVec 2)
  stepping : Bool
  skipBp   : Bool
  /-- The core's own copies of DBG_RUN_CTL, DBG_BPk and DBG_WPk, by REG offset. -/
  dbg      : Tbl Reg
  /-- Fetch: the line being executed, the next sequential line, the line requested, the line that failed twice, and the target of a branch-target
  buffer hit with its words (R270, R273, R274). -/
  held     : Option (Nat × BitVec 256)
  ahead    : Option (Nat × BitVec 256)
  lineReq  : Option LineReq
  badLine  : Option Nat
  quick    : Option (PC × List (BitVec 14))
  btb      : Tbl (Option BtbEntry)
  loopBuf  : List (BitVec 14)
  vecBuf   : Tbl (BitVec 256)
  vecShadow : Tbl (BitVec 256)
deriving DecidableEq, Repr

/-- A core after reset, in reset (R221, R322). -/
def Core.init : Core :=
  { released := false, level := 0, cpl := 0, hr := Regs.init, cset := 0, niw := none, trapBud := 0, sv := [], cs := [],
    gtc := Cap.null, sbh := Bank.init, sb0 := Bank.init, base := 0, rbase := 0, rsv := none, flight := [], tok := 0, fault := none,
    need := none, rep := none, vreq := none, vwait := none, fresh := false, live := none, resident := [], lastLive := [], disp := 0, quantum := 0, budSub := 0,
    waiting := false, orderFault := false, pstkFault := none, splitEn := false, det := false, lcEn := true, btbEn := true,
    dualEn := true, dstate := 0, dcause := 0, didx := 0, haltReq := none, after := none,
    stepping := false, skipBp := false, dbg := [], held := none,
    ahead := none, lineReq := none, badLine := none, quick := none, btb := [], loopBuf := [], vecBuf := [], vecShadow := [] }

/-- A request waiting at a local scratch array, by arrival (R200). -/
structure ScrReq where
  id   : Nat
  core : CoreId
  tok  : Nat
  addr : WAddr
  kind : Kind
deriving DecidableEq, Repr

/-- The scratch memories: local scratch of every logical sequencer and Moth retention RAM by byte, tags by granule with the copy of a tag that
disagrees with the two others, and the requests that wait (R197, R295, R298). Byte `b` of LSn's array is `131072 n + b`; Moth retention RAM is
array 32. -/
structure Scratch where
  bytes  : List Host.Cell
  tags   : Tbl Bool
  odd    : Tbl (Option (BitVec 2))
  reqs   : List ScrReq
  nextId : Nat
deriving DecidableEq, Repr

/-- Program memory as 256-bit lines: the code store, Moth program memory, and the line caches as lists of the lines held with their check bits,
least recently used first (cluster 0–3, supervisor 4), with the refills at the code-store port in arrival order, the PCLK of the last LC_INV, and
the line write in progress (R272, R275, R276, R277, R279, R290). -/
structure Code where
  store  : Tbl (BitVec 256)
  moth   : Tbl (BitVec 256)
  caches : Tbl (List (Nat × BitVec 256))
  refills : List CoreId
  invAt  : Option Nat
  write  : Option (Bool × Nat × BitVec 256)
  /-- Program lines at or above this number fail their check until written (R522). -/
  limit  : Option Nat
  written : Tbl Bool
deriving DecidableEq, Repr


/-- A register the mint path writes: a capability register of a context (`kind` 0), of a handler set (1), or GTC (2). -/
structure MintTarget where
  core : CoreId
  kind : Nat
  reg  : Nat
  set  : Nat
  slot : Nat
deriving DecidableEq, Repr

/-- A request of the mint path from GO to MINT_DONE (R299 to R302): the capability minted or copied, and the target, none where it does
not exist. -/
structure MintJob where
  copy   : Bool
  cap    : Cap
  target : Option MintTarget
deriving DecidableEq, Repr


/-! ### Pods, chains and the allocator (chapters 04 and 05) -/

/-- One entry of a chain descriptor (Table 4.12); `idx` is 0 to 9 in a single chain or a first half, 10 to 19 in a second half. -/
structure PEntry where
  idx    : Nat
  slot   : Nat
  op     : Nat
  type   : Nat
  stype  : Nat
  rm     : Nat
  fz     : Bool
  sat    : Bool
  masked : Bool
  mpol   : Bool
  srcA   : Nat
  srcB   : Nat
  srcC   : Nat
  srcM   : Nat
  imm    : Nat
deriving DecidableEq, Repr

/-- One stream descriptor (Table 5.1). -/
structure PStream where
  kind   : Nat
  esize  : Nat
  creg   : Nat
  isrc   : Nat
  offset : Nat
  param  : BitVec 32
deriving DecidableEq, Repr

/-- A chain as the allocator copies it (R140): element count, BUDGET, PRIO, entries of both halves, the streams of each half, the
address and capability register its descriptor was read through, and the capabilities its streams name. -/
structure Chain where
  n       : Nat
  budget  : Nat
  prio    : Nat
  entries : List PEntry
  str1    : List PStream
  str2    : List PStream
  paired  : Bool
  addr    : WAddr
  dcreg   : BitVec 3
  caps    : Tbl Cap
deriving DecidableEq, Repr

/-- A request in the allocator's queue (R142, R145): its logical sequencer and ticket, the issuer's context id, the chain, INDEX and SEG
of a resume, AGE, the grant at which it became urgent, PCLK of acceptance, its bounded run (R133), and whether R36 holds it. -/
structure AReq where
  ls     : Nat
  ticket : Nat
  ctx    : Nat
  chain  : Chain
  index  : Nat
  seg    : Nat
  age    : Nat
  urgent : Option Nat
  since  : Nat
  bound  : Nat
  held   : Bool
deriving DecidableEq, Repr

/-- The state of a live ticket (R142). -/
inductive TicketState where
  | queued
  | running
  | ended
deriving DecidableEq, Repr

/-- A live ticket: its state, its completion status (Table 4.15) and its progress record (Table 5.6). -/
structure Ticket where
  st     : TicketState
  status : Word
  prog   : BitVec 256
deriving DecidableEq, Repr

/-- The recorded fault of a run: element, entry, stream, class, cause and FOFF (Table 5.6). -/
structure PFault where
  e      : Nat
  entry  : Nat
  stream : Nat
  cls    : Nat
  cause  : Nat
  foff   : BitVec 48
deriving DecidableEq, Repr

/-- A write that an ST entry has made and that is not granted yet: the elements, or results, of one granule with their byte in it and
their value, lowest first; the access as for its first element; and PCLK when it was made (R54, R166). -/
structure PWrite where
  ent : Nat
  els : List (Nat × Nat × Nat)
  acc : Access
  when : Nat
deriving DecidableEq, Repr

/-- A run on a physical Pod (with `pod2`, a paired chain): per entry the next element it issues; per load streamer the granules it requested
in the PCLK given, with the first element of each request, and the further elements (entry, first element, element) that a request serves
(R46); the writes made and not granted, in order; per ST entry the write that faulted, behind which it makes none (R167); the elements
loaded (element `i` of entry `k` at `k × 2^25 + i`), the bounds read, those that failed with class and cause, and how many are checked; the
recorded fault, and whether the run is cut. `orphan`: its logical sequencer was reset (R156); `reset`: its Pods that were reset (R155). -/
structure Run where
  req    : AReq
  pod    : Nat
  pod2   : Option Nat
  next   : Tbl Nat
  asked  : Tbl (Option (Nat × List (Nat × Nat)))
  rides  : List (Nat × Nat × Nat)
  writes : List PWrite
  stops  : Tbl (Option Nat)
  vals   : Tbl (Option Nat)
  bounds : Tbl (Option Nat)
  bad    : Tbl (Option (Nat × Nat))
  nb     : Tbl Nat
  fault  : Option PFault
  cut    : Bool
  orphan : Bool
  reset  : List Nat
deriving DecidableEq, Repr

/-- A run that has issued nothing. -/
def Run.init (q : AReq) (p : Nat) (p2 : Option Nat) : Run :=
  { req := q, pod := p, pod2 := p2, next := [], asked := [], rides := [], writes := [], stops := [], vals := [], bounds := [], bad := [],
    nb := [], fault := none, cut := false, orphan := false, reset := [] }

/-- The Pod allocator: the queue in acceptance order, live tickets (ticket `t` of LSn at `256 n + t`), the last ticket assigned, grants
counted, the running chains by the physical Pod of their first half, and the pair reserved with the logical sequencer and ticket of the
request it is reserved for (R147). -/
structure Alloc where
  queue   : List AReq
  tickets : Tbl (Option Ticket)
  last    : Tbl Nat
  grants  : Nat
  runs    : Tbl (Option Run)
  reserve : Option (Nat × Nat × Nat)
deriving DecidableEq, Repr

/-- An idle allocator. -/
def Alloc.init : Alloc := { queue := [], tickets := [], last := [], grants := 0, runs := [], reserve := none }

/-! ### NPX port and host interface (chapter 11) -/

/-- One beat of an outstanding NPX target transaction: its granules still to be granted or returned, its response so far (0 OK, 1 ERR,
2 NOMAP), its data, and its stamp (group, epoch, W; R355). -/
structure NpxSlot where
  wait  : List Nat
  resp  : BitVec 2
  data  : BitVec 512
  stamp : BitVec 6 × BitVec 32 × Bool
deriving DecidableEq, Repr

/-- An outstanding NPX target transaction (R352): its number, ID, direction, the beats not sent yet, and how many were sent. -/
structure NpxTxn where
  no    : Nat
  id    : BitVec 8
  write : Bool
  beats : List NpxSlot
  sent  : Nat
deriving DecidableEq, Repr

/-- What ZV9 has sent on NPX: an RD beat, a WR response, or an initiator transaction (ID, host address, write data with its length, or the
length read). -/
inductive NpxOut where
  | rd (id : BitVec 8) (beat : Nat) (resp : BitVec 2) (data : BitVec 512) (stamp : BitVec 6 × BitVec 32 × Bool) (last : Bool)
  | wr (id : BitVec 8) (resp : BitVec 2)
  | iread (id : BitVec 8) (addr : BitVec 64) (len : Nat) (qos : BitVec 4)
  | iwrite (id : BitVec 8) (addr : BitVec 64) (len : Nat) (data : BitVec 256) (qos : BitVec 4)
deriving DecidableEq, Repr

/-- A completion record in the pending queue (R363 to R367): `rel` numbers its release; `skip` marks one posted while a flip ran, which
that flip does not release; records of one notification share a `batch`; `out`: its write is outstanding; `landed`: its write returned OK,
and the message that notifies the ring has not. -/
structure Rec where
  ring   : Nat
  group  : BitVec 6
  hifrec : Bool
  tag    : BitVec 64
  status : BitVec 16
  elems  : BitVec 32
  detail : BitVec 32
  stamp  : Option (BitVec 32 × BitVec 64)
  rel    : Option Nat
  batch  : Nat
  skip   : Bool
  out    : Bool
  landed : Bool
deriving DecidableEq, Repr

/-- A descriptor read of a ring: how many descriptors are still to be deposited (R360); whether its data are still to come; `drop`: the ring
was disabled meanwhile. -/
structure Fetch where
  count : Nat
  out   : Bool
  drop  : Bool
deriving DecidableEq, Repr

/-- One host ring beside its registers: PHASE, the count of inline descriptors, the descriptor read in progress, record writes
outstanding whose records were removed meanwhile, the messages outstanding, by the batch they notify, and the notifications that wait for
HIF_CTL.EN (R367, R560). -/
structure Ring where
  phase  : Bool
  inl    : BitVec 16
  fetch  : Option Fetch
  stale  : Nat
  msgs   : List Nat
  due    : List Nat
deriving DecidableEq, Repr

/-- A ring after reset. -/
def Ring.init : Ring := { phase := true, inl := 0, fetch := none, stale := 0, msgs := [], due := [] }

/-- A broadcast write that waits for the swap window to end (R373): a register write of agent `a`, or the beat of NPX write transaction
`no` at REG offset `off`. -/
inductive Cast where
  | reg (a : Agent) (off : Nat) (v : Reg)
  | npx (no off : Nat) (w : NpxBeat)
deriving DecidableEq, Repr

/-- The NPX target and HIF: outstanding target transactions in acceptance order, their next number, what has been sent, the rings, the
pending records, the ring served last, the count of releases and notifications, the descriptors read that go into the inbox, by ring in the
order in which their reads ended, and the broadcast writes that wait. -/
structure Hif where
  txns  : List NpxTxn
  next  : Nat
  sent  : List NpxOut
  rings : Tbl Ring
  queue : List Rec
  last  : Nat
  rels  : Nat
  inbox : List (Nat × List (BitVec 512))
  casts : List Cast
deriving DecidableEq, Repr

/-- An idle host interface. -/
def Hif.init : Hif :=
  { txns := [], next := 0, sent := [], rings := [], queue := [], last := 63, rels := 0, inbox := [], casts := [] }

/-! ### Wian fabric (chapter 12) -/

/-- Flits by virtual channel: VC0, VC1, VC2 (R382). -/
structure Flits where
  vc0 : Nat
  vc1 : Nat
  vc2 : Nat
deriving DecidableEq, Repr

/-- A frame as it left on a link: what it carries with its LSEQ, the 32 bytes of its header with the CRC, its payload, and the GCM tag of an
encrypted frame, whose header bytes 8 to 27 and payload are ciphertext (R380, R528, R529). -/
structure Wire where
  frame : Frame
  hdr   : BitVec 256
  pay   : List Gran
  tag   : Option (BitVec 128)
deriving DecidableEq, Repr

/-- One Wian link beside its registers. Transmit side: the next LSEQ, credits held, frames that wait for credits in order, the replay buffer
oldest first, how many of its youngest frames are to be resent, and successive resends of the frame `failSeq` (R382 to R384). Receive
side: the LSEQ expected, whether frames are discarded until it arrives, the credits and the ACK or NAK to send, and the frames held in the
receive buffers (R391). `since` is TB at the last change of STATE or, in AUTH, the last step. Authentication (R527): whether the partner
requires it, both nonces, whether this end's tag is sent and the partner's verified, whether frames are encrypted, and the frame counts
(R528). Discovery: BEST, HOPS and SERIAL heard (R386). Time: t1 of the request outstanding, TB of the last exchange, and twice the delay
and twice the offset of the last exchanges, newest first (R394). -/
structure WLink where
  txSeq   : Word
  credit  : Flits
  txq     : List Frame
  replay  : List Wire
  resend  : Nat
  fails   : Nat
  failSeq : Word
  rxSeq   : Word
  nakd    : Bool
  freed   : Flits
  ackDue  : Bool
  nakDue  : Bool
  held    : List Frame
  since   : BitVec 64
  peerReq : Option Bool
  nonce   : Option (BitVec 256)
  peerNon : Option (BitVec 256)
  tagSent : Bool
  enc     : Bool
  fcTx    : BitVec 64
  fcRx    : BitVec 64
  heard   : Option (BitVec 64 × Nat × BitVec 64)
  t1      : Option (BitVec 64)
  lastTs  : Option (BitVec 64)
  delays  : List Int
  offs    : List Int
deriving DecidableEq, Repr

/-- A link that is DOWN. -/
def WLink.init : WLink :=
  { txSeq := 0, credit := ⟨8192, 8192, 64⟩, txq := [], replay := [], resend := 0, fails := 0, failSeq := 0, rxSeq := 0, nakd := false,
    freed := ⟨0, 0, 0⟩, ackDue := false, nakDue := false, held := [], since := 0, peerReq := none, nonce := none, peerNon := none,
    tagSent := false, enc := false, fcTx := 0, fcRx := 0, heard := none, t1 := none, lastTs := none, delays := [], offs := [] }

/-- A frame a transfer channel has issued: its tag, its granules, TB at issue, and how it ended: granules confirmed from its first one, the
status code, and whether the failure was local (R402). -/
structure TxFrame where
  tag   : BitVec 8
  n     : Nat
  since : BitVec 64
  res   : Option (Nat × Nat × Bool)
deriving DecidableEq, Repr

/-- A transfer channel beside its registers: the frames issued and not yet confirmed in order, granules issued beyond LOC, frames issued in
all, and whether it is aborted. -/
structure TxChan where
  frames : List TxFrame
  issued : Nat
  count  : Nat
  abort  : Bool
deriving DecidableEq, Repr

def TxChan.init : TxChan := { frames := [], issued := 0, count := 0, abort := false }

/-- The fabric: links, frames sent in order with their link, BEST and HOPS with the parent link (R386), TB of the last change of them, of the
last DISC sent and of the last JOIN received, whether JOIN is sent, the JOINs received (serial, depth, link), the route entries set and
what an unset entry below `rtN` reads as (R389), whether the step of R395 is still allowed, the sixteenths of a ns still to correct,
the TCLK edges counted at the last correction, the fabric tick index (R397), the transfer channels, and the frames being served: for virtual
channel `vc` of link `l` at `2 l + vc` the stamp and the tick index taken as its accesses were presented (R397, R399). Link 4 stands for this
device itself: its `held` list has the frames it sends to itself, and those that discovery holds (R391). -/
structure Wian where
  links   : Tbl WLink
  sent    : List (Nat × Wire)
  best    : Option (BitVec 64)
  hops    : Nat
  parent  : Option Nat
  changed : BitVec 64
  lastDisc : Option (BitVec 64)
  lastJoin : BitVec 64
  joined  : Bool
  joins   : List (BitVec 64 × Nat × Nat)
  rt      : Tbl (Option (BitVec 4))
  rtN     : Nat
  rtDef   : BitVec 4
  stepOk  : Bool
  corr    : Int
  lastCorr : Nat
  tick    : BitVec 8
  chans   : Tbl TxChan
  serving : Tbl (Option (Nat × Nat))
deriving DecidableEq, Repr

/-- The fabric after cold reset (R405). -/
def Wian.init : Wian :=
  { links := [], sent := [], best := none, hops := 0, parent := none, changed := 0, lastDisc := none, lastJoin := 0, joined := false,
    joins := [], rt := [], rtN := 0, rtDef := 15, stepOk := true, corr := 0, lastCorr := 0, tick := 0, chans := [], serving := [] }

/-! ### Security (chapter 18) -/

/-- SEC beside its registers: the licensee's OTP words (R554), the audit records held oldest first, the last CHAIN, records dropped since the
last chained one (R530, R531), DRBG requests in all and since the last seeding, whether the entropy source signals a failure (R520), the
first line and the count of lines written in this tick (R530), the classes refused since the last tick instant (R524),
and, while a verification runs, its LEVEL and whether the challenge it used was fresh, and whether a NEW waits for
entropy (R525, R526). -/
structure Sec where
  otp     : Tbl (BitVec 32)
  audit   : List (BitVec 768)
  chain   : BitVec 384
  lost    : BitVec 32
  drbg    : Nat
  drawn   : Nat
  entBad  : Bool
  lines   : Option (Nat × Nat)
  refused : BitVec 4
  fresh   : Bool
  verify  : Option (Bool × Bool)
  newWait : Bool
deriving DecidableEq, Repr

/-- SEC after reset, before the OTP is read. -/
def Sec.init : Sec :=
  { otp := [], audit := [], chain := 0, lost := 0, drbg := 0, drawn := 0, entBad := false, lines := none, refused := 0,
    fresh := false, verify := none, newWait := false }

/-! ### Performance monitor (chapter 15) -/

/-- An entry the Ringlet has latched at a tick strobe: TB, TSEQ, the skips before it, PMU_OVF by word, and the counters (Table 15.3). -/
structure PmuLatch where
  tb   : BitVec 64
  tseq : Nat
  skip : Nat
  ovf  : Tbl Reg
  cnt  : Tbl Reg
deriving DecidableEq, Repr

/-- The PMU beside its registers: occurrences of each event in this PCLK (event `evt` of instance `i` of class `u` at `4096 u + 64 i + evt`),
bytes of each port since the window end (R467), carries in flight to the odd counter of a pair (R459), counters whose value was at or
above THR in the last PCLK (EDGE), the entry latched, whether it is being written and whether that overwrites the oldest, entries written
since cold reset, and skips since the last entry (R463 to R465). -/
structure Pmu where
  now     : Tbl Nat
  bytes   : Tbl Nat
  carry   : Tbl Bool
  above   : Tbl Bool
  latch   : Option PmuLatch
  writing : Bool
  ovf     : Bool
  seq     : BitVec 32
  skip    : Nat
deriving DecidableEq, Repr

/-- The PMU after cold reset. -/
def Pmu.init : Pmu :=
  { now := [], bytes := [], carry := [], above := [], latch := none, writing := false, ovf := false, seq := 0, skip := 0 }

/-- A write that left through a bulk port: the word address in bulk space and the words from it on. -/
structure BulkWrite where
  addr  : WAddr
  words : List Word
deriving DecidableEq, Repr

/-! ### Health monitoring (chapter 17) -/

/-- HLT and the rail watch beside their registers: the log oldest first (R512); each sensor's last reading and its highest since the last
read (R511); the retention image and the row spares by logical bank `slice * 127 + lbank`, each the home rows in order (R513); links whose
spare lane is in use; corrected-error counts at the start of the window, tick instants of the window passed, physical banks already
reported in it, and corrected errors by row in it (Table 17.2); rows found in error and not handled (corrected false); the logical Pod
whose self-test is due, and whether a spare or a mapped self-test may start now (Table 17.3); the rail samples newest first, A once it
is formed, whether MIN holds one, and whether the prediction may fire (R509, R510). -/
structure Hlt where
  log      : List (BitVec 128)
  temp     : Tbl (Option (BitVec 12))
  hot      : Tbl (Option (BitVec 12))
  img      : Tbl Reg
  spares   : Tbl (List Nat)
  laneUsed : BitVec 4
  ceBase   : Tbl Nat
  ceTicks  : Nat
  ceSeen   : Tbl Bool
  ceRows   : Tbl Nat
  found    : List (Nat × Bool)
  turn     : Nat
  spareDue : Bool
  mapDue   : Bool
  rail     : List (BitVec 12)
  railA    : Option Nat
  minSet   : Bool
  armed    : Bool
deriving DecidableEq, Repr

/-- HLT after a cold reset from OFF. -/
def Hlt.init : Hlt :=
  { log := [], temp := [], hot := [], img := [], spares := [], laneUsed := 0, ceBase := [], ceTicks := 0, ceSeen := [], ceRows := [],
    found := [], turn := 0, spareDue := false, mapDue := false, rail := [], railA := none, minSet := false, armed := true }

/-! ### Debug (chapter 16) -/

/-- A debug-master access in progress: its direction, MADDR, MDATA and MCTL at its start (R476). -/
structure MasterOp where
  write : Bool
  addr  : BitVec 40
  data  : Reg
  ctl   : Reg
deriving DecidableEq, Repr

/-- The DAP, the debug bus master and the terminals beside their registers: the TAP's instruction register, the offset bits [15:2], data
and STATUS of the last DBGREG access, the data register as Capture-DR last loaded it (R472), TX and RX of each virtual terminal oldest
first (R494), the master access in progress, and the cores whose halts will act as cross-triggers (R491). -/
structure Dbg where
  ir    : BitVec 5
  off   : BitVec 14
  data  : Reg
  stat  : BitVec 2
  scan  : BitVec 48
  tx    : Tbl (List Byte)
  rx    : Tbl (List Byte)
  mop   : Option MasterOp
  trig  : List CoreId
deriving DecidableEq, Repr

/-- The debug unit after a cold reset: IDCODE selected. -/
def Dbg.init : Dbg := { ir := 2, off := 0, data := 0, stat := 0, scan := 0, tx := [], rx := [], mop := none, trig := [] }

/-! ### Clocks, resets and power states (chapters 19 and 20) -/

/-- CRP beside its registers. `live`: the Moth island has its supply. `phase`: how far the start-up sequence of the present reset is
(Table 19.6, R560): 0 steps 1 and 2, 1 step 3, 2 the supervisor is released, 3 a warm reset whose supervisor is not released yet, 4 a failed
verification. `fromOff`: TB is held at 0 until step 2 ends.
`relWait`: a REL written before SCR_INIT (R544). `entry`: the state, NAP (3) or SLEEP (4), whose entry is in progress, with the bulk ports
whose self-refresh acknowledgement it waits for, whether a RUN is taken when it completes (R540), and the LFCLK edges since the request.
`exiting`: an exit from NAP or SLEEP is in progress. `porLow` and `wrsLow`: the reset pins are held low. `ackWait`: islands whose PWR_ACK
is awaited; `islandOff`: those of them whose time ran out (R549). `waking`: the MCLK oscillator is starting (R424). -/
structure Crp where
  live      : Bool
  phase     : Nat
  fromOff   : Bool
  relWait   : Bool
  entry     : Option Nat
  srWait    : List Nat
  wantRun   : Bool
  lfEdges   : Nat
  exiting   : Bool
  porLow    : Bool
  wrsLow    : Bool
  ackWait   : List Nat
  islandOff : List Nat
  waking    : Bool
deriving DecidableEq, Repr

/-- CRP as the supply rises. -/
def Crp.init : Crp :=
  { live := true, phase := 0, fromOff := true, relWait := false, entry := none, srWait := [], wantRun := false, lfEdges := 0, exiting := false,
    porLow := false, wrsLow := false, ackWait := [], islandOff := [], waking := false }

/-- What a port other than NPX received for a register access: the agent, the REG offset and the value read, none where the access was
refused. -/
structure Reply where
  agent : Agent
  off   : Nat
  data  : Option Reg
deriving DecidableEq, Repr
/-! ### The whole block -/

/-- The state of the block. `regs` holds every register of the REG region whose value differs from its Reset column, by REG byte
offset; the other fields hold what lies behind the registers. `fresh` counts the free values taken so far. -/
structure State where
  build   : Build
  regs    : Tbl Reg
  clk     : Clk
  mem     : StreamMem
  arb     : Arb
  epc     : Epc
  bmp     : Tbl Bmp
  evc     : Evc
  cores   : Tbl Core
  ctxs    : Tbl Ctx
  scr     : Scratch
  code    : Code
  mint    : Option MintJob
  alloc   : Alloc
  hif     : Hif
  wian    : Wian
  sec     : Sec
  pmu     : Pmu
  bulkOut : List BulkWrite
  hlt     : Hlt
  dbg     : Dbg
  crp     : Crp
  /-- Outputs to ports other than NPX, oldest first. -/
  replies : List Reply
  fresh   : Nat
  pending : List Instr
deriving DecidableEq, Repr

/-- Why the machine stops with a fault. -/
inductive Fault where
  /-- A command names a unit that the build does not have. Raised by no meaning: such a command acts on nothing, and the state stands
  (assumption 1). Safe: the fault never occurs. -/
  | noSuchUnit
deriving DecidableEq, Repr

/-- Why a command has no meaning. -/
inductive Refusal where
  /-- A command whose meaning is not written: raised only by the arms of `exec`. Safe. -/
  | notModelled (mnemonic : String)
deriving DecidableEq, Repr

/-- The Moth core as it starts (R543). -/
def Core.moth : Core := { Core.init with released := true }

/-- A context that runs from program address 0 with the state of R221. -/
def Ctx.start : Ctx := { Ctx.init with state := .running }

/-- The state right after a cold reset from OFF: every register at its Reset column but CRP_RST_STAT, whose POR_OFF names the cause (R545);
nothing running, every queue empty, start-up not yet begun (R221, R322, R348, R405, R429, R453, R544). -/
def State.reset : State :=
  { build := .f16, regs := [(0x24, 1)], clk := Clk.init,
    mem := { bytes := [], tags := [], odd := [], ecc := [], ceCnt := [], init := none, scrubRow := 0, scrubIn := 65536 },
    arb := { reqs := [], granted := [], held := [], ended := [], nextId := 0, arbs := 0 },
    epc := { groups := [], remap := [], smap := [], walk := [], folding := [], flip := none, freezeWait := false,
             tickWait := false },
    bmp := [], evc := { src := [], tgt := [], raised := [], wlatch := [], wakes := [] },
    cores := [(37, Core.moth)], ctxs := [(0x8001, Ctx.start)], scr := { bytes := [], tags := [], odd := [], reqs := [], nextId := 0 },
    code := { store := [], moth := [], caches := [], refills := [], invAt := none, write := none, limit := none, written := [] }, mint := none,
    alloc := Alloc.init, hif := Hif.init,
    wian := Wian.init, sec := Sec.init, pmu := Pmu.init, bulkOut := [], hlt := Hlt.init,
    dbg := Dbg.init, crp := Crp.init, replies := [], fresh := 0, pending := [] }

end Sys2Proof.Machine
end

