-- ==== Sys2Proof/Machine/Ops.lean ====
section
/-! DEFINITION. The named operations over the state that every unit uses: the counts of the build, register fields, sparse tables,
event raises, physical rows of stream memory with their check bits and tags, and local scratch. -/

namespace Sys2Proof.Machine

/-- The outcome of a command. -/
abbrev Out := Host.Outcome State Fault Refusal

/-! ### The build (Table 0.2) -/

def Build.slices : Build → Nat
  | .f16 => 16 | .f8 => 8 | .f4 => 4

/-- Physical Pods, one spare among them. -/
def Build.pods : Build → Nat
  | .f16 => 17 | .f8 => 9 | .f4 => 5

/-- Logical Pods. -/
def Build.lps : Build → Nat
  | .f16 => 16 | .f8 => 8 | .f4 => 4

def Build.clusters : Build → Nat
  | .f16 => 4 | .f8 => 2 | .f4 => 1

/-- Physical sequencer cores. -/
def Build.seqs : Build → Nat
  | .f16 => 36 | .f8 => 18 | .f4 => 9

/-- Logical sequencers. -/
def Build.lss : Build → Nat
  | .f16 => 32 | .f8 => 16 | .f4 => 8

def Build.bmps : Build → Nat
  | .f16 => 8 | .f8 => 4 | .f4 => 2

/-- Logical granules: 127 × S × 4,096 (R43). -/
def Build.granules (b : Build) : Nat := 127 * b.slices * 4096

/-- Code of the build in a CAPX frame (Table 12.2). -/
def Build.code : Build → Nat
  | .f16 => 0 | .f8 => 1 | .f4 => 2

/-! ### Registers -/

/-- What the register at canonical offset `off` reads after cold reset: its Reset column, with the values that depend on the build or
on the register's index. -/
def regInit (b : Build) (off : Nat) : Reg :=
  if off = SMEM_SIZE then BitVec.ofNat 32 (b.slices * 2 ^ 24 + b.granules)
  else if off = BMP_ILV then (match b with | .f16 => 0xFF03 | .f8 => 0x0F02 | .f4 => 0x0301)
  else if off = CRP_BUILD then (match b with | .f16 => 0x08041011 | .f8 => 0x04020809 | .f4 => 0x02010405)
  else if off = HIF_BCAST_SEQ 1 ∨ off = HIF_BCAST_SEQ 2 ∨ off = HIF_BCAST_SEQ 3 ∨ off = HIF_BCAST_POD 1
      ∨ off = HIF_BCAST_POD 2 ∨ off = HIF_BCAST_POD 3 then 0
  else if TBU_CMP_CFG 0 ≤ off ∧ off ≤ TBU_CMP_CFG 31 ∧ (off - TBU_CMP_CFG 0) % 0x20 = 0 then
    BitVec.ofNat 32 (((off - TBU_CMP_CFG 0) / 0x20 % 16) * 256)
  else match regRow off with
    | some r => BitVec.ofNat 32 r.rst
    | none => 0

namespace State

/-- The register at canonical offset `off`. -/
def reg (s : State) (off : Nat) : Reg := Tbl.get (regInit s.build off) off s.regs

/-- `s` with the register at `off` holding `v`. -/
def setReg (s : State) (off : Nat) (v : Reg) : State := { s with regs := Tbl.set (regInit s.build off) off v s.regs }

/-- A register field's value. -/
def fld (s : State) (f : Fld) : Nat := bitsOf (s.reg f.off).toNat f.lo f.w

/-- `s` with a register field set to `v` (modulo its width). -/
def setFld (s : State) (f : Fld) (v : Nat) : State :=
  s.setReg f.off (BitVec.ofNat 32 (setBitsOf (s.reg f.off).toNat f.lo f.w v))

/-- Is a one-bit field 1? -/
def on (s : State) (f : Fld) : Bool := decide (s.fld f = 1)

/-- A one-bit field set to 1. -/
def raiseBit (s : State) (f : Fld) : State := s.setFld f 1

/-- A field set to 0. -/
def clearFld (s : State) (f : Fld) : State := s.setFld f 0

/-- A counter field that stops at its greatest value, increased by `n`. -/
def addSat (s : State) (f : Fld) (n : Nat) : State := s.setFld f (min (s.fld f + n) (2 ^ f.w - 1))

/-- A 64-bit register pair (R9). -/
def reg64 (s : State) (lo hi : Nat) : BitVec 64 := s.reg hi ++ s.reg lo

/-- `s` with a 64-bit register pair holding `v`. -/
def setReg64 (s : State) (lo hi : Nat) (v : BitVec 64) : State :=
  (s.setReg lo (v.extractLsb' 0 32)).setReg hi (v.extractLsb' 32 32)

/-- A fresh free value counter: the count before, and the state after (a free value is an opaque constant applied to it). -/
def takeFresh (s : State) : Nat × State := (s.fresh, { s with fresh := s.fresh + 1 })

/-- Tables of the state, with the value an unlisted key reads as. -/
def group (s : State) (g : Nat) : Group := Tbl.get Group.init g s.epc.groups
def setGroup (s : State) (g : Nat) (v : Group) : State :=
  { s with epc := { s.epc with groups := Tbl.set Group.init g v s.epc.groups } }
def entry (s : State) (k : Nat) : Entry := Tbl.get Entry.free k s.epc.remap
def setEntry (s : State) (k : Nat) (v : Entry) : State :=
  { s with epc := { s.epc with remap := Tbl.set Entry.free k v s.epc.remap } }
def stamp (s : State) (blk : Nat) : BitVec 6 := Tbl.get 63 blk s.epc.smap
def bmpOf (s : State) (n : Nat) : Bmp := Tbl.get Bmp.init n s.bmp
def setBmp (s : State) (n : Nat) (v : Bmp) : State := { s with bmp := Tbl.set Bmp.init n v s.bmp }
def source (s : State) (e : Nat) : Source := Tbl.get Source.init e s.evc.src
def setSource (s : State) (e : Nat) (v : Source) : State :=
  { s with evc := { s.evc with src := Tbl.set Source.init e v s.evc.src } }
def target (s : State) (t : Nat) : Target := Tbl.get Target.init t s.evc.tgt
def setTarget (s : State) (t : Nat) (v : Target) : State :=
  { s with evc := { s.evc with tgt := Tbl.set Target.init t v s.evc.tgt } }
def coreAt (s : State) (k : Nat) : Core := Tbl.get Core.init k s.cores
def setCoreAt (s : State) (k : Nat) (v : Core) : State := { s with cores := Tbl.set Core.init k v s.cores }
def ctxAt (s : State) (k : Nat) : Ctx := Tbl.get Ctx.init k s.ctxs
/-- The listed contexts that satisfy `p`, by key. -/
def ctxsWith (s : State) (p : Nat → Ctx → Bool) : List Nat := (Tbl.keys s.ctxs).filter (fun k => p k (s.ctxAt k))
def setCtxAt (s : State) (k : Nat) (v : Ctx) : State := { s with ctxs := Tbl.set Ctx.init k v s.ctxs }

end State

/-! ### Cores -/

/-- The key of a core: physical sequencers 0–35, the supervisor 36, the Moth core 37. -/
def coreKey : CoreId → Nat
  | .seq n => n
  | .sup => 36
  | .moth => 37

/-- The page of a core's own registers (chapters 06, 08, 09, 13). -/
def corePage : CoreId → Nat
  | .seq n => 0x110000 + 0x10000 * n
  | .sup => 0x100000
  | .moth => 0x0B0000

/-- Does the build have the core? -/
def coreBuilt (b : Build) : CoreId → Bool
  | .seq n => decide (n < b.seqs)
  | _ => true

def State.core (s : State) (c : CoreId) : Core := s.coreAt (coreKey c)
def State.setCore (s : State) (c : CoreId) (v : Core) : State := s.setCoreAt (coreKey c) v

/-- The cluster of a physical sequencer (nine cores each) and of a logical one (eight each). -/
def clusterOfSeq (n : Nat) : Nat := n / 9
def clusterOfLs (n : Nat) : Nat := n / 8

/-- The retired core index of cluster `c`, 0xF when its spare is not in use (HLT_MAP_SEQ). -/
def State.retired (s : State) (c : Nat) : Nat := bitsOf (s.reg HLT_MAP_SEQ).toNat (4 * c) 4

/-- The physical core that serves LSn: core 8 of the cluster is the spare and takes the place of the retired core (R28). -/
def State.seqOfLs (s : State) (n : Nat) : Nat :=
  let c := clusterOfLs n
  let i := n % 8
  9 * c + (if s.retired c = i then 8 else i)

/-- The logical sequencer a physical core serves, if any. -/
def State.lsOfSeq (s : State) (n : Nat) : Option Nat :=
  let c := clusterOfSeq n
  let i := n % 9
  if i = 8 then (if s.retired c < 8 then some (8 * c + s.retired c) else none)
  else if s.retired c = i then none else some (8 * c + i)

/-- The number of a core in events, EVC targets and DBG_CORESEL: logical sequencers 0–31, the supervisor 32, Moth 33. -/
def State.targetOf (s : State) : CoreId → Option Nat
  | .seq n => s.lsOfSeq n
  | .sup => some 32
  | .moth => some 33

/-- The core behind a target number. -/
def State.coreOfTarget (s : State) (t : Nat) : CoreId :=
  if t = 32 then .sup else if t = 33 then .moth else .seq (s.seqOfLs t)

/-- The `k`-th physical Pod of those below `n` whose FAILED bit is 0, counted from Pod `p`. -/
def workingPod (failed k p : Nat) : Nat → Option Nat
  | 0 => none
  | n + 1 =>
    if bitsOf failed p 1 = 1 then workingPod failed k (p + 1) n
    else match k with
      | 0 => some p
      | j + 1 => workingPod failed j (p + 1) n

/-- The physical Pod that serves LPk: the working Pods in ascending order (Table 17.1, R500). -/
def State.podOfLp (s : State) (k : Nat) : Option Nat :=
  if k < s.build.lps then workingPod (s.fld HLT_MAP_POD_FAILED) k 0 s.build.pods else none

/-! ### Events (R406, R407) -/

/-- Can event `e` of the build become pending (R6, R406, and the reserved ranges of chapters 15, 16, 18 and 17)? -/
def eventBuilt (b : Build) (e : Nat) : Bool :=
  if e ≤ 8 then true
  else if e < 32 then false
  else if e < 64 then true
  else if e < 128 then decide ((e - 64) / 2 < b.lss)
  else if e < 196 then decide ((e - 128) / 4 < b.pods)
  else if e < 212 then decide (e - 196 < b.slices)
  else if e < 220 then decide (e - 212 < b.bmps)
  else if e < 240 then decide (e ≤ 231)
  else if e < 368 then true
  else if e ≤ 370 then true
  else if e < 384 then false
  else if e ≤ 391 then true
  else if e < 400 then false
  else if e ≤ 407 then decide (e ≠ 402)
  else if e < 416 then false
  else if e ≤ 423 then true
  else if e < 448 then false
  else decide (e < 512)

/-- Is EVC powered: in every state but SLEEP (Table 19.3). -/
def State.evcOn (s : State) : Bool := decide (s.fld CRP_PWR_STAT_STATE ≠ 4)

/-- A source raises event `e` at the present TB: EVC will make it pending (R407), or the wake logic latches it while EVC has no
power (R423); a watched event also wakes the Moth core (R424). -/
def raise (e : Nat) (s : State) : State :=
  if !eventBuilt s.build e then s
  else
    let s := if s.evcOn then { s with evc := { s.evc with raised := s.evc.raised ++ [(e, s.clk.tb)] } }
      else if e < 32 ∧ bitsOf (s.reg MOTH_WPEND).toNat e 1 = 0 then
        { s.setFld ⟨MOTH_WPEND, e, 1⟩ 1 with evc := { s.evc with wlatch := Tbl.set 0 e s.clk.tb s.evc.wlatch } }
      else s
    if e < 32 ∧ bitsOf (s.reg MOTH_WATCH).toNat e 1 = 1 then { s with evc := { s.evc with wakes := s.evc.wakes ++ [e] } }
    else s

/-! ### Occurrences counted by the PMU (Tables 15.1 and 15.4) -/

/-- `n` occurrences of event `e` of instance `i` of unit class `u` in this PCLK. -/
def tally (u i e n : Nat) (s : State) : State :=
  let k := 4096 * u + 64 * i + e
  { s with pmu := { s.pmu with now := Tbl.set 0 k (Tbl.get 0 k s.pmu.now + n) s.pmu.now } }

/-- `n` bytes accepted at port `p` of Table 15.4. -/
def portBytes (p n : Nat) (s : State) : State :=
  { s with pmu := { s.pmu with bytes := Tbl.set 0 p (Tbl.get 0 p s.pmu.bytes + n) s.pmu.bytes } }

/-- An occurrence of event `e` of a Sprin-L core, under its logical number. -/
def tallyCore (c : CoreId) (e : Nat) (s : State) : State :=
  match s.targetOf c with
  | some t => if t ≤ 32 then tally 2 t e 1 s else s
  | none => s

/-- Is it a stream-memory address of the build? -/
def State.isStream (s : State) (w : Nat) : Bool := decide (w < s.build.granules * 8)

/-- Is core `c` without power or clock: its island off, or a Sprin-L core in NAP or SLEEP (Table 19.3)? -/
def State.coreOff (s : State) (c : CoreId) : Bool :=
  !s.crp.live ||
    (match c with
     | .moth => false
     | .sup => decide (s.fld CRP_PWR_STAT_STATE = 3) || decide (s.fld CRP_PWR_STAT_STATE = 4) || s.crp.islandOff.contains 37
     | .seq n => decide (s.fld CRP_PWR_STAT_STATE = 3) || decide (s.fld CRP_PWR_STAT_STATE = 4) ||
         s.crp.islandOff.contains (33 + clusterOfSeq n))

/-- Is island `i` on (Table 19.3, R549)? -/
def State.islandOn (s : State) (i : Nat) : Bool :=
  let st := s.fld CRP_PWR_STAT_STATE
  s.crp.live && !s.crp.islandOff.contains i &&
    (decide (i = 38) || !(decide (st = 4) || (decide (st = 3) && (decide (i ≤ 36) || decide (i = 40)))))

/-- An access without a fixed time runs in DET (R284). -/
def notFixed (c : CoreId) (s : State) : State := if (s.core c).det then s.raiseBit (SEQ_DET_STAT_NF (corePage c)) else s

/-! ### Physical rows of stream memory -/

/-- Slice, logical memory bank and home row of a granule (R43); banks are numbered `slice * 127 + lbank`. -/
def sliceOf (b : Build) (g : Nat) : Nat := g % b.slices
def lbankOf (b : Build) (g : Nat) : Nat := (g / b.slices) % 127
def homeOf (b : Build) (g : Nat) : Nat := g / (127 * b.slices)
def bankOf (b : Build) (g : Nat) : Nat := sliceOf b g * 127 + lbankOf b g

/-- The granule at a slice, logical bank and home row (the inverse of R43). -/
def granOf (b : Build) (slice lbank home : Nat) : Nat := (home * 127 + lbank) * b.slices + slice

/-- The physical memory bank that serves logical bank `k` of slice `sl` (R40). -/
def State.pbankOf (s : State) (sl k : Nat) : Nat :=
  if s.on (HLT_MAP_BANK_VALID sl) ∧ s.fld (HLT_MAP_BANK_LBANK sl) = k then 127 else k

/-- The number of physical row `row` of logical bank `bank`. -/
def State.rowKey (s : State) (bank row : Nat) : Nat :=
  ((bank / 127) * 128 + s.pbankOf (bank / 127) (bank % 127)) * 4608 + row

/-- The 16 bytes of a row as a granule, from byte `i` on. -/
def granBytes (t : List Host.Cell) (base : Nat) : Nat → Nat
  | 0 => 0
  | n + 1 => granBytes t base n + (Tbl.get 0 (base + n) t).toNat * 2 ^ (8 * n)

/-- The granule at byte `base` of a byte store. -/
def readGran (t : List Host.Cell) (base : Nat) : Gran := BitVec.ofNat 128 (granBytes t base 16)

/-- The byte store with the enabled ones of the first `n` bytes of `d` written from byte `base` on. -/
def writeGran (t : List Host.Cell) (base : Nat) (d : Gran) (be : BitVec 16) : Nat → List Host.Cell
  | 0 => t
  | n + 1 =>
    let t := writeGran t base d be n
    if be.getLsbD n then Tbl.set 0 (base + n) (d.extractLsb' (8 * n) 8) t else t

/-- The enabled bytes of `d` over those of `old`. -/
def mergeGran (old d : Gran) (be : BitVec 16) : Gran :=
  BitVec.ofNat 128 ((List.range 16).foldl (fun acc i =>
    acc + ((if be.getLsbD i then d else old).extractLsb' (8 * i) 8).toNat * 2 ^ (8 * i)) 0)

/-- Data and tag of physical row `k`, as stored. -/
def State.rowData (s : State) (k : Nat) : Gran := readGran s.mem.bytes (16 * k)
def State.rowTag (s : State) (k : Nat) : Bool := Tbl.get false k s.mem.tags
def State.rowEcc (s : State) (k : Nat) : Option Ecc := Tbl.get none k s.mem.ecc

/-- Physical row `k` holding `d` with valid check bits and tag `t`. -/
def State.setRow (s : State) (k : Nat) (d : Gran) (t : Bool) : State :=
  { s with mem := { s.mem with bytes := writeGran s.mem.bytes (16 * k) d 0xFFFF 16,
                               tags := Tbl.set false k t s.mem.tags, odd := Tbl.set none k none s.mem.odd,
                               ecc := Tbl.set none k none s.mem.ecc } }

/-- Tag and disagreeing copy of a tag after a soft error strikes copy `j`: of two that then disagree with the third, it is the third (R298). -/
def strikeTag (t : Bool) (odd : Option (BitVec 2)) (j : BitVec 2) : Bool × Option (BitVec 2) :=
  match odd with
  | none => (t, some j)
  | some i => if i = j then (t, none) else (!t, some (3 - i - j))

/-- A soft error strikes physical row `k` (R55, R56, R298): a single error in a row that has one makes it uncorrectable. -/
def strikeRow (k : Nat) (u : Upset) (s : State) : State :=
  match u.tag with
  | some j =>
    let x := strikeTag (s.rowTag k) (Tbl.get none k s.mem.odd) j
    if 3 ≤ j.toNat then s else { s with mem := { s.mem with tags := Tbl.set false k x.1 s.mem.tags, odd := Tbl.set none k x.2 s.mem.odd } }
  | none =>
    let e := match u.ecc, s.rowEcc k with
      | .single, none => Ecc.single
      | _, _ => Ecc.double
    { s with mem := { s.mem with ecc := Tbl.set none k (some e) s.mem.ecc } }

/-- Soft errors strike rows of logical bank `bank`. -/
def strike (bank : Nat) (us : List Upset) (s : State) : State :=
  us.foldl (fun s u => if u.row < 4608 then strikeRow (s.rowKey bank u.row) u s else s) s

/-- Soft errors strike physical rows named by their number. -/
def strikeKeys (us : List Upset) (s : State) : State := us.foldl (fun s u => strikeRow u.row u s) s

/-- Those that name a row of the build. -/
def strikeRows (us : List Upset) (s : State) : State :=
  strikeKeys (us.filter (fun u => decide (u.row < s.build.slices * 128 * 4608))) s

/-- HLT learns of an error in physical row `k` (Table 17.2). -/
def found (k : Nat) (ue : Bool) (s : State) : State := { s with hlt := { s.hlt with found := s.hlt.found ++ [(k, ue)] } }

/-- An error corrected in physical row `k`: CE, and the count of its physical bank (R55). -/
def countCe (k : Nat) (s : State) : State :=
  let pb := k / 4608
  let s := found k false (tally 3 (pb / 128) 2 1 (s.raiseBit SMEM_ERR_STAT_CE))
  { s with mem := { s.mem with ceCnt := Tbl.set 0 pb (min (Tbl.get 0 pb s.mem.ceCnt + 1) 0xFFFF) s.mem.ceCnt } }

/-- A single-bit error corrected in physical row `k`: counted, and the row rewritten (R55). -/
def correctRow (k : Nat) (s : State) : State :=
  let s := countCe k s
  { s with mem := { s.mem with ecc := Tbl.set none k none s.mem.ecc } }

/-- A copy of the tag of physical row `k` that disagrees with the others is rewritten and counted as a corrected error (R298). -/
def correctTag (k : Nat) (s : State) : State :=
  if (Tbl.get none k s.mem.odd).isSome then
    let s := countCe k s
    { s with mem := { s.mem with odd := Tbl.set none k none s.mem.odd } }
  else s

/-- SMEM_UE_LOC of physical row `k` for a requester of port class `port`: slice, bank, row, port, VALID. -/
def ueLoc (k port : Nat) : Reg :=
  BitVec.ofNat 32 (k / 4608 / 128 + (k / 4608 % 128) * 2 ^ 4 + (k % 4608) * 2 ^ 11 + port * 2 ^ 24 + 2 ^ 31)

/-- The registers of an uncorrectable error: the first is located in SMEM_UE_LOC, a later one sets the multiple flag (R56, R58). -/
def noteUe (k port : Nat) (s : State) : State :=
  if s.on SMEM_ERR_STAT_UE then s.raiseBit SMEM_ERR_STAT_UE_MULTI
  else (s.raiseBit SMEM_ERR_STAT_UE).setReg SMEM_UE_LOC (ueLoc k port)

/-- An uncorrectable error found in physical row `k` by a requester of port class `port` (R56, R58). -/
def logUe (k port : Nat) (s : State) : State :=
  raise (196 + k / 4608 / 128) (found k true (noteUe k port s))

/-- Reads physical row `k` for a requester of port class `port`: the data and tag, none when the row is uncorrectable. -/
def fetchRow (k port : Nat) (s : State) : Option (Gran × Bool) × State :=
  let s := correctTag k s
  match s.rowEcc k with
  | none => (some (s.rowData k, s.rowTag k), s)
  | some .single => (some (s.rowData k, s.rowTag k), correctRow k s)
  | some .double => (none, logUe k port s)

/-- The class of a requester port in Table 2.4 (74 ports, numbered in tie-break order from 0). -/
def portClass (p : Nat) : Nat :=
  if p = 0 then 1 else if p = 1 then 2 else if p = 2 then 3 else if p < 19 then 4 else if p < 67 then 5
  else if p = 67 then 6 else if p < 72 then 7 else if p = 72 then 8 else 9

/-! ### Local scratch and Moth retention RAM -/

/-- The scratch granule number of word address `w` of the unified space (local scratch of LSn, Table 1.4). -/
def scrGranOfWord (w : Nat) : Nat := (w - 0x10000000) / 8

/-- The first granule of Moth retention RAM: array 32. -/
def mothGran0 : Nat := 32 * 8192

def State.scrData (s : State) (g : Nat) : Gran := readGran s.scr.bytes (16 * g)
def State.scrTag (s : State) (g : Nat) : Bool := Tbl.get false g s.scr.tags

/-- The enabled bytes of scratch granule `g` written, its tag set to `t` (R296). -/
def State.setScr (s : State) (g : Nat) (d : Gran) (be : BitVec 16) (t : Bool) : State :=
  { s with scr := { s.scr with bytes := writeGran s.scr.bytes (16 * g) d be 16, tags := Tbl.set false g t s.scr.tags,
                               odd := Tbl.set none g none s.scr.odd } }

/-- Data and tag of scratch granule `g` read: a tag copy that disagrees with the two others is rewritten (R298; counted nowhere: the counters of R55
are those of stream memory's banks, DESIGN CHOICE: assumption 97). -/
def fetchScr (g : Nat) (s : State) : MemRes × State :=
  (.ok (s.scrData g) (s.scrTag g),
    if (Tbl.get none g s.scr.odd).isSome then { s with scr := { s.scr with odd := Tbl.set none g none s.scr.odd } } else s)

/-- Soft errors strike the tags of scratch granules, named by their number (R298). -/
def strikeScr (us : List Upset) (s : State) : State :=
  us.foldl (fun s u => match u.tag with
    | some j =>
      let x := strikeTag (s.scrTag u.row) (Tbl.get none u.row s.scr.odd) j
      if 3 ≤ j.toNat then s else { s with scr := { s.scr with tags := Tbl.set false u.row x.1 s.scr.tags, odd := Tbl.set none u.row x.2 s.scr.odd } }
    | none => s) s

end Sys2Proof.Machine
end

