-- ==== Sys2Proof/Machine/Sec.lean ====
section
/-! DEFINITION. The security functions (chapter 18): OTP fields, entropy, the boot checks, refusals, debug authentication and the audit
log. -/

namespace Sys2Proof.Machine

/-! ### Byte strings -/

/-- The `n` low bytes of a number, byte 0 first. -/
def bytesOf (v : Nat) : Nat → List Byte
  | 0 => []
  | n + 1 => BitVec.ofNat 8 v :: bytesOf (v / 256) n

/-! ### OTP and entropy (R519, R520, R554) -/

/-- OTP word `k`. -/
def State.otp (s : State) (k : Nat) : BitVec 32 := Tbl.get 0 k s.sec.otp

/-- OTP words `k` to `k + n - 1` as one number, word `k` lowest. -/
def State.otpWords (s : State) (k : Nat) : Nat → Nat
  | 0 => 0
  | n + 1 => (s.otp k).toNat + s.otpWords (k + 1) n * 2 ^ 32

def State.serial (s : State) : BitVec 64 := s.reg64 WIAN_SERIAL_LO WIAN_SERIAL_HI
def State.rootHash (s : State) : BitVec 384 := BitVec.ofNat 384 (s.otpWords 2 12)
def State.dbgHash (s : State) : BitVec 384 := BitVec.ofNat 384 (s.otpWords 14 12)
def State.fabkey (s : State) : BitVec 256 := BitVec.ofNat 256 (s.otpWords 26 8)
def State.bootEn (s : State) : Bool := (s.otp 36).getLsbD 1

/-- The set bits among bits 0 to `n - 1` of a number. -/
def setBits (v : Nat) : Nat → Nat
  | 0 => 0
  | n + 1 => setBits v n + bitsOf v n 1

/-- MIN_VER: the set bits of the thermometer (Table 18.2). -/
def State.minVer (s : State) : Nat := setBits (s.otpWords 34 2) 64

/-- SEC reads the OTP at a cold reset (R519). -/
def otpRead (s : State) : State :=
  let s := s.setReg64 WIAN_SERIAL_LO WIAN_SERIAL_HI (BitVec.ofNat 64 (s.otpWords 0 2))
  let s := s.setFld SEC_STAT_FABKEY ((s.otp 36).getLsbD 0).toNat
  let s := s.setFld SEC_STAT_DBG_OFF ((s.otp 36).getLsbD 2).toNat
  s.setFld SEC_VER_MIN_VER s.minVer

/-- One output of the DRBG; none while ENT_FAIL is 1 or a reseed is due (R520). -/
def draw (s : State) : Option (BitVec 384 × State) :=
  if s.on SEC_STAT_ENT_FAIL ∨ 2 ^ 20 ≤ s.sec.drawn then none
  else some (Config.drbg s.sec.drbg, { s with sec := { s.sec with drbg := s.sec.drbg + 1, drawn := s.sec.drawn + 1 } })

/-! ### The audit log (R530, R531) -/

/-- The bytes 0 to 47 of an audit record (Table 18.5). -/
def auditHead (tb : BitVec 64) (seq : BitVec 32) (cls port code : Nat) (detail : Nat) (lost : BitVec 32) : Nat :=
  tb.toNat + seq.toNat * 2 ^ 64 + cls * 2 ^ 96 + port * 2 ^ 104 + (code % 2 ^ 16) * 2 ^ 112 + (detail % 2 ^ 192) * 2 ^ 128
    + lost.toNat * 2 ^ 320

/-- A record of the class for a port (0 internal, 1 HOST, 2 PEER, 3 MGMT, 4 DEBUG) is chained into the log, or dropped when it is full. -/
def audit (cls port code detail : Nat) (s : State) : State :=
  if 256 ≤ s.sec.audit.length then
    raise 407 { s.raiseBit SEC_AUD_STAT_OVF with sec := { s.sec with lost := if s.sec.lost = 0xFFFFFFFF then s.sec.lost else s.sec.lost + 1 } }
  else
    let h := auditHead s.clk.tb (s.reg SEC_AUD_SEQ) cls port code detail s.sec.lost
    let c := Config.sha384 (bytesOf s.sec.chain.toNat 48 ++ bytesOf h 48)
    let s := { s with sec := { s.sec with audit := s.sec.audit ++ [c ++ BitVec.ofNat 384 h], chain := c, lost := 0 } }
    let s := s.setReg SEC_AUD_SEQ (s.reg SEC_AUD_SEQ + 1)
    if s.sec.audit.length = 192 then raise 406 s else s

/-- AUDIT_POP: the oldest record is removed (R531). -/
def auditPop (s : State) : State := { s with sec := { s.sec with audit := s.sec.audit.drop 1 } }

/-- SEC_AUD_DATA: the selected word of the oldest record. -/
def State.auditWord (s : State) : Reg :=
  match s.sec.audit with
  | [] => 0
  | r :: _ => if s.fld SEC_AUD_SEL_WORD < 24 then BitVec.ofNat 32 (bitsOf r.toNat (32 * s.fld SEC_AUD_SEL_WORD) 32) else 0

/-- The port of an audit record about an access by agent `a`. -/
def agentPort : Agent → Nat
  | .host => 1
  | .mgmt => 3
  | .dap => 4
  | .master => 4
  | .core _ => 0

/-- A write to a key or lock register is recorded with its offset and value (Table 18.6). -/
def keyWritten (a : Agent) (off : Nat) (v : Reg) (s : State) : State := audit 6 (agentPort a) off v.toNat s

/-- A refusal of class `k` (0 HOST, 1 PEER, 2 MGMT, 3 DEBUG) at offset or granule `x` (R524). -/
def refuse (k x : Nat) (s : State) : State :=
  let s := s.addSat ⟨SEC_REFUSE, 8 * k, 8⟩ 1
  if s.sec.refused.getLsbD k then s
  else raise 404 (audit 4 (k + 1) k x { s with sec := { s.sec with refused := s.sec.refused ||| (1 <<< k) } })

/-- A line write with TGT 0 completed (R530). -/
def lineWritten (line : Nat) (s : State) : State :=
  { s with sec := { s.sec with lines := match s.sec.lines with
      | none => some (line, 1)
      | some (l, n) => some (l, n + 1) } }

/-- SEC at a tick instant: the class 5 record of the tick, and every class's first refusal counts again (R524, R530). -/
def secTick (s : State) : State :=
  let s := match s.sec.lines with
    | none => s
    | some (l, n) => audit 5 0 l n s
  { s with sec := { s.sec with lines := none, refused := 0 } }

/-! ### Entropy failures (R520) -/

/-- A fresh challenge in DBG_AUTH_CHAL (R525). -/
def loadChallenge (c : BitVec 384) (s : State) : State :=
  let s := (List.range 12).foldl (fun s m => s.setReg (DBG_AUTH_CHAL m) (c.extractLsb' (32 * m) 32)) s
  { s with sec := { s.sec with fresh := true, newWait := false } }

/-- A NEW that waits for entropy is served once it can be. -/
def serveNew (s : State) : State :=
  if s.sec.newWait then
    match draw s with
    | some (c, s) => (loadChallenge c s).clearFld DBG_AUTH_ERR_BUSY
    | none => s
  else s

/-- The entropy source signals a health-test failure. -/
def entropyFail (s : State) : State :=
  let s := { s with sec := { s.sec with entBad := true } }
  if s.on SEC_STAT_ENT_FAIL then s else audit 7 0 0 0 (raise 405 (s.raiseBit SEC_STAT_ENT_FAIL))

/-- The source has recovered and SEC has reseeded from it. -/
def entropyRecovery (s : State) : State :=
  if s.on SEC_STAT_ENT_FAIL then
    serveNew ({ s with sec := { s.sec with entBad := false, drawn := 0 } }.clearFld SEC_STAT_ENT_FAIL)
  else s

/-- The reseed after 2^20 requests. -/
def drbgReseed (s : State) : State :=
  if s.on SEC_STAT_ENT_FAIL ∨ s.sec.drawn < 2 ^ 20 then s else serveNew { s with sec := { s.sec with drawn := 0 } }

/-! ### Secure boot (R521 to R523) -/

/-- SEC_STAT.BOOT for a manifest and image: the checks of Table 18.4 in order. -/
def State.bootCode (s : State) (m : BootImage) : Nat :=
  let v := m.manifest.toNat
  let lines := bitsOf v 64 32
  let pub := m.manifest.extractLsb' 512 768
  if !s.bootEn then 2
  else if m.readErr then 15
  else if bitsOf v 0 32 ≠ 0x5A564231 ∨ bitsOf v 48 16 ≠ 0 ∨ bitsOf v 96 32 ≠ 0 then 8
  else if lines = 0 ∨ 233017 < lines then 9
  else if Config.sha384 (bytesOf pub.toNat 96) ≠ s.rootHash then 10
  else if !Config.ecdsaOk pub (m.manifest.extractLsb' 1280 768) (bytesOf v 160) then 11
  else if bitsOf v 32 16 < s.minVer then 12
  else if m.imgHash ≠ m.manifest.extractLsb' 128 384 then 13
  else 1

/-- SEC at a cold reset: OTP, seed, the first CHAIN, BOOT, VERSION, the line limit of R522 and the class 1 record. -/
def secureBoot (m : BootImage) (s : State) : State :=
  let s := otpRead s
  let nonce := (Config.drbg s.sec.drbg).extractLsb' 0 128
  let s := { s with sec := { s.sec with drbg := s.sec.drbg + 1, drawn := 1,
                                        chain := Config.sha384 (bytesOf s.serial.toNat 8 ++ bytesOf nonce.toNat 16) } }
  let b := s.bootCode m
  let ver := if b = 2 then 0 else bitsOf m.manifest.toNat 32 16
  let s := (s.setFld SEC_STAT_BOOT b).setFld SEC_VER_VERSION ver
  let s := { s with code := { s.code with limit := if b = 1 then some (bitsOf m.manifest.toNat 64 32) else none, written := [] } }
  let s := audit 1 0 b (nonce.toNat + ver * 2 ^ 128) s
  if b = 1 ∨ b = 2 then s else raise 400 s

/-- The thermometer with bits burnt from the lowest clear one until `want` bits are set (at most `n` steps). -/
def burn (want : Nat) (therm : Nat) : Nat → Nat
  | 0 => therm
  | n + 1 =>
    let t := burn want therm n
    if setBits t 64 < want ∧ bitsOf t n 1 = 0 then t + 2 ^ n else t

/-- VERSION_ADVANCE: a write of 1 to SEC_VERADV.GO (R523). -/
def versionAdvance (a : Agent) (s : State) : State :=
  let s := keyWritten a 0x10014 1 s
  let v := s.fld SEC_VER_VERSION
  if s.fld SEC_STAT_BOOT = 1 ∧ s.minVer < v then
    let t := burn v (s.otpWords 34 2) 64
    let otp := Tbl.set 0 35 (BitVec.ofNat 32 (t / 2 ^ 32)) (Tbl.set 0 34 (BitVec.ofNat 32 t) s.sec.otp)
    let s := { s with sec := { s.sec with otp := otp } }
    audit 8 0 s.minVer 0 (s.setFld SEC_VER_MIN_VER s.minVer)
  else s

/-! ### Debug authentication (R525, R526) -/

/-- AUTH_NEW: a write of 1 to DBG_AUTH_CTL.NEW. -/
def authNew (s : State) : State :=
  if s.on DBG_AUTH_ERR_BUSY then s
  else match draw s with
    | some (c, s) => loadChallenge c s
    | none => { s.raiseBit DBG_AUTH_ERR_BUSY with sec := { s.sec with newWait := true } }

/-- A verification fails with a cause: FAILS, E401, the class 2 record, and LOCKED at the fourth successive failure. -/
def authFail (cause : Nat) (s : State) : State :=
  let s := raise 401 ((s.addSat DBG_AUTH_ERR_FAILS 1).setFld DBG_AUTH_ERR_CAUSE cause)
  let s := if 4 ≤ s.fld DBG_AUTH_ERR_FAILS then s.raiseBit DBG_AUTH_ERR_LOCKED else s
  audit 2 4 (if cause = 5 then 2 else 1) (s.fld DBG_AUTH_ERR_FAILS) s

/-- AUTH_VERIFY: a write of 1 to DBG_AUTH_CTL.VERIFY with LEVEL; the challenge is consumed whatever follows. -/
def authVerify (level : Bool) (s : State) : State :=
  let s := s.setFld DBG_AUTH_CTL_LEVEL level.toNat
  if s.on DBG_AUTH_ERR_BUSY then s
  else
    let was := s.sec.fresh
    let s := { s with sec := { s.sec with fresh := false } }
    if s.on DBG_AUTH_ERR_LOCKED then authFail 5 s
    else { s.raiseBit DBG_AUTH_ERR_BUSY with sec := { s.sec with verify := some (level, was) } }

/-- DBG_AUTH_RESP words `k` to `k + n - 1` as one number. -/
def State.respWords (s : State) (k : Nat) : Nat → Nat
  | 0 => 0
  | n + 1 => (s.reg (DBG_AUTH_RESP k)).toNat + s.respWords (k + 1) n * 2 ^ 32

/-- DBG_AUTH_CHAL as one number. -/
def State.challenge (s : State) (k : Nat) : Nat → Nat
  | 0 => 0
  | n + 1 => (s.reg (DBG_AUTH_CHAL k)).toNat + s.challenge (k + 1) n * 2 ^ 32

/-- Why a verification fails (the CAUSE codes of DBG_AUTH_ERR), none when it passes. -/
def State.authCause (s : State) (level was : Bool) : Option Nat :=
  let pub := BitVec.ofNat 768 (s.respWords 0 24)
  let sig := BitVec.ofNat 768 (s.respWords 24 24)
  let msg := bytesOf (s.challenge 0 12) 48 ++ bytesOf s.serial.toNat 8 ++ [BitVec.ofNat 8 level.toNat]
  if !was then some 1
  else if Config.sha384 (bytesOf pub.toNat 96) ≠ s.dbgHash then some 2
  else if !Config.ecdsaOk pub sig msg then some 3
  else if s.on SEC_STAT_DBG_OFF then some 4
  else none

/-- GRANTED and CODEWR take new values; a change raises E390 (R495). -/
def setGrant (granted codewr : Bool) (s : State) : State :=
  let s' := (s.setFld DBG_AUTH_STAT_GRANTED granted.toNat).setFld DBG_AUTH_STAT_CODEWR codewr.toNat
  if s.on DBG_AUTH_STAT_GRANTED ≠ granted ∨ s.on DBG_AUTH_STAT_CODEWR ≠ codewr then raise 390 s' else s'

/-- AUTH_VERIFY_DONE. -/
def authVerifyDone (s : State) : State :=
  match s.sec.verify with
  | none => s
  | some (level, was) =>
    let s := { s.clearFld DBG_AUTH_ERR_BUSY with sec := { s.sec with verify := none } }
    match s.authCause level was with
    | some c => authFail c s
    | none =>
      let s := setGrant true (level || s.on DBG_AUTH_STAT_CODEWR) s
      audit 2 4 0 0 ((s.setFld DBG_AUTH_ERR_FAILS 0).setFld DBG_AUTH_ERR_CAUSE 0)

/-- AUTH_DROP: GRANTED and CODEWR clear at once. -/
def authDrop (s : State) : State := setGrant false false s

/-! ### Key and lock registers (R524) -/

/-- A write of SEC_CTL or SEC_NARROW (offset `off`, writable bits `mask`), ignored while SEC_LOCK.CFG is 1. -/
def secConfig (a : Agent) (off : Nat) (mask v : Reg) (s : State) : State :=
  if s.on SEC_LOCK_CFG then s else keyWritten a off (v &&& mask) (s.setReg off (v &&& mask))

/-- SEC_LOCK_SET: a write of 1 to SEC_LOCK.CFG. -/
def secLock (a : Agent) (s : State) : State := keyWritten a 0x10008 1 (s.raiseBit SEC_LOCK_CFG)

end Sys2Proof.Machine
end

