-- ==== Sys2Proof/Machine/Evc.lean ====
section
/-! DEFINITION. The event controller (chapter 13): pending events, claim order, moderation, request lines, priority stacks, and the
wake logic's latches. -/

namespace Sys2Proof.Machine

/-! ### Fields of EVC_SRC_CFG -/

def Source.en (x : Source) : Bool := x.cfg.getLsbD 0
def Source.prio (x : Source) : Nat := bitsOf x.cfg.toNat 1 3
def Source.tgt (x : Source) : Nat := bitsOf x.cfg.toNat 4 6
def Source.mcnt (x : Source) : Nat := bitsOf x.cfg.toNat 12 4
def Source.mtime (x : Source) : Nat := bitsOf x.cfg.toNat 16 12

/-- TOP: the top level of a priority stack, 0 when it is empty (R412). -/
def Target.top (t : Target) : Nat :=
  match t.stack with
  | [] => 0
  | l :: _ => l.toNat

/-- EVC handles a raise of event `e` made at TB `t` (R407). -/
def makePending (e : Nat) (t : BitVec 64) (s : State) : State :=
  let x := s.source e
  if x.pend then s.setSource e { x with count := if x.count = 0xFFFF then 0xFFFF else x.count + 1 }
  else s.setSource e { x with pend := true, count := 1, ts := t }

/-- The first raise of event `e` that EVC has not handled is taken from those raised. -/
def takeRaise (e : Nat) : List (Nat × BitVec 64) → Option (BitVec 64 × List (Nat × BitVec 64))
  | [] => none
  | (x, t) :: r => if x = e then some (t, r) else
      match takeRaise e r with
      | some (u, r') => some (u, (x, t) :: r')
      | none => none

/-- Does event `x` rank before event `y` in the claim order of R409 (numbers `i`, `j`)? -/
def ranksBefore (i : Nat) (x : Source) (j : Nat) (y : Source) : Bool :=
  if x.prio ≠ y.prio then decide (y.prio < x.prio)
  else if x.ts ≠ y.ts then decide (x.ts.toNat < y.ts.toNat)
  else decide (i < j)

/-- The first in claim order of the listed events that satisfy `p` (only a listed source can be pending). -/
def State.firstEvent (s : State) (p : Nat → Source → Bool) : Option Nat :=
  s.evc.src.foldl (fun w e =>
    if p e.1 e.2 then
      match w with
      | none => some e.1
      | some j => if ranksBefore e.1 e.2 j (s.source j) then some e.1 else w
    else w) none

/-- Is the target idle (R411): a sequencer with no context live or READY, the supervisor with every context in WAIT, the Moth core in
WAIT? -/
def State.targetIdle (s : State) (t : Nat) : Bool :=
  if t = 33 then (s.core .moth).waiting
  else if t = 32 then
    (List.range 4).all (fun b => decide ((s.ctxAt (0x4001 + b)).state = .wait))
  else
    let c := s.core (.seq (s.seqOfLs t))
    c.live.isNone &&
      (s.ctxsWith (fun k x => decide (t * 512 ≤ k ∧ k < (t + 1) * 512) && decide (x.state = .ready))).isEmpty

/-- Is a pending event unmoderated (R410)? -/
def State.unmoderated (s : State) (x : Source) : Bool :=
  (decide (x.mcnt = 0) && decide (x.mtime = 0)) ||
  (!decide (x.mcnt = 0) && decide (x.mcnt ≤ x.count.toNat)) ||
  (!decide (x.mtime = 0) && decide (x.ts.toNat + x.mtime * 1024 ≤ s.clk.tb.toNat)) ||
  s.targetIdle x.tgt

/-- Does the event request (R410)? -/
def State.requests (s : State) (x : Source) : Bool :=
  x.pend && x.en && !decide (x.prio = 0) && s.unmoderated x

/-- RP of target `t` (R412): the highest PRIO of its requesting events above TOP, 0 when none. -/
def State.rp (s : State) (t : Nat) : Nat :=
  if !s.on EVC_CTL_EN then 0
  else s.evc.src.foldl (fun m e =>
    if e.2.tgt = t ∧ s.requests e.2 ∧ (s.target t).top < e.2.prio then max m e.2.prio else m) 0

/-- The event a claim of target `t` takes (R416): the first of the pending, enabled events of its TOP priority. -/
def State.claimable (s : State) (t : Nat) : Option Nat :=
  s.firstEvent (fun _ x => x.pend && x.en && decide (x.tgt = t) && decide (x.prio = (s.target t).top))

/-- The claim word of event `e` (EVC_TGT_CLAIM): event, PRIO, COUNT; NONE when there is none. -/
def State.claimWord (s : State) : Option Nat → Reg
  | none => 0x8000
  | some e => BitVec.ofNat 32 (e + (s.source e).prio * 2 ^ 9 + (s.source e).count.toNat * 2 ^ 16)

/-- The pending state of event `e` cleared. -/
def clearPending (e : Nat) (s : State) : State := s.setSource e { s.source e with pend := false, count := 0 }

/-- A claim by target `t` (R416): the word returned and the state with the event no longer pending and its TS latched. -/
def claim (t : Nat) (s : State) : Reg × State :=
  match s.claimable t with
  | none => (0x8000, s)
  | some e =>
    let w := s.claimWord (some e)
    let ts := (s.source e).ts
    let s := clearPending e s
    (w, tally 9 t 1 1 (s.setTarget t { s.target t with clts := ts }))

/-- A push of level `l` on target `t`'s stack at delivery (R413). -/
def pushLevel (t : Nat) (l : BitVec 3) (s : State) : State :=
  s.setTarget t { s.target t with stack := l :: (s.target t).stack }

/-- The top of target `t`'s stack popped. -/
def popLevel (t : Nat) (s : State) : State :=
  s.setTarget t { s.target t with stack := (s.target t).stack.drop 1 }

/-- A priority-stack fault of target `t` (R419): PSTK, its target, E5. -/
def pstkFault (t : Nat) (s : State) : State :=
  raise 5 ((s.raiseBit EVC_STAT_PSTK).setFld EVC_STAT_PSTK_TGT t)

/-- How a DONE or PUSH ends for a target's own core. -/
inductive StackRes where
  | ok
  | order
  | pstk (cause : Nat)
deriving DecidableEq, Repr

/-- A write of level `l` to EVC_TGT_DONE of target `t` (R415, R417). -/
def evcDone (t : Nat) (l : BitVec 3) (s : State) : StackRes × State :=
  if t ≠ 32 ∧ t ≠ 33 then (.ok, s)
  else match (s.target t).stack with
    | [] => (.pstk 1, pstkFault t s)
    | top :: _ =>
      if top = l then (.ok, popLevel t s)
      else (.order, raise 5 ((s.raiseBit EVC_STAT_ORDER).setFld EVC_STAT_ORD_TGT t))

/-- A write of level `l` to EVC_TGT_PUSH of target `t` (R415, R418). -/
def evcPush (t : Nat) (l : BitVec 3) (s : State) : StackRes × State :=
  if t ≠ 32 ∧ t ≠ 33 then (.ok, s)
  else if l = 0 ∨ l.toNat ≤ (s.target t).top then (.pstk 0, pstkFault t s)
  else (.ok, pushLevel t l s)

/-- The auto-claim of a sequencer target at delivery (R414): the claim is recorded in the target's CLAIM and CLTS, and, with MBOX.EN, its
record (Table 13.2) is written to scratch granule 8 × BASE + p of the logical sequencer, clearing its tag. -/
def autoClaim (t : Nat) (p : BitVec 3) (s : State) : State :=
  let ev := s.claimable t
  let (w, s) := claim t s
  let ts := match ev with
    | some _ => (s.target t).clts
    | none => 0
  let s := s.setTarget t { s.target t with claim := w }
  if s.on (EVC_TGT_MBOX_EN t) then
    let w0 := match ev with
      | some e => e
      | none => 0x8000
    let d := w0 + (if ev.isSome then bitsOf w.toNat 16 16 else 0) * 2 ^ 16 + ts.toNat * 2 ^ 32 + p.toNat * 2 ^ 96
    s.setScr (t * 8192 + (8 * s.fld (EVC_TGT_MBOX_BASE t) + p.toNat) % 8192) (BitVec.ofNat 128 d) 0xFFFF false
  else s

/-- The pending word `m` of EVC_PENDm: bit `k` is event `32 m + k`. -/
def State.pendWord (s : State) (m : Nat) : Reg :=
  BitVec.ofNat 32 ((List.range 32).foldl (fun acc k => if (s.source (32 * m + k)).pend then acc + 2 ^ k else acc) 0)

/-- EVC_TGT_STACK: DEPTH, TOP and the levels, bottom in the lowest entry. -/
def State.stackWord (s : State) (t : Nat) : Reg :=
  let st := (s.target t).stack
  BitVec.ofNat 32 (st.length + (s.target t).top * 16 +
    (st.reverse.foldr (fun l acc => acc * 8 + l.toNat) 0) * 256)

/-- EVC powers up (R423): every latched wake event becomes pending with its latched TB and COUNT 1, and MOTH_WPEND clears. -/
def restoreWake (s : State) : State :=
  let w := s.reg MOTH_WPEND
  let s := (List.range 32).foldl (fun s e =>
    if w.getLsbD e then s.setSource e { s.source e with pend := true, count := 1, ts := Tbl.get 0 e s.evc.wlatch } else s) s
  { s.setReg MOTH_WPEND 0 with evc := { s.evc with wlatch := [] } }

end Sys2Proof.Machine
end

