-- ==== Sys2Proof/Machine/Flags.lean ====
section
/-! DEFINITION. Every flag computation of the Sprin core (R225, R226, R231 to R233): each function answers the flags an instruction
leaves, given those before it. -/

namespace Sys2Proof.Machine

/-- Z and S from a 16-bit result, C and V kept (the code ZS). -/
def Flags.zs (f : Flags) (r : Word) : Flags := { f with z := decide (r = 0), s := r.msb }

/-- Z, S and C (the code ZSC). -/
def Flags.zsc (f : Flags) (r : Word) (c : Bool) : Flags := { f.zs r with c := c }

/-- All four flags (the code ZSCV). -/
def Flags.all (r : Word) (c v : Bool) : Flags := { z := decide (r = 0), s := r.msb, c := c, v := v }

/-- All four flags on 32 bits. -/
def Flags.all32 (r : BitVec 32) (c v : Bool) : Flags := { z := decide (r = 0), s := r.msb, c := c, v := v }

/-- Sum with carry in: result, carry out, signed overflow (R231). -/
def addc (w : Nat) (a b : BitVec w) (cin : Bool) : BitVec w × Bool × Bool :=
  let n := a.toNat + b.toNat + cin.toNat
  let r := BitVec.ofNat w n
  (r, decide (2 ^ w ≤ n), decide (a.msb = b.msb) && decide (r.msb ≠ a.msb))

/-- Difference with borrow in: result, borrow, signed overflow (R231). -/
def subb (w : Nat) (a b : BitVec w) (bin : Bool) : BitVec w × Bool × Bool :=
  let r := a - b - BitVec.ofNat w bin.toNat
  (r, decide (a.toNat < b.toNat + bin.toNat), decide (a.msb ≠ b.msb) && decide (r.msb ≠ a.msb))

/-- Shift left by `n < 16`: result and the last bit shifted out, `c` when `n` is 0 (R232). -/
def shlc (a : Word) (n : Nat) (c : Bool) : Word × Bool :=
  (a <<< n, if n = 0 then c else a.getLsbD (16 - n))

/-- Shift right with zero fill. -/
def shrc (a : Word) (n : Nat) (c : Bool) : Word × Bool :=
  (a >>> n, if n = 0 then c else a.getLsbD (n - 1))

/-- Shift right with sign fill. -/
def srac (a : Word) (n : Nat) (c : Bool) : Word × Bool :=
  (a.sshiftRight n, if n = 0 then c else a.getLsbD (n - 1))

/-- MUL and MULU: Z and S on 32 bits, C and V cleared (Table 7.8). -/
def Flags.mul (r : BitVec 32) : Flags := Flags.all32 r false false

/-- MULL: V when the signed product does not fit 16 bits, C cleared. -/
def Flags.mull (r : Word) (p : Int) : Flags :=
  Flags.all r false (decide (p < -32768 ∨ 32767 < p))

/-- The divide instructions: Z and S from the quotient, C cleared, V as given (R233). -/
def Flags.div (q : Word) (v : Bool) : Flags := Flags.all q false v

/-- DIV (R233): quotient, remainder and V. -/
def divSigned (a b : Word) : Word × Word × Bool :=
  if b = 0 then (0xFFFF, a, true)
  else if a = 0x8000 ∧ b = 0xFFFF then (0x8000, 0, true)
  else (a.sdiv b, a.srem b, false)

/-- DIVU (R233). -/
def divUnsigned (a b : Word) : Word × Word × Bool :=
  if b = 0 then (0xFFFF, a, true) else (a / b, a % b, false)

/-- DIV2U (R233): hi:lo by b. -/
def divPair (lo hi b : Word) : Word × Word × Bool :=
  if b = 0 then (0xFFFF, lo, true)
  else
    let n := hi.toNat * 2 ^ 16 + lo.toNat
    let q := n / b.toNat
    (BitVec.ofNat 16 q, BitVec.ofNat 16 (n % b.toNat), decide (2 ^ 16 ≤ q))

/-- FL as a word (Table 6.2): Z, S, C, V in bits 0 to 3. -/
def Flags.word (f : Flags) : Word :=
  BitVec.ofNat 16 (f.z.toNat + 2 * f.s.toNat + 4 * f.c.toNat + 8 * f.v.toNat)

/-- FL from bits 3..0 of a word. -/
def Flags.ofWord (w : Word) : Flags :=
  { z := w.getLsbD 0, s := w.getLsbD 1, c := w.getLsbD 2, v := w.getLsbD 3 }

/-- The truth value a comparison pushes (R234). -/
def truth (b : Bool) : Word := if b then 0xFFFF else 0

end Sys2Proof.Machine
end

