-- ==== Sys2Proof/Machine/Epc.lean ====
section
/-! DEFINITION. The Epoch Commit Unit: the state of remap entries, which physical row an access reads or writes (Table 3.5),
allocation and folds (R90 to R92), and the outcome of one access performed whole at its grant (R94). -/

namespace Sys2Proof.Machine

/-- The state of a remap entry (R85, Table 3.4). -/
inductive EState where
  | free
  | work
  | done
  | stale
  | borrowed
deriving DecidableEq, Repr

/-- R85: derived at each access from the entry and its group's counters. -/
def State.estate (s : State) (e : Entry) : EState :=
  if !e.valid then .free
  else if e.borrowed then .borrowed
  else
    let g := s.group e.group.toNat
    if e.epoch = g.wepoch then .work
    else if (e.epoch - g.gepoch).sle 0 then .done
    else .stale

/-- The state of entry `i` of bank `b`. -/
def State.estateAt (s : State) (b i : Nat) : EState := s.estate (s.entry (512 * b + i))

/-- The lowest-numbered entry of bank `b` in state `st`. -/
def State.findState (s : State) (b : Nat) (st : EState) : Option Nat :=
  firstBelow (fun i => decide (s.estateAt b i = st)) 512

/-- The entry of bank `b` that names home row `h` and is neither FREE nor BORROWED (R86). -/
def State.entryFor (s : State) (b h : Nat) : Option Nat :=
  firstBelow (fun i => decide ((s.entry (512 * b + i)).home.toNat = h) &&
    !decide (s.estateAt b i = .free) && !decide (s.estateAt b i = .borrowed)) 512

/-- The physical home row of `h`: the twin row of the BORROWED entry that names it, else `h` itself (R88). -/
def State.homeRow (s : State) (b h : Nat) : Nat :=
  match firstBelow (fun i => decide ((s.entry (512 * b + i)).home.toNat = h) && decide (s.estateAt b i = .borrowed)) 512 with
  | some i => 4096 + i
  | none => h

/-- The row that holds the committed version: the twin row of the DONE entry, else the home row (R87). -/
def State.committedRow (s : State) (b h : Nat) : Nat :=
  match s.entryFor b h with
  | some i => if s.estateAt b i = .done then 4096 + i else s.homeRow b h
  | none => s.homeRow b h

/-- The row an access of the view reads (the read columns of Table 3.5): 0 PLAIN, 1 PRIOR, 2 CURRENT of group `g`. -/
def State.readRowOf (s : State) (view : BitVec 2) (g : Nat) (b h : Nat) : Nat :=
  match s.entryFor b h with
  | none => s.homeRow b h
  | some i =>
    match s.estateAt b i with
    | .done => 4096 + i
    | .work =>
      if view = 1 then s.homeRow b h
      else if view = 0 then 4096 + i
      else if (s.entry (512 * b + i)).group.toNat = g then 4096 + i else s.homeRow b h
    | _ => s.homeRow b h

/-- How many entries of bank `b` are in state `st`. -/
def State.countState (s : State) (b : Nat) (st : EState) : Nat :=
  (List.range 512).countP (fun i => decide (s.estateAt b i = st))

/-- Is bank `b` below LOWMARK (R559)? -/
def State.lowBank (s : State) (b : Nat) : Bool :=
  decide (s.countState b .free + s.countState b .done + s.countState b .stale < s.fld EPC_CTL_LOWMARK)

/-- EPC_STAT.LOW after a change to bank `b` (R559). -/
def checkLow (b : Nat) (s : State) : State := if s.lowBank b then s.raiseBit EPC_STAT_LOW else s

/-- EPC_STAT.LOW while some remap table is below LOWMARK (R559): a table with no entry in use is not. -/
def recheckLow (s : State) : State := ((s.epc.remap.map (fun e => e.1 / 512)).eraseDups).foldl (fun s b => checkLow b s) s

/-- Entry `i` of bank `b` becomes FREE. -/
def freeEntry (b i : Nat) (s : State) : State := s.setEntry (512 * b + i) Entry.free

/-- What reading a twin row to fold it finds: a single-bit error is corrected, an uncorrectable one logged for port class 3. -/
def foldCheck (k : Nat) (s : State) : State :=
  match s.rowEcc k with
  | some .single => correctRow k s
  | some .double => logUe k 3 s
  | none => s

/-- Physical row `h` is uncorrectable when `bad`. -/
def spoilRow (h : Nat) (bad : Bool) (s : State) : State :=
  if bad then { s with mem := { s.mem with ecc := Tbl.set none h (some Ecc.double) s.mem.ecc } } else s

/-- Copies the data and tag of physical row `k` to physical row `h`; with `bad`, the copy is uncorrectable as well. -/
def foldCopy (k h : Nat) (bad : Bool) (s : State) : State :=
  spoilRow h bad (s.setRow h (s.rowData k) (s.rowTag k))

/-- R91: the twin row of DONE entry `i` is copied to its home row, with its tag, and the entry is freed; an uncorrectable twin row
is copied as it is and logged. -/
def foldEntry (b i : Nat) (s : State) : State :=
  let k := s.rowKey b (4096 + i)
  freeEntry b i (foldCopy k (s.rowKey b (s.homeRow b (s.entry (512 * b + i)).home.toNat)) (s.rowEcc k = some .double) (foldCheck k s))

/-- The entry a new working version takes (R90): the lowest FREE, else the lowest STALE, else the lowest DONE after its fold. -/
def allocEntry (b : Nat) (s : State) : Option (Nat × State) :=
  match s.findState b .free with
  | some i => some (i, tally 4 0 0 1 s)
  | none => match s.findState b .stale with
    | some i => some (i, tally 4 0 0 1 (freeEntry b i s))
    | none => match s.findState b .done with
      | some i => some (i, tally 4 0 0 1 (tally 4 0 1 1 (foldEntry b i s)))
      | none => none

/-- The cause of an epoch-capacity fault in bank `b` for a writer of group `g` (Table 3.6). -/
def State.capCause (s : State) (b g : Nat) : Nat :=
  match firstBelow (fun i => decide (s.estateAt b i = .work) && !decide ((s.entry (512 * b + i)).group.toNat = g)) 512 with
  | some _ => 0
  | none => 1

/-- Is there an entry a new working version can take (R90)? -/
def State.canAlloc (s : State) (b : Nat) : Bool :=
  (s.findState b .free).isSome || (s.findState b .stale).isSome || (s.findState b .done).isSome

/-- The state of entry `e` to access `a`: a version of the group-epoch that a late write belongs to is still WORK to it (R33; DEDUCED:
assumption 93). -/
def State.estateTo (s : State) (a : Access) (e : Entry) : EState :=
  if e.valid = true ∧ e.borrowed = false ∧ e.group = a.group ∧ a.late = some e.epoch then .work else s.estate e

/-- The group-epoch a version that access `a` creates is tagged with (R33, R82). -/
def State.epochOf (s : State) (a : Access) : BitVec 32 := a.late.getD (s.group a.group.toNat).wepoch

/-- The fault, or refusal, that Table 3.5, R90 and R111 give a write by access `a`: none when the write takes effect. A
write accepted before the freeze flip and granted while FROZEN is 1 is refused too (DESIGN CHOICE: assumption 92). -/
def State.refusal (s : State) (a : Access) : Option MemRes :=
  let b := bankOf s.build a.gran
  if s.on EPC_STAT_FROZEN then some .frozen
  else match s.entryFor b (homeOf s.build a.gran) with
  | none => if a.view = 2 ∧ s.canAlloc b = false then some (.capacity (s.capCause b a.group.toNat)) else none
  | some i =>
    if s.estateTo a (s.entry (512 * b + i)) = .work then
      let e := s.entry (512 * b + i)
      if a.view ≠ 2 then some (.conflict 2)
      else if e.group ≠ a.group then some (.conflict 1)
      else if e.owner ≠ a.owner then some (.conflict 0)
      else none
    else none

/-- What the performance monitor counts of a refused write. -/
def countRefusal (r : MemRes) (s : State) : State :=
  match r with
  | .capacity _ => tally 4 0 3 1 s
  | .conflict _ => tally 4 0 4 1 s
  | _ => s

/-- The row a write of fewer than 16 bytes merges with: the twin row of the writer's own version, else the committed version (R54, R92). -/
def State.writeBase (s : State) (a : Access) : Nat :=
  let b := bankOf s.build a.gran
  let h := homeOf s.build a.gran
  match s.entryFor b h with
  | some i => if s.estateTo a (s.entry (512 * b + i)) = .work then 4096 + i else s.committedRow b h
  | none => s.committedRow b h

/-- The granule a write of the enabled bytes of `d` leaves, by a port of class `pc`: a write of all 16 bytes reads nothing (R54, R92); another
reads row `src` of bank `b` and merges, none when that row is uncorrectable (R57). -/
def mergeFrom (b src pc : Nat) (d : Gran) (be : BitVec 16) (s : State) : Option Gran × State :=
  if be = 0xFFFF then (some d, s)
  else match fetchRow (s.rowKey b src) pc s with
    | (none, s') => (none, s')
    | (some (old, _), s') => (some (mergeGran old d be), s')

/-- Row `row` of logical bank `b` takes data and tag. -/
def putRow (b row : Nat) (d : Gran) (tag : Bool) (s : State) : State := s.setRow (s.rowKey b row) d tag

/-- A CURRENT write creates or revives a working version in entry `i` of bank `b`, for home row `h` (R92, R93): tag (g, WEPOCH, o), WEPOCH that
of before the flip for a late write (R33). -/
def createVersion (a : Access) (b h i : Nat) (d : Gran) (tag : Bool) (s : State) : State :=
  checkLow b ((putRow b (4096 + i) d tag s).setEntry (512 * b + i)
    { home := BitVec.ofNat 12 h, group := a.group, epoch := s.epochOf a, owner := a.owner,
      valid := true, borrowed := false })

/-- The write columns of Table 3.5 for a write that is not refused: granule `d` takes the place its view gives it. -/
def placeGranule (a : Access) (d : Gran) (tag : Bool) (s : State) : State :=
  let b := bankOf s.build a.gran
  let h := homeOf s.build a.gran
  match s.entryFor b h with
  | none =>
    if a.view = 2 then
      match allocEntry b s with
      | some (i, s') => createVersion a b h i d tag s'
      | none => s
    else putRow b (s.homeRow b h) d tag s
  | some i =>
    if s.estateTo a (s.entry (512 * b + i)) = .work then putRow b (4096 + i) d tag s
    else
      let s' := if s.estateAt b i = .done then tally 4 0 1 1 (foldEntry b i s) else freeEntry b i s
      if a.view = 2 then createVersion a b h i d tag s' else putRow b (s'.homeRow b h) d tag s'

/-- A PLAIN write reaches every view (R94): the versions kept for PRIOR reads of its granule that wait take its enabled bytes (R52). -/
def keptWrite (a : Access) (d : Gran) (be : BitVec 16) (tag : Bool) (s : State) : State :=
  if a.view = 2 then s
  else { s with arb := { s.arb with reqs := s.arb.reqs.map (fun r =>
    if r.acc.gran = a.gran then { r with pre := r.pre.map (fun p => { p with data := mergeGran p.data d be, tag := tag }) } else r) } }

/-- A write of the enabled bytes of `d` into the granule of access `a` (Table 3.5): a refused one, and one whose merge meets an uncorrectable
row, changes no row and no entry (R57, R92, R94). -/
def writeGranule (a : Access) (d : Gran) (be : BitVec 16) (tag : Bool) (s : State) : MemRes × State :=
  match s.refusal a with
  | some r => (r, countRefusal r s)
  | none =>
    let b := bankOf s.build a.gran
    match mergeFrom b (s.writeBase a) (portClass a.port) d be s with
    | (none, s') => (.ue, s')
    | (some x, s') => (.ok x tag, placeGranule a x tag (keptWrite a d be tag s'))

/-- The read columns of Table 3.5. -/
def readGranule (a : Access) (s : State) : MemRes × State :=
  let b := bankOf s.build a.gran
  let row := s.readRowOf a.view a.group.toNat b (homeOf s.build a.gran)
  match fetchRow (s.rowKey b row) (portClass a.port) s with
  | (some (d, t), s') => (.ok d t, s')
  | (none, s') => (.ue, s')

/-- Word `i` of a granule. -/
def granWord (d : Gran) (i : Nat) : Word := d.extractLsb' (16 * (i % 8)) 16

/-- Byte enables and data that put word `v` at word `i` of a granule. -/
def wordBe (i : Nat) : BitVec 16 := BitVec.ofNat 16 (3 * 2 ^ (2 * (i % 8)))
def wordData (i : Nat) (v : Word) : Gran := BitVec.ofNat 128 (v.toNat * 2 ^ (16 * (i % 8)))

/-- The core whose access it is. -/
def Dest.core? : Dest → Option CoreId
  | .core c _ => some c
  | _ => none

/-- A write has landed on unified granule `ug` (word address div 8): every reservation on it is cleared (R218), and every supervisor
context that waits on it is released (R346). -/
def landed (ug : Nat) (s : State) : State :=
  let s := { s with cores := Tbl.mapVal Core.init (fun _ c => if c.rsv = some ug then { c with rsv := none } else c) s.cores }
  { s with ctxs := Tbl.mapVal Ctx.init (fun k x =>
      if 0x4000 < k ∧ k < 0x4005 ∧ x.state = .wait ∧ x.warm ∧ x.watch = ug then { x with state := .ready, warm := false }
      else x) s.ctxs }

/-- One access performed whole (R93, R94): its result and the state after it. TAS answers the old granule and writes 0xFFFF to
its word (R246); SC stores only while the core's reservation names the granule (R247, R218). -/
def perform (a : Access) (s : State) : MemRes × State :=
  match a.kind with
  | .read => readGranule a s
  | .lr =>
    match readGranule a s with
    | (.ok d t, s') => (.ok d t,
        match a.dest.core? with
        | some c => s'.setCore c { s'.core c with rsv := some a.gran }
        | none => s')
    | r => r
  | .write d be t =>
    match writeGranule a d be t s with
    | (.ok x t', s') => (.ok x t', landed a.gran s')
    | r => r
  | .tas i =>
    let b := bankOf s.build a.gran
    let old := s.rowData (s.rowKey b (s.writeBase a))
    match writeGranule a (wordData i 0xFFFF) (wordBe i) false s with
    | (.ok _ _, s') => (.ok old false, landed a.gran s')
    | r => r
  | .sc i v =>
    match a.dest.core? with
    | some c =>
      if (s.core c).rsv = some a.gran then
        match writeGranule a (wordData i v) (wordBe i) false s with
        | (.ok _ _, s') => (.ok 1 false, landed a.gran (s'.setCore c { s'.core c with rsv := none }))
        | r => r
      else (.ok 0 false, s.setCore c { s.core c with rsv := none })
    | none => (.ok 0 false, s)
  | .fold => (.ok 0 false, s)

end Sys2Proof.Machine
end

