-- ==== Sys2Proof/Machine/Smem.lean ====
section
/-! DEFINITION. Stream memory's arbiters, scrubber and initialiser, the flip, leases, freeze, group commands and background reclaim
(chapters 02 and 03): what happens to a request between its arrival at EPC and its grant. -/

namespace Sys2Proof.Machine

/-! ### Requests -/

/-- Does access `a` write? -/
def Access.writes (a : Access) : Bool :=
  match a.kind with
  | .read | .lr | .fold => false
  | .write .. | .tas _ | .sc .. => true

/-- Is group `g` in flip set `f`? -/
def inFlip (f : BitVec 64) (g : Nat) : Bool := f.getLsbD g

/-- Is it a committed-view read whose answer carries a stamp: of the host, or of a peer (R101, Table 3.2)? -/
def Access.stamped (a : Access) : Bool :=
  decide (a.view = 1) && (match a.dest with
    | .npxRd .. | .frame .. => true
    | _ => false)

/-- Does the outcome of read `a` depend on a group of flip set `f`, as that of a committed-view read does on the group that stamps it
(R97, R34)? -/
def State.readWaits (s : State) (f : BitVec 64) (a : Access) : Bool :=
  let b := bankOf s.build a.gran
  (match s.entryFor b (homeOf s.build a.gran) with
    | some i => inFlip f (s.entry (512 * b + i)).group.toNat
    | none => false) || (a.stamped && inFlip f (s.stamp (a.gran / 4096)).toNat)

/-- Does EPC hold access `a`: during a flip every write unless stream memory is frozen, and a read that depends on the flip (R97, R34, R111);
and an access behind one of its port to the same granule that is held (R52)? -/
def State.holds (s : State) (a : Access) : Bool :=
  match s.epc.flip with
  | none => false
  | some f =>
    if a.kind = .fold then false
    else (if a.writes then !s.on EPC_STAT_FROZEN else s.readWaits f.set a) ||
      s.arb.held.any (fun x => decide (x.port = a.port) && decide (x.gran = a.gran))

/-- A request enters its arbiter's queue with AGE 0. -/
def enqueue (a : Access) (s : State) : State :=
  { s with arb := { s.arb with
      reqs := s.arb.reqs ++ [{ id := s.arb.nextId, acc := a, age := 0, urgent := none, pre := none }],
      nextId := s.arb.nextId + 1 } }

/-- A requester presents a granule request: EPC holds it or passes it to the arbiter (R34, R97). -/
def present (a : Access) (s : State) : State :=
  if s.holds a then { s with arb := { s.arb with held := s.arb.held ++ [a] } } else enqueue a s

/-- Requests that satisfy `p` are withdrawn, waiting, held or granted and undelivered (DESIGN CHOICE for those that EPC holds: assumption 90). -/
def withdraw (p : Dest → Bool) (s : State) : State :=
  { s with arb := { s.arb with reqs := s.arb.reqs.filter (fun r => !p r.acc.dest),
                               held := s.arb.held.filter (fun a => !p a.dest),
                               granted := s.arb.granted.filter (fun g => !p g.dest),
                               ended := s.arb.ended.filter (fun e => !p e.1) } }

/-- Of the requests in arrival order, the first of each port: those that stand in the arbiter (R47). -/
def firstPerPort : List Req → List Nat → List Req
  | [], _ => []
  | r :: rs, seen => if r.acc.port ∈ seen then firstPerPort rs seen else r :: firstPerPort rs (r.acc.port :: seen)

/-- The requests in the arbiter of bank `b`. -/
def State.inArb (s : State) (b : Nat) : List Req :=
  firstPerPort (s.arb.reqs.filter (fun r => decide (bankOf s.build r.acc.gran = b))) []

/-- The base priority of a requester port (Table 2.4). -/
def State.basePrio (s : State) (p : Nat) : Nat :=
  let c := portClass p
  if c = 1 then s.fld SMEM_ARB_HIF else if c = 2 then s.fld SMEM_ARB_WIAN else if c = 3 then 1
  else if c = 4 then s.fld SMEM_ARB_POD_ST else if c = 5 then s.fld SMEM_ARB_POD_LD
  else if c = 6 ∨ c = 7 then s.fld SMEM_ARB_SEQ else if c = 8 then s.fld SMEM_ARB_BMP else 0

/-- Is `x` served before `y` (R50)? -/
def State.beats (s : State) (x y : Req) : Bool :=
  match x.urgent, y.urgent with
  | some i, some j => if i = j then decide (x.acc.port < y.acc.port) else decide (i < j)
  | some _, none => true
  | none, some _ => false
  | none, none =>
    let step := s.fld SMEM_ARB_AGE_STEP
    let px := s.basePrio x.acc.port + x.age / step
    let py := s.basePrio y.acc.port + y.age / step
    if px ≠ py then decide (py < px) else if x.age ≠ y.age then decide (y.age < x.age) else decide (x.acc.port < y.acc.port)

/-- The request the arbiter of bank `b` grants next. -/
def State.winner (s : State) (b : Nat) : Option Req :=
  (s.inArb b).foldl (fun w r => match w with
    | none => some r
    | some x => if s.beats r x then some r else some x) none

/-- The waiting requests after `w` wins bank `b`: every other request in the arbiter ages by 1, to 15, where it is urgent (R49). -/
def State.agedReqs (s : State) (b : Nat) (w : Req) : List Req :=
  let ids := (s.inArb b).map Req.id
  (s.arb.reqs.filter (fun r => decide (r.id ≠ w.id))).map (fun r =>
    if r.id ∈ ids then
      { r with age := min (r.age + 1) 15,
               urgent := if r.urgent.isNone ∧ 14 ≤ r.age then some s.arb.arbs else r.urgent }
    else r)

/-- One scrub access to physical row `k` (R59): a single-bit error and a disagreeing tag copy are corrected, an uncorrectable error logged. -/
def scrubKey (k : Nat) (s : State) : State :=
  let s := correctTag k s
  match s.rowEcc k with
  | some .single => correctRow k s
  | some .double => (logUe k 9 s).raiseBit SMEM_ERR_STAT_SCRUB_UE
  | none => s

/-- The read of a PRIOR version accepted before a flip (R34): from its row, with its check bits, while the row still holds it; from the
version kept once the row holds another. -/
def priorRead (p : Prior) (port : Nat) (s : State) : MemRes × State :=
  if s.rowData p.row = p.data ∧ s.rowTag p.row = p.tag then
    match fetchRow p.row (portClass port) s with
    | (some (d, t), s') => (.ok d t, s')
    | (none, s') => (.ue, s')
  else (.ok p.data p.tag, s)

/-- What a granted request does: a background fold folds its entry while it is still DONE, a scrub checks its row, a PRIOR read accepted
before a flip returns the version of then, and every other access is performed. -/
def performReq (w : Req) (s : State) : MemRes × State :=
  match w.acc.kind, w.acc.dest, w.pre with
  | .fold, .reclaim b i, _ =>
    let s := { s with epc := { s.epc with folding := Tbl.set false b false s.epc.folding } }
    (.ok 0 false, if s.estateAt b i = .done then tally 4 0 2 1 (foldEntry b i s) else s)
  | .fold, .scrub k, _ => (.ok 0 false, scrubKey k s)
  | .read, _, some p => priorRead p w.acc.port s
  | _, _, _ => perform w.acc s

/-- A grant of bank `b` (R50): the winner, its result and the state with the access performed. -/
def grantBank (b : Nat) (upsets : List Upset) (s : State) : Option (Req × MemRes × State) :=
  if s.mem.init.isSome then none
  else match s.winner b with
    | none => none
    | some w =>
      let s := { s with arb := { s.arb with reqs := s.agedReqs b w, arbs := s.arb.arbs + 1 } }
      let s := tally 3 (b / 127) 1 w.urgent.isSome.toNat (tally 3 (b / 127) 0 1 s)
      let (r, s) := performReq w (strike b upsets s)
      some (w, r, s)

/-! ### Accesses that a unit waits for -/

/-- How the access of `d` ended, once it has. -/
def State.endedOf (s : State) (d : Dest) : Option MemRes := (s.arb.ended.find? (fun e => decide (e.1 = d))).map Prod.snd

/-- Is the access of `d` waiting at its arbiter or held by EPC? -/
def State.underway (s : State) (d : Dest) : Bool :=
  s.arb.reqs.any (fun r => decide (r.acc.dest = d)) || s.arb.held.any (fun a => decide (a.dest = d))

/-- The access of `d` has ended with `r`; its unit takes that from here. -/
def noteEnd (d : Dest) (r : MemRes) (s : State) : State := { s with arb := { s.arb with ended := s.arb.ended ++ [(d, r)] } }

/-- The access that a unit needs next: presented unless it is waiting or has ended, and granted where its arbiter takes it at once, ahead of
every request that waits there (R50; DESIGN CHOICE: assumption 86). -/
def ask (us : List Upset) (s : State) (a : Access) : State :=
  if (s.endedOf a.dest).isSome ∨ s.underway a.dest then s
  else
    let id := s.arb.nextId
    let s := present a s
    let b := bankOf s.build a.gran
    match s.winner b with
    | some w =>
      if w.id = id ∧ s.islandOn (17 + b / 127) then
        match grantBank b us s with
        | some (_, r, s') => noteEnd a.dest r s'
        | none => s
      else s
    | none => s

/-- The accesses that a unit needs together, in order: their results once all have ended. -/
def askAll (as : List Access) (us : List Upset) (s : State) : Option (List MemRes) × State :=
  let s := as.foldl (ask us) s
  let rs := as.filterMap (fun a => s.endedOf a.dest)
  (if rs.length = as.length then some rs else none, s)

/-- The data of the accesses that succeeded, 0 for the others; and index and result of the first that failed. -/
def MemRes.data : MemRes → Gran
  | .ok d _ => d
  | _ => 0
def MemRes.good : MemRes → Bool
  | .ok .. => true
  | _ => false
def firstBad (rs : List MemRes) : Option (Nat × MemRes) :=
  ((rs.mapIdx (fun i r => (i, r))).filter (fun x => !x.2.good)).head?

/-! ### Initialiser and scrubber -/

/-- Every physical row below `n` of every bank zeroed, with valid check bits and clear tags (R60, R74). -/
def zeroRows (n : Nat) (s : State) : State :=
  { s with mem := { s.mem with bytes := Tbl.keep (fun k => decide (n ≤ k / 16 % 4608)) s.mem.bytes,
                               tags := Tbl.keep (fun k => decide (n ≤ k % 4608)) s.mem.tags,
                               odd := Tbl.keep (fun k => decide (n ≤ k % 4608)) s.mem.odd,
                               ecc := Tbl.keep (fun k => decide (n ≤ k % 4608)) s.mem.ecc } }

/-- A write of 1 to SMEM_CFG.INIT (R60); ignored while it runs, and while stream memory is frozen (R111). -/
def startInit (s : State) : State :=
  if s.mem.init.isSome ∨ s.on EPC_STAT_FROZEN then s
  else { s.setFld SMEM_CFG_INIT 1 with mem := { s.mem with init := some 0 } }

/-- The initialiser writes its last row (R60). -/
def finishInit (s : State) : State :=
  match s.mem.init with
  | none => s
  | some _ =>
    let s := zeroRows 4608 s
    { s.setFld SMEM_CFG_INIT 0 with mem := { s.mem with init := none } }

/-- The scrub of row `r` of bank `b`, for whose arbiter other requests wait: the scrubber waits there too, at the lowest priority and the last
port (Table 2.4). -/
def scrubLater (r : Nat) (s : State) (b : Nat) : State :=
  enqueue { dest := .scrub (s.rowKey b r), port := 73, gran := granOf s.build (b / 127) (b % 127) 0, view := 0, group := 0, owner := 0,
            kind := .fold } s

/-- The scrub of row `r` of every physical memory bank (R59): at once where no request waits for the bank, in ascending order of the rows
(DESIGN CHOICE for the order in which the errors of one scrub access are found: assumption 87). -/
def scrubRow (r : Nat) (s : State) : State :=
  let banks := (s.arb.reqs.map (fun x => bankOf s.build x.acc.gran)).eraseDups
  let later := banks.map (fun b => s.rowKey b r)
  let s := (List.range s.build.slices).foldl (fun s i => tally 3 i 0 (128 - (banks.filter (fun b => decide (b / 127 = i))).length) s) s
  let marks := s.mem.odd.foldl (fun t e => Tbl.set false e.1 true t) (s.mem.ecc.map (fun e => (e.1, true)))
  let s := ((Tbl.keys marks).filter (fun k => decide (k % 4608 = r) && !later.contains k)).foldl (fun s k => scrubKey k s) s
  banks.foldl (scrubLater r) s

/-- The scrubber's next access, when SCRUB_EN is 1 and its interval is over (R59); it waits while the initialiser runs (R60). -/
def scrubOnce (upsets : List Upset) (s : State) : State :=
  if s.on SMEM_CFG_SCRUB_EN ∧ s.mem.scrubIn = 0 ∧ s.mem.init.isNone then
    let r := s.mem.scrubRow
    let s := strikeKeys (upsets.filter (fun u => decide (u.row % 4608 = r ∧ u.row < s.build.slices * 128 * 4608))) s
    let s := scrubRow r s
    { s with mem := { s.mem with scrubRow := (r + 1) % 4608, scrubIn := 2 ^ s.fld SMEM_CFG_SCRUB_SHIFT } }
  else s

/-! ### Groups, leases and the flip -/

/-- Is some lease on group `g` HELD? -/
def State.leased (s : State) (g : Nat) : Bool :=
  (List.range 4).any (fun n => s.on (EPC_LEASE_CTL_HELD n) && decide (s.fld (EPC_LEASE_CTL_GROUP n) = g))

/-- Every lease on group `g` ends: HELD clears and EXPIRED sets (R107). -/
def expireLeases (g : Nat) (s : State) : State :=
  (List.range 4).foldl (fun s n =>
    if s.on (EPC_LEASE_CTL_HELD n) ∧ s.fld (EPC_LEASE_CTL_GROUP n) = g then
      (s.clearFld (EPC_LEASE_CTL_HELD n)).raiseBit (EPC_LEASE_CTL_EXPIRED n) else s) s

/-- One group at cycle 0 of a flip (R96, R107): the state after it, and whether the group flips. -/
def flipGroup (g : Nat) (s : State) : State × Bool :=
  let x := s.group g
  if x.opens = 0 ∧ x.sweep = false then
    if x.deferred then
      let s := expireLeases g s
      (tally 4 0 5 1 (s.setGroup g { x with deferred := false, gepoch := x.wepoch, wepoch := x.wepoch + 1 }), true)
    else if s.leased g then (s.setGroup g { x with deferred := true }, false)
    else (tally 4 0 5 1 (s.setGroup g { x with gepoch := x.wepoch, wepoch := x.wepoch + 1 }), true)
  else (s, false)

/-- The groups `g` to 63 at cycle 0 of a flip, and the flip set they form. -/
def flipFrom : Nat → State → State × BitVec 64
  | 0, s => (s, 0)
  | n + 1, s =>
    let (s, f) := flipFrom n s
    let (s, y) := flipGroup n s
    (s, if y then f ||| (1 <<< n) else f)

/-- PRIOR reads that stream memory accepted before the flip keep the pre-flip version (R34). -/
def capturePrior (s : State) : State :=
  { s with arb := { s.arb with reqs := s.arb.reqs.map (fun r =>
      if r.acc.kind = .read ∧ r.acc.view = 1 ∧ r.pre.isNone then
        let b := bankOf s.build r.acc.gran
        let k := s.rowKey b (s.committedRow b (homeOf s.build r.acc.gran))
        { r with pre := some { row := k, data := s.rowData k, tag := s.rowTag k } }
      else r) } }

/-- Epoched writes that EPC accepted before a flip of their group belong to the group-epoch it ends (R33); `s0` is the state before it, `f` the
flip set. -/
def keepEpochs (s0 : State) (f : BitVec 64) (s : State) : State :=
  { s with arb := { s.arb with reqs := s.arb.reqs.map (fun r =>
      if r.acc.writes ∧ r.acc.view = 2 ∧ inFlip f r.acc.group.toNat ∧ r.acc.late.isNone then
        { r with acc := { r.acc with late := some (s0.group r.acc.group.toNat).wepoch } }
      else r) } }

/-- Cycle 0 to 64 of a flip (Table 3.8): the flip set is formed and its groups advance; EPC begins to hold accesses. -/
def startFlip (freeze swaps : Bool) (s : State) : State :=
  let s0 := capturePrior s
  let (s, f) := flipFrom 64 s0
  let s := keepEpochs s0 f s
  let s := s.setReg64 EPC_FLIPPED_LO EPC_FLIPPED_HI 0
  { s.raiseBit EPC_STAT_FLIP_BUSY with
    epc := { s.epc with flip := some { set := f, freeze := freeze, swaps := swaps, tb := s.clk.tb } } }

/-- The flip of a tick instant: TSEQ counts it at its cycle 0; while the freeze flip runs it waits for its release (R110). -/
def tickFlip (s : State) : State :=
  match s.epc.flip with
  | some _ => { s with epc := { s.epc with tickWait := true } }
  | none => startFlip false true (s.setFld EPC_STAT_TSEQ (s.fld EPC_STAT_TSEQ + 1))

/-- A freeze request (R110): at the first one the freeze flip starts at once, or at the release of a running tick flip. EPC_CTL.FREEZE reads 1
from then on, whichever source asked (DESIGN CHOICE: assumption 88). -/
def requestFreeze (s : State) : State :=
  if s.on EPC_CTL_FREEZE then s
  else
    let s := s.setFld EPC_CTL_FREEZE 1
    match s.epc.flip with
    | some _ => { s with epc := { s.epc with freezeWait := true } }
    | none => startFlip true false s

/-- The grant of lease `n` (R105). -/
def grantLease (n : Nat) (s : State) : State :=
  let g := s.fld (EPC_LEASE_CTL_GROUP n)
  let s := (s.clearFld (EPC_LEASE_CTL_TAKE n)).raiseBit (EPC_LEASE_CTL_HELD n)
  let s := s.setReg (EPC_LEASE_EPOCH n) (s.group g).gepoch
  let s := s.setFld (EPC_LEASE_CTL_TSEQ n) (s.fld EPC_STAT_TSEQ)
  s.setReg64 (EPC_LEASE_FLIPS_LO n) (EPC_LEASE_FLIPS_HI n) (s.reg64 EPC_FLIPS_LO EPC_FLIPS_HI)

/-- A request for lease `n` on group `g` (R104, R106): granted at once outside a flip, at the release inside one. -/
def takeLease (n : Nat) (g : BitVec 6) (s : State) : State :=
  if s.on (EPC_LEASE_CTL_HELD n) ∨ s.on (EPC_LEASE_CTL_TAKE n) then s
  else
    let s := (s.setFld (EPC_LEASE_CTL_GROUP n) g.toNat).setFld (EPC_LEASE_CTL_TAKE n) 1
    if s.epc.flip.isSome then s else grantLease n s

/-- The release of lease `n` (R106). -/
def releaseLease (n : Nat) (s : State) : State := s.clearFld (EPC_LEASE_CTL_HELD n)

/-- Raises E(304 + g) for every group below `n` in flip set `f`. -/
def raiseFlips (f : BitVec 64) : Nat → State → State
  | 0, s => s
  | n + 1, s =>
    let s := raiseFlips f n s
    if f.getLsbD n then raise (304 + n) s else s

/-- The release of the running flip `f` (cycles 65–96 of Table 3.8, R97, R110, R114): FLIPPED and FLIPS are written, events raised,
leases granted, FROZEN set by the freeze flip, and the held accesses reach their arbiters in arrival order with AGE 0; the writes among them
are refused at the release of the freeze flip (R111). -/
def releaseFlip (f : Flip) (s : State) : State × List Access :=
  let s := s.setReg64 EPC_FLIPPED_LO EPC_FLIPPED_HI f.set
  let s := s.setReg64 EPC_FLIPS_LO EPC_FLIPS_HI (s.reg64 EPC_FLIPS_LO EPC_FLIPS_HI + 1)
  let s := raiseFlips f.set 64 s
  let s := s.clearFld EPC_STAT_FLIP_BUSY
  let s := { s with epc := { s.epc with flip := none } }
  let s := if f.freeze then s.raiseBit EPC_STAT_FROZEN else s
  let s := (List.range 4).foldl (fun s n => if s.on (EPC_LEASE_CTL_TAKE n) then grantLease n s else s) s
  let refused := if f.freeze then s.arb.held.filter Access.writes else []
  let held := s.arb.held.filter (fun a => !(f.freeze && a.writes))
  let s := held.foldl (fun s a => enqueue a s) { s with arb := { s.arb with held := [] } }
  (if s.epc.freezeWait then startFlip true false { s with epc := { s.epc with freezeWait := false } }
    else if s.epc.tickWait then
      startFlip false false ({ s with epc := { s.epc with tickWait := false } }.setFld EPC_STAT_TSEQ (s.fld EPC_STAT_TSEQ + 1))
    else s, refused)

/-- EPC_GCMD (R83, R84): an accepted ADMIT. -/
def gcmdAdmit (g : BitVec 6) (s : State) : State :=
  let x := s.group g.toNat
  if x.deferred ∨ x.sweep ∨ x.opens = 0xFFFF then s.raiseBit EPC_STAT_CMD_REF
  else s.setGroup g.toNat { x with opens := x.opens + 1 }

/-- EPC_GCMD DONE (R83). -/
def gcmdDone (g : BitVec 6) (s : State) : State :=
  let x := s.group g.toNat
  if x.opens = 0 ∨ x.sweep then s.raiseBit EPC_STAT_CMD_REF
  else s.setGroup g.toNat { x with opens := x.opens - 1 }

/-- EPC_GCMD DISCARD (R83, R84), whether it is accepted, and its effect in EPC. -/
def State.discardOk (s : State) (g : BitVec 6) : Bool :=
  !decide ((s.group g.toNat).opens = 0) && !(s.group g.toNat).sweep

def gcmdDiscard (g : BitVec 6) (s : State) : State :=
  let x := s.group g.toNat
  if s.discardOk g then s.setGroup g.toNat { x with wepoch := x.wepoch + 1, sweep := true }
  else s.raiseBit EPC_STAT_CMD_REF

/-- Every STALE entry of group `g` is freed (R84). -/
def freeStale (g : Nat) (s : State) : State :=
  { s with epc := { s.epc with remap := Tbl.mapVal Entry.free (fun _ e =>
      if e.group.toNat = g ∧ s.estate e = .stale then Entry.free else e) s.epc.remap } }

/-- The sweep of group `g` ends (R84). -/
def sweepDone (g : Nat) (s : State) : State :=
  if (s.group g).sweep then
    let s := freeStale g s
    s.setGroup g { s.group g with sweep := false }
  else s

/-- One visit of the background walk of bank `b` (R98): a STALE entry is freed, a DONE entry's fold requested. -/
def reclaimVisit (b : Nat) (s : State) : State :=
  if s.on EPC_CTL_BG_EN ∧ Tbl.get false b s.epc.folding = false ∧ b < 127 * s.build.slices then
    let i := Tbl.get 0 b s.epc.walk
    let s := { s with epc := { s.epc with walk := Tbl.set 0 b ((i + 1) % 512) s.epc.walk } }
    match s.estateAt b i with
    | .stale => freeEntry b i s
    | .done =>
      let s := { s with epc := { s.epc with folding := Tbl.set false b true s.epc.folding } }
      enqueue { dest := .reclaim b i, port := 2, view := 0, group := 0, owner := 0, kind := .fold,
                gran := granOf s.build (b / 127) (b % 127) (s.entry (512 * b + i)).home.toNat } s
    | _ => s
  else s

end Sys2Proof.Machine
end

