-- ==== Sys2Proof/Machine/Operands.lean ====
section
/-! DEFINITION. What an instruction of a Sprin core works on: the registers, stack bank and capability registers of the running
level, the fields of a capability, address formation, and the checks of R195 in their order. -/

namespace Sys2Proof.Machine

/-! ### Capability fields (Tables 9.1 and 9.2) -/

def Cap.field (c : Cap) (lo w : Nat) : Nat := bitsOf c.bits.toNat lo w
def Cap.base (c : Cap) : Nat := c.field 0 40
def Cap.length (c : Cap) : Nat := c.field 40 32
def Cap.perm (c : Cap) : Nat := c.field 72 16
def Cap.group (c : Cap) : BitVec 6 := c.bits.extractLsb' 88 6
def Cap.view (c : Cap) : BitVec 2 := c.bits.extractLsb' 94 2
def Cap.otype (c : Cap) : Nat := c.field 96 8
def Cap.owner (c : Cap) : Nat := c.field 104 14
def Cap.skey (c : Cap) : Nat := c.field 118 8

/-- PERM bit `k` of Table 9.2. -/
def Cap.has (c : Cap) (k : Nat) : Bool := decide (bitsOf c.perm k 1 = 1)

/-- A capability with a field replaced. -/
def Cap.with (c : Cap) (lo w v : Nat) : Cap := { c with bits := BitVec.ofNat 128 (setBitsOf c.bits.toNat lo w v) }

/-- The bits of a capability from its fields. -/
def capBits (base length perm group view otype owner skey : Nat) : BitVec 128 :=
  BitVec.ofNat 128 (base % 2 ^ 40 + (length % 2 ^ 32) * 2 ^ 40 + (perm % 2 ^ 16) * 2 ^ 72 + (group % 64) * 2 ^ 88
    + (view % 4) * 2 ^ 94 + (otype % 256) * 2 ^ 96 + (owner % 2 ^ 14) * 2 ^ 104 + (skey % 256) * 2 ^ 118)

/-- Does the capability count as tagged: an owner that names a logical sequencer not built makes it untagged (R8)? -/
def State.capTagged (s : State) (c : Cap) : Bool := c.tag && decide (c.owner / 512 < s.build.lss)

/-! ### The running level -/

/-- The key of the context live on a core, if one is: n × 512 + slot, 0x4000 + bank, 0x8001 (R242). -/
def State.liveKey (s : State) (c : CoreId) : Option Nat :=
  match c with
  | .seq n => match s.lsOfSeq n, (s.core c).live with
    | some l, some slot => some (l * 512 + slot)
    | _, _ => none
  | .sup => match (s.core c).live with
    | some b => some (0x4000 + b)
    | none => none
  | .moth => some 0x8001

/-- The registers and stack bank of the running level, with the frame bases and the capacities of its bank (Table 6.6). -/
structure View where
  regs  : Regs
  bank  : Bank
  base  : Nat
  rbase : Nat
  ocap  : Nat
  rcap  : Nat
deriving DecidableEq, Repr

/-- The running level of core `c`: the live context at level 0, the handler's registers and frame otherwise. -/
def State.view (s : State) (c : CoreId) : Option View :=
  let k := s.core c
  if k.level = 0 then
    match s.liveKey c with
    | some i => some { regs := (s.ctxAt i).r, bank := (s.ctxAt i).bank, base := 0, rbase := 0, ocap := 16, rcap := 8 }
    | none => none
  else some { regs := k.hr, bank := k.sbh, base := k.base, rbase := k.rbase, ocap := 32, rcap := 16 }

/-- The running level of core `c` takes the registers and bank of `v`. -/
def State.setView (s : State) (c : CoreId) (v : View) : State :=
  let k := s.core c
  if k.level = 0 then
    match s.liveKey c with
    | some i => s.setCtxAt i { s.ctxAt i with r := v.regs, bank := v.bank }
    | none => s
  else s.setCore c { k with hr := v.regs, sbh := v.bank }

/-- Cells live in the running level's part of its bank. -/
def View.depth (v : View) : Nat := v.bank.opd - v.base
def View.rdepth (v : View) : Nat := v.bank.rtd - v.rbase

/-- The cell `i` places below T. -/
def View.cell (v : View) (i : Nat) : Word := Tbl.get 0 (v.bank.opd - 1 - i) v.bank.cells

/-- The return entry `i` places below the top. -/
def View.ret (v : View) (i : Nat) : PC := Tbl.get 0 (v.bank.rtd - 1 - i) v.bank.rets

/-- A cell pushed. -/
def Bank.push (b : Bank) (w : Word) : Bank := { b with cells := Tbl.set 0 b.opd w b.cells, opd := b.opd + 1 }

/-- A return entry pushed. -/
def Bank.rpush (b : Bank) (a : PC) : Bank := { b with rets := Tbl.set 0 b.rtd a b.rets, rtd := b.rtd + 1 }

/-- `p` cells taken, then `out` pushed left to right (as a stack effect is written). -/
def View.eff (v : View) (p : Nat) (out : List Word) : View :=
  { v with bank := out.foldl Bank.push { v.bank with opd := v.bank.opd - p } }

/-- `p` return entries taken, then `out` pushed left to right. -/
def View.reff (v : View) (p : Nat) (out : List PC) : View :=
  { v with bank := out.foldl Bank.rpush { v.bank with rtd := v.bank.rtd - p } }

/-- The flags replaced. -/
def View.flags (v : View) (f : Flags) : View := { v with regs := { v.regs with fl := f } }

/-- Save set `i` of a core: 0 SVT, 1 to 7 SV1 to SV7, 8 SVF, 9 SVD, 10 the monitor save area. -/
def Core.saveSet (k : Core) (i : Nat) : SaveSet := Tbl.get SaveSet.init i k.sv

/-- Does the running level use the registers C0 to C7 of the live context: at context level, and in the monitor of it (R484)? -/
def Core.ctxCaps (k : Core) : Bool :=
  decide (k.level = 0) || (decide (k.level = 12) && decide ((k.saveSet 10).level = 0))

/-- Capability register `r` of the running level (R308, Table 9.6). -/
def State.capReg (s : State) (c : CoreId) (r : Nat) : Cap :=
  let k := s.core c
  if k.ctxCaps then
    match s.liveKey c with
    | some i => Tbl.get Cap.null r (s.ctxAt i).caps
    | none => Cap.null
  else Tbl.get Cap.null (8 * k.cset.toNat + r) k.cs

/-- Capability register `r` of the running level replaced. -/
def State.setCapReg (s : State) (c : CoreId) (r : Nat) (x : Cap) : State :=
  let k := s.core c
  if k.ctxCaps then
    match s.liveKey c with
    | some i => s.setCtxAt i { s.ctxAt i with caps := Tbl.set Cap.null r x (s.ctxAt i).caps }
    | none => s
  else s.setCore c { k with cs := Tbl.set Cap.null (8 * k.cset.toNat + r) x k.cs }

/-! ### Addresses and checks -/

/-- The regions of Table 1.4 and, for the Moth core, Table 6.3. -/
inductive Region where
  | stream
  | scratch
  | regs
  | bulk
  | moth
  | none
deriving DecidableEq, Repr

/-- The region of word address `w` for core `c` (R27, R16). -/
def State.region (s : State) (c : CoreId) (w : Nat) : Region :=
  match c with
  | .moth =>
    if w < 0x4000 then .moth else if 0x100058000 ≤ w ∧ w < 0x100060000 then .regs else .none
  | _ =>
    if w < s.build.granules * 8 then .stream
    else if 0x10000000 ≤ w ∧ w < 0x10000000 + s.build.lss * 0x10000 then .scratch
    else if 0x100000000 ≤ w ∧ w < 0x102000000 then .regs
    else if 0x8000000000 ≤ w ∧ w < 0x10000000000 then .bulk
    else .none

/-- REG byte offset of a word address of the register region. -/
def regOffOfWord (w : Nat) : Nat := (w - 0x100000000) * 2

/-- Is the REG offset inside a hole (R16)? -/
def regHole (off : Nat) : Bool :=
  let p := off / 0x10000
  decide (0x0C ≤ p ∧ p ≤ 0x0F) || decide (0x35 ≤ p ∧ p ≤ 0x3F) || decide (0x51 ≤ p ∧ p ≤ 0x7F) || decide (0x101 ≤ p)

/-- A fault of class `cls`, cause `cause`, at word address `w`. -/
def mkFault (cls cause : Nat) (w : Nat) : FaultRec :=
  { cls := BitVec.ofNat 4 cls, cause := BitVec.ofNat 4 cause, addr := BitVec.ofNat 48 (w % 2 ^ 40) }

/-- An illegal-opcode fault with its Table 7.4 cause. -/
def illegal (cause : Nat) : FaultRec := mkFault 6 cause 0

/-- A capability violation: 0 tag, 1 seal, 2 permission, 3 bounds. -/
def capFault (cause : Nat) (w : Nat) : FaultRec := mkFault 1 cause w

/-- The kinds of access a check distinguishes: the PERM bits it requires, whether it writes, the words covered, and the alignment it
requires (1, 2 or 8). -/
structure Need195 where
  perms : List Nat
  st    : Bool
  n     : Nat
  align : Nat
deriving DecidableEq, Repr

/-- The bulk space in bytes (R64): ports in the interleave times their smallest capacity, at most 1 TiB. -/
def State.bulkSize (s : State) : Nat :=
  let ports := (List.range s.build.bmps).filter (fun n => decide (bitsOf (s.fld BMP_ILV_PORTS) n 1 = 1))
  let caps := ports.map (fun n => s.fld (BMP_CAP_CAP_64M n) * 2 ^ 26)
  match caps with
  | [] => 0
  | x :: xs => min (ports.length * xs.foldl min x) (2 ^ 40)

/-- The port and port-local byte address of bulk byte address `a` (R63). -/
def State.bulkPort (s : State) (a : Nat) : Option (Nat × Nat) :=
  let ports := (List.range s.build.bmps).filter (fun n => decide (bitsOf (s.fld BMP_ILV_PORTS) n 1 = 1))
  let p := ports.length
  match ports[(a / 4096) % (max p 1)]? with
  | some n => some (n, (a / (4096 * p)) * 4096 + a % 4096)
  | none => none

/-- Does a bulk word address name a trained, enabled port inside the bulk space (R64, R66)? -/
def State.bulkOk (s : State) (w : Nat) : Bool :=
  let a := 2 * (w - 0x8000000000)
  decide (a < s.bulkSize) &&
    (match s.bulkPort a with
     | some (n, _) => s.on (BMP_CTRL_EN n) && s.on (BMP_STAT_TRAINED n)
     | none => false)

/-- The checks of R195, in the order of Table 5.3: tag, seal, permission with the view checks, bounds, alignment, region. None when all
pass. `single` marks an access the register region refuses (R12, R196). -/
def State.check (s : State) (c : CoreId) (cap : Cap) (off : Nat) (k : Need195) (single atomic : Bool) : Option FaultRec :=
  let w := cap.base + off
  let r := s.region c w
  if !s.capTagged cap then some (capFault 0 w)
  else if cap.otype ≠ 0 then some (capFault 1 w)
  else if !(k.perms.all cap.has) then some (capFault 2 w)
  else if r = .stream ∧ (cap.view = 3 ∨ (k.st ∧ cap.view = 1)) then some (capFault 2 w)
  else if cap.length < off + k.n then some (capFault 3 w)
  else if w % k.align ≠ 0 then some (mkFault 3 0 w)
  else if !((List.range k.n).all (fun i => decide (s.region c (w + i) = r))) then some (mkFault 2 0 w)
  else match r with
    | .none => some (mkFault 2 0 w)
    | .regs => if single ∨ regHole (regOffOfWord w) then some (mkFault 2 0 w) else none
    | .bulk => if atomic ∨ !s.bulkOk w then some (mkFault 2 0 w) else none
    | _ => none

/-- The owner tag of an access through `cap` by core `c` (Table 3.2). -/
def ownerTag (c : CoreId) (cap : Cap) : BitVec 16 :=
  match c with
  | .seq _ => BitVec.ofNat 16 cap.owner
  | _ => 0x4000

/-- The requester port of a core (Table 2.4): the supervisor, or its cluster's port. -/
def corePort : CoreId → Nat
  | .seq n => 68 + clusterOfSeq n
  | _ => 67

end Sys2Proof.Machine
end

