-- ==== Sys2Proof/Machine/Bulk.lean ====
section
/-! DEFINITION. The bulk memory ports (chapter 02): training, read beats, the interleave, and the copy channel. -/

namespace Sys2Proof.Machine

/-- The port's event (R65, R66, R69). -/
def bmpEvent (n : Nat) (s : State) : State := raise (212 + n) s

/-- Is no request outstanding at port `n` (BMP_STAT.IDLE)? -/
def State.bmpIdle (s : State) (n : Nat) : Bool := decide ((s.bmpOf n).reads = []) && !s.on (BMP_STAT_CPY_BUSY n)

/-! ### Training (R66) -/

/-- A write of 1 to BMP_CTRL.TRAIN starts training; TRAINED is 0 until it succeeds (DESIGN CHOICE: assumption 91). -/
def bmpTrain (n : Nat) (s : State) : State :=
  if (s.bmpOf n).trainTb.isSome then s
  else
    let s := s.setBmp n { s.bmpOf n with trainTb := some s.clk.tb }
    ((s.raiseBit (BMP_CTRL_TRAIN n)).clearFld (BMP_STAT_TRAIN_FAIL n)).clearFld (BMP_STAT_TRAINED n)

/-- Has the time TRN_TIMEOUT gives passed since training of port `n` started? -/
def State.trainLate (s : State) (n : Nat) : Bool :=
  match (s.bmpOf n).trainTb with
  | some t => decide (t.toNat + s.fld (BMP_CTRL_TRN_TIMEOUT n) * 1000000 < s.clk.tb.toNat)
  | none => false

/-- Training of port `n` ends. -/
def bmpTrainEnd (n : Nat) (s : State) : State :=
  (s.setBmp n { s.bmpOf n with trainTb := none }).clearFld (BMP_CTRL_TRAIN n)

/-- Training of port `n` failed. -/
def bmpTrainFail (n : Nat) (s : State) : State := bmpEvent n ((bmpTrainEnd n s).raiseBit (BMP_STAT_TRAIN_FAIL n))

/-- The controller's report within the timeout. -/
def bmpTrainReport (n : Nat) (ok : Bool) (cap : BitVec 16) (rd wr rep : BitVec 8) (s : State) : State :=
  if (s.bmpOf n).trainTb.isNone ∨ s.trainLate n then s
  else if ok then
    let s := (bmpTrainEnd n s).raiseBit (BMP_STAT_TRAINED n)
    let s := s.setReg (BMP_CAP n) (cap.zeroExtend 32)
    bmpEvent n (s.setReg (BMP_MARGIN n) (BitVec.ofNat 32 (rd.toNat + wr.toNat * 256 + rep.toNat * 65536)))
  else bmpTrainFail n s

/-- The timeout passes without a report of success. -/
def bmpTrainTimeout (n : Nat) (s : State) : State := if s.trainLate n then bmpTrainFail n s else s

/-! ### Read beats (R65) -/

/-- A read beat at port-local byte address `a` returned with `stat` (0 OK, 1 CORRECTED, 2 UNCORRECTABLE, 3 DECODE): whether its data is
good, and the port after it. -/
def bmpStatus (n : Nat) (a : Nat) (stat : BitVec 2) (s : State) : Bool × State :=
  let s := portBytes (4 + n) 128 (tally 6 n 0 1 s)
  if stat = 0 then (true, s)
  else if stat = 1 then (true, tally 6 n 2 1 s)
  else
    let s := if s.on (BMP_STAT_UE n) then s else s.setReg (BMP_ERR_LOC n) (BitVec.ofNat 32 (a / 128))
    (false, bmpEvent n (s.raiseBit (BMP_STAT_UE n)))

/-- A beat arrives for tag `tag` of port `n`: the access that waits for it with its granule, none where its data is bad. -/
def bmpBeat (n : Nat) (tag : BitVec 6) (data : BitVec 1024) (stat : BitVec 2) (s : State) : Option (CoreId × Nat × Option Gran) × State :=
  match (s.bmpOf n).reads.find? (fun r => decide (r.1 = tag)) with
  | none => (none, s)
  | some (_, c, tok, a) =>
    let s := s.setBmp n { s.bmpOf n with reads := (s.bmpOf n).reads.filter (fun r => !decide (r.1 = tag)) }
    let (ok, s) := bmpStatus n a.toNat stat s
    (some (c, tok, if ok then some (data.extractLsb' (a.toNat % 128 / 16 * 128) 128) else none), s)

/-- A load request for bulk word `w` of core `c` leaves with a tag not in use; none while 64 are outstanding (Table 2.5). -/
def bmpRequest (c : CoreId) (tok w : Nat) (s : State) : Option State :=
  match s.bulkPort (2 * (w - 0x8000000000)) with
  | none => none
  | some (n, a) =>
    match firstBelow (fun t => !((s.bmpOf n).reads.any (fun r => decide (r.1.toNat = t)))) 64 with
    | none => none
    | some t => some (s.setBmp n { s.bmpOf n with reads := (s.bmpOf n).reads ++ [(BitVec.ofNat 6 t, c, tok, BitVec.ofNat 40 a)] })

/-- `words` leave for bulk memory at word address `w` through port `n`, in one beat. -/
def bulkWrite (n w : Nat) (words : List Word) (s : State) : State :=
  let s := portBytes (4 + n) 128 (tally 6 n 1 1 s)
  { s with bulkOut := s.bulkOut ++ [{ addr := BitVec.ofNat 40 w, words := words }] }

/-- The eight words of a granule. -/
def granWords (d : Gran) : List Word := (List.range 8).map (granWord d)

/-! ### The interleave (R67) -/

/-- The set bits of PORTS that name built ports. -/
def State.ilvPorts (s : State) (v : Nat) : Nat := bitsOf v 8 s.build.bmps

/-- A write of BMP_ILV. -/
def bmpIlvWrite (v : Reg) (s : State) : State :=
  let p := s.ilvPorts v.toNat
  let idle := (List.range s.build.bmps).all (fun n => s.bmpIdle n)
  let count := (List.range 8).countP (fun i => decide (bitsOf p i 1 = 1))
  if idle ∧ count = 2 ^ bitsOf v.toNat 0 2 then s.setReg BMP_ILV (BitVec.ofNat 32 (bitsOf v.toNat 0 2 + p * 256)) else s

/-! ### The copy channel (R68 to R70) -/

/-- Source and destination word addresses of port `n`'s copy, bits [2:0] ignored. -/
def State.cpySrc (s : State) (n : Nat) : Nat := (s.reg64 (BMP_CPY_SRC_LO n) (BMP_CPY_SRC_HI n)).toNat / 8 * 8
def State.cpyDst (s : State) (n : Nat) : Nat := (s.reg64 (BMP_CPY_DST_LO n) (BMP_CPY_DST_HI n)).toNat / 8 * 8

/-- Is the word address a bulk address? -/
def isBulk (w : Nat) : Bool := decide (0x8000000000 ≤ w)

/-- The copy of port `n` stops with `cause` (R69). -/
def cpyStop (n cause : Nat) (s : State) : State :=
  let s := ((s.raiseBit (BMP_STAT_CPY_ERR n)).setFld (BMP_STAT_CPY_CAUSE n) cause).clearFld (BMP_STAT_CPY_BUSY n)
  bmpEvent n ((s.setBmp n { s.bmpOf n with abort := false }).clearFld (BMP_CPY_CTL_GO n))

/-- A write of BMP_CPY_CTL with GO = 1 (R68, R70). A refusal comes before CPY_DONE for LEN = 0 (DESIGN CHOICE: assumption 89). -/
def bmpCpyGo (n : Nat) (v : Reg) (s : State) : State :=
  if s.on (BMP_STAT_CPY_BUSY n) then s
  else
    let s := (s.setFld (BMP_CPY_CTL_GROUP n) (bitsOf v.toNat 0 6)).setFld (BMP_CPY_CTL_VIEW n) (bitsOf v.toNat 8 2)
    let view := bitsOf v.toNat 8 2
    let src := s.cpySrc n
    let dst := s.cpyDst n
    let sides := (isBulk src && s.isStream dst) || (s.isStream src && isBulk dst)
    if !sides ∨ view = 3 ∨ (view = 1 ∧ s.isStream dst) then
      (s.raiseBit (BMP_STAT_CPY_ERR n)).setFld (BMP_STAT_CPY_CAUSE n) 1
    else if s.fld (BMP_CPY_CMD_LEN n) = 0 then s.raiseBit (BMP_STAT_CPY_DONE n)
    else ((s.raiseBit (BMP_STAT_CPY_BUSY n)).setFld (BMP_STAT_CPY_CAUSE n) 0).raiseBit (BMP_CPY_CTL_GO n)

/-- The stream-memory access of the granule in flight (R68): the channel's view and group, the supervisor's context as owner. -/
def State.cpyAccess (s : State) (n w : Nat) (k : Kind) : Access :=
  { dest := .copy n, port := 72, gran := w / 8, view := BitVec.ofNat 2 (s.fld (BMP_CPY_CTL_VIEW n)),
    group := BitVec.ofNat 6 (s.fld (BMP_CPY_CTL_GROUP n)), owner := 0x4000, kind := k }

/-- CPY_CAUSE of a failed stream-memory access. -/
def MemRes.cpyCause : MemRes → Nat
  | .ok .. => 0
  | .ue => 4
  | .capacity _ => 2
  | .conflict _ => 3
  | .frozen => 7

/-- The granule has been copied (R69): the addresses and LEN move on; the copy ends at LEN 0, or stops for an abort. -/
def cpyAdvance (n : Nat) (s : State) : State :=
  let on := fun (a : BitVec 64) => BitVec.ofNat 64 ((a.toNat + 8) % 2 ^ 40)
  let s := s.setReg64 (BMP_CPY_SRC_LO n) (BMP_CPY_SRC_HI n) (on (s.reg64 (BMP_CPY_SRC_LO n) (BMP_CPY_SRC_HI n)))
  let s := s.setReg64 (BMP_CPY_DST_LO n) (BMP_CPY_DST_HI n) (on (s.reg64 (BMP_CPY_DST_LO n) (BMP_CPY_DST_HI n)))
  let s := s.setFld (BMP_CPY_CMD_LEN n) (s.fld (BMP_CPY_CMD_LEN n) - 1)
  if s.fld (BMP_CPY_CMD_LEN n) = 0 then
    let s := ((s.raiseBit (BMP_STAT_CPY_DONE n)).clearFld (BMP_STAT_CPY_BUSY n)).clearFld (BMP_CPY_CTL_GO n)
    bmpEvent n (s.setBmp n { s.bmpOf n with abort := false })
  else if (s.bmpOf n).abort then cpyStop n 5 s
  else s

/-- The bulk side of the granule at word address `w`: the cause of R64 that stops the copy, or the port and the port-local address. -/
def State.cpyBulk (s : State) (w : Nat) : Except Nat (Nat × Nat) :=
  let a := 2 * (w - 0x8000000000)
  if s.bulkSize ≤ a then .error 1
  else match s.bulkPort a with
    | some (p, l) => if s.on (BMP_CTRL_EN p) ∧ s.on (BMP_STAT_TRAINED p) then .ok (p, l) else .error 6
    | none => .error 6

/-- The granule in flight once its stream-memory access has ended with `r`: the copy goes on, or stops with the cause (R69). -/
def cpyEnd (n : Nat) (r : MemRes) (s : State) : State :=
  let s := withdraw (fun d => decide (d = .copy n)) s
  match r with
  | .ok d _ =>
    if isBulk (s.cpySrc n) then cpyAdvance n s
    else match s.cpyBulk (s.cpyDst n) with
      | .error e => cpyStop n e s
      | .ok (p, _) => cpyAdvance n (bulkWrite p (s.cpyDst n) (granWords d) s)
  | _ => cpyStop n r.cpyCause s

/-- The copy of port `n` goes on where its access has ended. -/
def cpyGo (n : Nat) (s : State) : State :=
  match s.endedOf (.copy n) with
  | some r => cpyEnd n r s
  | none => s

/-- BMP_CPY_GRANULE_DONE: the granule in flight is read, or written, at the bulk side (R69, R65), and its stream-memory access goes to its
arbiter. `data` and `stat` are the bulk controller's where the copy reads bulk memory. -/
def cpyGranule (n : Nat) (data : Gran) (stat : BitVec 2) (upsets : List Upset) (s : State) : State :=
  if !s.on (BMP_STAT_CPY_BUSY n) ∨ s.underway (.copy n) then s
  else
    let src := s.cpySrc n
    let dst := s.cpyDst n
    let toStream := isBulk src
    let sw := if toStream then dst else src
    let bw := if toStream then src else dst
    if !s.isStream sw ∨ !isBulk bw then cpyStop n 1 s
    else match s.cpyBulk bw with
      | .error e => cpyStop n e s
      | .ok (p, l) =>
        let (good, s) := if toStream then bmpStatus p l stat s else (true, s)
        if !good then cpyStop n 4 s
        else cpyGo n (ask upsets s (s.cpyAccess n sw (if toStream then .write data 0xFFFF false else .read)))

/-- A write of 1 to BMP_CTRL.CPY_ABORT: a running copy stops after the granule in flight. -/
def cpyAbort (n : Nat) (s : State) : State :=
  if s.on (BMP_STAT_CPY_BUSY n) then s.setBmp n { s.bmpOf n with abort := true } else s

end Sys2Proof.Machine
end

