-- ==== Sys2Proof/Machine/Sprin.lean ====
section
/-! DEFINITION. How a Sprin core executes one instruction (chapters 06 to 08): when a core can issue, what it checks first, how an
instruction retires (repeats, the loop test, flow changes), and what happens to the instructions whose accesses are in flight. -/

namespace Sys2Proof.Machine

/-- The shape of an instruction: cells and return entries taken and left (R225), whether it may be the target of REP (Table 7.16),
whether it is absent from Sprin-S or undefined (R230), whether it may issue beside accesses in flight (R264 to R267), and the
levels at which it is legal. -/
structure Shape where
  p      : Nat := 0
  q      : Nat := 0
  rp     : Nat := 0
  rq     : Nat := 0
  rep    : Bool := false
  absent : Bool := false
  undef  : Bool := false
  plain  : Bool := true
  levels : List (BitVec 4) := [0, 1, 2, 3, 4, 5, 6, 7, 8, 9, 10, 11, 12]

/-- A shape from its four counts. -/
def eff (p q rp rq : Nat) : Shape := { p := p, q := q, rp := rp, rq := rq }

/-- Does an access in flight keep every later instruction from issuing: until it ends, and a CLDC until it retires and writes its register? -/
def Flight.blocks (f : Flight) : Bool :=
  match f.kind with
  | .load _ _ | .store | .tas _ | .lr _ | .sc _ => false
  | .cldc _ => true
  | .cstc | .split .. | .ldm _ | .stm _ => !f.done

/-- The stack position above the highest cell an access in flight will fill, if it fills any. -/
def FKind.fills : FKind → Option Nat
  | .load p n => some (p + n)
  | .tas p | .lr p | .sc p => some (p + 1)
  | .split p true _ _ => some (p + 2)
  | _ => none

/-- Is one of the top `n` cells of a bank with `opd` cells still pending (R241, R267)? -/
def Core.pendingTop (k : Core) (opd n : Nat) : Bool :=
  k.flight.any (fun f => !f.done && match f.kind.fills with
    | some e => decide (opd - n < e)
    | none => false)

/-- The instructions issued and not retired: those in the retire queue, of 8 entries (R264). -/
def Core.unretired (k : Core) : Nat := k.flight.foldl (fun a f => a + 1 + f.young) 0

/-- The loads in flight that the scoreboard tracks (R267). -/
def Core.loads (k : Core) : Nat :=
  k.flight.countP (fun f => !f.done && match f.kind with
    | .load _ _ | .lr _ | .cldc _ | .ldm _ | .split _ true _ _ => true
    | _ => false)

/-- Can core `c` take an instruction: released, neither halted nor waiting, with no fault, trap or halt outstanding, and room in the retire
queue? A halt that waits for an open window or for monitor level to end lets it go on (R480). -/
def Core.canIssue (k : Core) : Bool :=
  k.released && (decide (k.dstate = 0) || decide (k.dstate = 3)) &&
    (k.haltReq.isNone || k.niw.isSome || decide (k.level = 12)) && k.after.isNone && k.fault.isNone &&
    k.need.isNone && k.vreq.isNone && k.vwait.isNone && !k.waiting && !(k.flight.any Flight.blocks) && decide (k.unretired < 8)

/-- The lowest-numbered bank of the supervisor that is not in WAIT (R346). -/
def State.supBank (s : State) : Option Nat :=
  match firstBelow (fun b => !decide ((s.ctxAt (0x4001 + b)).state = .wait)) 4 with
  | some b => some (b + 1)
  | none => none

/-- May core `c` issue in its present mode: its clock runs, a change of SPLIT_EN or DET has been taken at the boundary that follows it (R219,
R282), and the supervisor is not about to change its bank (R346)? The Moth core's X stage executes one instruction at a time (R289). -/
def State.mayIssue (s : State) (c : CoreId) : Bool :=
  let k := s.core c
  !s.coreOff c && (if c = .moth then k.flight.isEmpty else
    k.splitEn == s.on (SEQ_CORE_CFG_SPLIT_EN (corePage c)) && k.det == s.on (SEQ_CORE_CFG_DET (corePage c))) &&
    (!decide (c = .sup) || !decide (k.level = 0) || decide (k.live = s.supBank))

/-! ### Fetch lines (R270, R271, R274, R275, R309) -/

/-- Word `j` of a line (R272). -/
def lineWord (l : BitVec 256) (j : Nat) : BitVec 14 := l.extractLsb' (14 * j) 14

/-- Is the core's fetch served by the code store without a line cache? -/
def Core.uncached (k : Core) : Bool := k.det || !k.lcEn

/-- The line cache that serves core `c`: its cluster's, or the supervisor's (4), with its count of sets. -/
def cacheOf : CoreId → Nat × Nat
  | .seq n => (clusterOfSeq n, 1024)
  | _ => (4, 128)

/-- The copy of line `n` that the line cache of core `c` holds. -/
def State.cached (s : State) (c : CoreId) (n : Nat) : Option (BitVec 256) :=
  ((Tbl.get [] (cacheOf c).1 s.code.caches).find? (fun e => decide (e.1 = n))).map Prod.snd

/-- The copy of line `n` in the fetch buffer of core `k`: its vector buffer serves lines 0 to 28 (R274, R309). -/
def Core.line (k : Core) (n : Nat) : Option (BitVec 256) :=
  if n ≤ 28 then some (Tbl.get 0 n k.vecBuf)
  else ((k.held.toList ++ k.ahead.toList).find? (fun e => decide (e.1 = n))).map Prod.snd

/-- Does core `c` hold the word at the PC of `r`: in its fetch buffer, from a hit of its branch-target buffer, or in its loop buffer? The Moth
core fetches from Moth program memory. -/
def State.fetched (s : State) (c : CoreId) (r : Regs) : Bool :=
  let k := s.core c
  decide (c = .moth) || (k.line (r.pc.toNat / 18)).isSome ||
    (match k.quick with
     | some (t, ws) => decide ((r.pc - t).toNat < ws.length)
     | none => false) ||
    (k.loopBuf ≠ [] && decide ((r.pc - r.ls).toNat < 3))

/-- Execution is at `pc`: the next sequential line becomes the line being executed once it is entered, and the vector lines replace it (R274,
R309). -/
def enterLine (c : CoreId) (pc : PC) (s : State) : State :=
  let k := s.core c
  let n := pc.toNat / 18
  if k.held.any (fun e => decide (e.1 = n)) then s
  else if n ≤ 28 ∧ (k.held.isSome ∨ k.ahead.isSome) then s.setCore c { k with held := none, ahead := none }
  else if k.ahead.any (fun e => decide (e.1 = n)) then s.setCore c { k with held := k.ahead, ahead := none }
  else s

/-- The word at program address `a` as core `c` fetches it: from its fetch buffer, its line cache, or program memory. -/
def State.fetchWord (s : State) (c : CoreId) (a : Nat) : BitVec 14 :=
  let n := a / 18
  let k := s.core c
  let l := match k.line n with
    | some l => l
    | none => match (if k.uncached then none else s.cached c n) with
      | some l => l
      | none => Tbl.get 0 n s.code.store
  lineWord l (a % 18)

/-- The `n` words from program address `a` on. -/
def State.fetchWords (s : State) (c : CoreId) (a : PC) (n : Nat) : List (BitVec 14) :=
  (List.range n).map (fun i => s.fetchWord c ((a.toNat + i) % 2 ^ 22))

/-! ### Checks before an instruction -/

/-- The breakpoint that matches an instruction at `pc` (R487): enabled, below monitor level, at the first execution of a REP target. -/
def Core.breakpoint (k : Core) (r : Regs) : Option Nat :=
  if k.skipBp ∨ k.haltReq.isSome ∨ 12 ≤ k.level.toNat ∨ (r.rc ≠ 0 ∧ k.rep.isNone) then none
  else firstBelow (fun i =>
    let w := (Tbl.get 0 (DBG_BP i) k.dbg).toNat
    decide (bitsOf w 31 1 = 1) && decide (bitsOf w 0 22 = r.pc.toNat)) 4

/-- The fault of fetching at `pc`: a line that failed its check twice (R273), or an address outside Moth program memory (R277). -/
def State.fetchFault (s : State) (c : CoreId) (pc : PC) : Option FaultRec :=
  if c = .moth ∧ 0x3600 ≤ pc.toNat then some (mkFault 2 0 0)
  else if (s.core c).badLine = some (pc.toNat / 18) then
    some { cls := 2, cause := 3, addr := BitVec.ofNat 48 pc.toNat }
  else none

/-- The illegal-opcode cause of an instruction of shape `i`, in the order of R230. -/
def illegalCause (c : CoreId) (k : Core) (r : Regs) (i : Shape) : Option Nat :=
  if i.undef then some 0
  else if c = .moth ∧ i.absent then some 2
  else if (r.rc ≠ 0 ∨ k.rep.isSome) ∧ !i.rep then some 1
  else if !(i.levels.contains k.level) then some 3
  else none

/-- Core `c` marks a fault; it is taken once nothing older is in flight (R265). -/
def markFault (c : CoreId) (f : FaultRec) (s : State) : State := s.setCore c { s.core c with fault := some f }

/-- A fault of the first execution of a REP target is one of the prefix and its target together (R215): the state before the prefix
returns, with RC 0, and a0 carries the count. -/
def markIllegal (c : CoreId) (v : View) (cause : Nat) (s : State) : State :=
  match (s.core c).rep with
  | none => markFault c (illegal cause) s
  | some r =>
    let s := s.setCore c { s.core c with rep := none }
    let s := s.setView c { v with regs := { r.regs with rc := 0 }, bank := r.bank }
    markFault c { illegal cause with addr := BitVec.ofNat 48 r.count.toNat } s

/-- What the depth check of R206 and Table 6.6 finds: nothing, a trap of SB0, or a stack fault. -/
inductive Depth where
  | ok
  | trap (n : Need)
  | fault (cause : Nat)
deriving DecidableEq, Repr

/-- The depth check of R206 and R207 for a shape: in a live bank the words spilled decide between a fill and a fault; below a frame
base a handler's pop faults (R209). -/
def depthCheck (v : View) (live : Bool) (osc rsc : Word) (i : Shape) : Depth :=
  let under := decide (v.depth < i.p)
  let runder := decide (v.rdepth < i.rp)
  let dover := decide (v.ocap < v.bank.opd - i.p + i.q)
  let rover := decide (v.rcap < v.bank.rtd - i.rp + i.rq)
  if live then
    if (under ∧ osc = 0) ∨ (runder ∧ rsc = 0) then .fault 0
    else if under then .trap .fillOps
    else if runder then .trap .fillRets
    else if dover then .trap .spillOps
    else if rover then .trap .spillRets
    else .ok
  else if under ∨ runder then .fault 2
  else if dover ∨ rover then .fault 1
  else .ok

/-- The loop test of R213 after the instruction at `r.pc`, without a taken flow change. -/
def Regs.advance (r : Regs) : Regs :=
  if r.pc = r.le ∧ 1 < r.lc.toNat then { r with lc := r.lc - 1, pc := r.ls }
  else if r.pc = r.le ∧ r.lc = 1 then { r with lc := 0, pc := r.pc + 1 }
  else { r with pc := r.pc + 1 }

/-- The registers after an instruction completes: a taken flow change goes to its target; an execution of a REP target counts RC down
and stays until it is 0 (R214, R216, R217); otherwise the loop test follows. -/
def Regs.complete (r : Regs) (tgt : Option PC) : Regs :=
  match tgt with
  | some t => { r with pc := t }
  | none =>
    if r.rc = 0 then r.advance
    else if r.rc = 1 then { r with rc := 0 }.advance
    else { r with rc := r.rc - 1 }

/-- The loop test on the instruction at LE, from the registers `old` that older instructions leave, for an instruction that leaves `r` and takes no
flow change (R271). Where it writes LC itself (`own`), that value stands (DESIGN CHOICE: assumption 96). -/
def Regs.loopTest (old : Regs) (own : Bool) (r : Regs) : Regs :=
  if old.pc = old.le ∧ 1 < old.lc.toNat then { r with lc := if own then r.lc else old.lc - 1, pc := old.ls }
  else if old.pc = old.le ∧ old.lc = 1 then { r with lc := if own then r.lc else 0, pc := old.pc + 1 }
  else { r with pc := old.pc + 1 }

/-- What every issued instruction ends: the REP prefix is behind it, a breakpoint may match again, a step is over once it retires (R483), and a
dispatched context has issued (R332). -/
def Core.issued (k : Core) : Core :=
  { k with rep := none, skipBp := false, stepping := false, fresh := false, after := if k.stepping then some (4, 0) else k.after }

/-- A halt that waited for retirement is requested once nothing is in flight. -/
def Core.settle (k : Core) : Core :=
  if k.flight.isEmpty ∧ k.after.isSome then { k with haltReq := k.after, after := none } else k

/-- One more instruction behind the youngest access in flight. -/
def followed : List Flight → List Flight
  | [] => []
  | [f] => [{ f with young := f.young + 1 }]
  | f :: g :: l => f :: followed (g :: l)

/-- An instruction without an access ends: it retires, or follows the accesses in flight into the retire queue (R264). -/
def endIssue (c : CoreId) (s : State) : State :=
  let k := (s.core c).issued
  match k.flight with
  | [] => tallyCore c 7 (s.setCore c k.settle)
  | _ => s.setCore c { k with flight := followed k.flight }

/-- An instruction ends with the level's registers and bank as `v` leaves them. -/
def retire (c : CoreId) (v : View) (tgt : Option PC) (s : State) : State :=
  endIssue c (s.setView c { v with regs := v.regs.complete tgt })

/-- An instruction that writes loop state ends: the loop test uses the registers `old` before it (R271). -/
def retireLoop (c : CoreId) (old : Regs) (own : Bool) (v : View) (s : State) : State :=
  endIssue c (s.setView c { v with regs := old.loopTest own v.regs })

/-- Does core `c` run beside the branch-target buffer (R270): a Sprin-L core outside DET with BTB_EN in force? -/
def State.btbOn (s : State) (c : CoreId) : Bool :=
  !decide (c = .moth) && !(s.core c).det && (s.core c).btbEn

/-- A taken flow change at `a` enters the branch-target buffer with the four words at its target; where the buffer holds it with that target, its
words enter the fetch buffer. One that a hit predicted and that is not taken leaves it (R270). -/
def btbUpdate (c : CoreId) (a : PC) (tgt : Option PC) (s : State) : State :=
  if s.btbOn c then
    let k := s.core c
    let i := a.toNat % 64
    match tgt, Tbl.get none i k.btb with
    | some t, some e =>
      if e.addr = a ∧ e.target = t then s.setCore c { k with quick := some (t, e.words) }
      else s.setCore c { k with btb := Tbl.set none i (some { addr := a, target := t, words := s.fetchWords c t 4 }) k.btb, quick := none }
    | some t, none =>
      s.setCore c { k with btb := Tbl.set none i (some { addr := a, target := t, words := s.fetchWords c t 4 }) k.btb, quick := none }
    | none, some e => if e.addr = a then s.setCore c { k with btb := Tbl.set none i none k.btb } else s
    | none, none => s
  else s

/-- The words spilled of the live context: OSC and RSC. -/
def State.spilled (s : State) (c : CoreId) : Word × Word :=
  match s.liveKey c with
  | some i => ((s.ctxAt i).osc, (s.ctxAt i).rsc)
  | none => (0, 0)

/-- One instruction of shape `i` on core `c`, whose effect is `body`. In order: a breakpoint (R487), the fetch (R273, R277), illegal
opcode (R230, R215), a REP count of 0 (R214), the depth check (R206, R207), and then the instruction; it waits, and the state
stands, while the core does not hold its word, while a cell it takes is pending, while an older access keeps it from issuing, or while the core
takes no instruction. A core that the build does not have executes none. -/
def issue (c : CoreId) (i : Shape) (body : View → State → State) (s : State) : Out :=
  if !coreBuilt s.build c then .next s
  else
    let k := s.core c
    match s.view c with
    | none => .next s
    | some v =>
      if !k.canIssue ∨ !s.mayIssue c then .next s
      else match k.breakpoint v.regs with
      | some b =>
        if k.flight.isEmpty then .next (s.setCore c { k with haltReq := some (2, BitVec.ofNat 2 b), rep := none }) else .next s
      | none => match s.fetchFault c v.regs.pc with
        | some f => .next (markFault c f s)
        | none =>
          if !s.fetched c v.regs then .next s
          else match illegalCause c k v.regs i with
          | some x => .next (markIllegal c v x s)
          | none =>
            let s := enterLine c v.regs.pc s
            if k.rep.isSome ∧ v.regs.rc = 0 then
              .next (retire c v none s)
            else
              let (osc, rsc) := s.spilled c
              match depthCheck v (decide (k.level = 0)) osc rsc i with
              | .fault x => .next (markFault c (mkFault 7 x 0) s)
              | .trap n => if k.flight.isEmpty then .next (s.setCore c { s.core c with need := some n, rsv := none }) else .next s
              | .ok =>
                if k.pendingTop v.bank.opd i.p ∨ (!i.plain ∧ !k.flight.isEmpty) then .next s
                else .next (body v s)

/-- An instruction that only takes and leaves cells, return entries, flags and loop state, and continues at `f`'s second answer. -/
def plainIns (c : CoreId) (i : Shape) (f : View → View × Option PC) (s : State) : Out :=
  issue c i (fun v s => retire c (f v).1 (f v).2 s) s

/-- An instruction that takes `p` cells, leaves `q`, and computes them and the flags from the level's view. -/
def cells (c : CoreId) (p q : Nat) (f : View → List Word × Flags) (s : State) : Out :=
  plainIns c { p := p, q := q, rep := true } (fun v => ((v.eff p (f v).1).flags (f v).2, none)) s

/-- ( -- … ), FL unchanged. -/
def push (c : CoreId) (q : Nat) (f : View → List Word) (s : State) : Out := cells c 0 q (fun v => (f v, v.regs.fl)) s

/-- ( … -- … ) on cells alone, FL unchanged: `f` gets the cells taken, T first. -/
def shuffle (c : CoreId) (p q : Nat) (f : (Nat → Word) → List Word) (s : State) : Out :=
  cells c p q (fun v => (f v.cell, v.regs.fl)) s

/-- ( a -- r ) with flags. -/
def unary (c : CoreId) (f : Word → Flags → Word × Flags) (s : State) : Out :=
  cells c 1 1 (fun v => let r := f (v.cell 0) v.regs.fl; ([r.1], r.2)) s

/-- ( a b -- r ) with flags. -/
def binary (c : CoreId) (f : Word → Word → Flags → Word × Flags) (s : State) : Out :=
  cells c 2 1 (fun v => let r := f (v.cell 1) (v.cell 0) v.regs.fl; ([r.1], r.2)) s

/-- ( a b -- x y ) with flags. -/
def binary2 (c : CoreId) (f : Word → Word → Word × Word × Flags) (s : State) : Out :=
  cells c 2 2 (fun v => let r := f (v.cell 1) (v.cell 0); ([r.1, r.2.1], r.2.2)) s

/-- A comparison ( a b -- f ), FL unchanged (R234). -/
def compare (c : CoreId) (f : Word → Word → Bool) (s : State) : Out :=
  cells c 2 1 (fun v => ([truth (f (v.cell 1) (v.cell 0))], v.regs.fl)) s

/-! ### Accesses in flight -/

/-- The words of flight `f` written from position `p` of the running bank and of the banks that later accesses keep. -/
def fillCells (c : CoreId) (tok p : Nat) (ws : List Word) (s : State) : State :=
  let put := fun (b : Bank) => { b with cells := (ws.foldl (fun (a : Nat × Tbl Word) w => (a.1 + 1, Tbl.set 0 a.1 w a.2)) (p, b.cells)).2 }
  let k := s.core c
  let s := s.setCore c { k with flight := k.flight.map (fun f => if tok < f.tok then { f with bank := put f.bank } else f) }
  match s.view c with
  | some v => s.setView c { v with bank := put v.bank }
  | none => s

/-- The requests of core `c` that satisfy `p` are withdrawn (R286); a bulk port's data that returns for one is discarded on arrival. -/
def withdrawCore (c : CoreId) (p : Nat → Bool) (s : State) : State :=
  let s := withdraw (fun d => match d with
    | .core c' t => decide (c' = c) && p t
    | _ => false) s
  { s with scr := { s.scr with reqs := s.scr.reqs.filter (fun r => !(decide (r.core = c) && p r.tok)) } }

/-- The token of the bulk read of piece `j`, and the one of a read whose piece is no longer wanted: no access of a core reaches these. -/
def pieceTok (j : Nat) : Nat := 2 ^ 64 + j
def deadTok : Nat := 2 ^ 65

/-- Core `c` no longer needs the pieces of what it does in one go (a gate, a descriptor, a trap): their accesses are withdrawn, or discarded when
their data return. -/
def endPieces (c : CoreId) (s : State) : State :=
  let s := withdraw (fun d => match d with
    | .piece c' _ => decide (c' = c)
    | _ => false) s
  { s with bmp := Tbl.mapVal Bmp.init (fun _ b => { b with reads := b.reads.map (fun r =>
      if r.2.1 = c ∧ pieceTok 0 ≤ r.2.2.1 then (r.1, r.2.1, deadTok, r.2.2.2) else r) }) s.bmp }

/-- Piece `j` of core `c`, a read of word `w`'s granule through `cap`: its result once it has ended. Stream memory and bulk memory answer in their
time, a scratch array at once. -/
def pieceRead (c : CoreId) (cap : Cap) (j w : Nat) (s : State) : Option MemRes × State :=
  let d := Dest.piece c j
  match s.region c w with
  | .stream =>
    let s := ask [] s { dest := d, port := corePort c, gran := w / 8, view := cap.view, group := cap.group, owner := ownerTag c cap, kind := .read }
    (s.endedOf d, s)
  | .scratch =>
    let (x, s) := fetchScr (scrGranOfWord w) s
    (some x, s)
  | .moth =>
    let (x, s) := fetchScr (mothGran0 + w / 8) s
    (some x, s)
  | .bulk =>
    if (s.endedOf d).isSome then (s.endedOf d, s)
    else if s.bmp.any (fun e => e.2.reads.any (fun r => decide (r.2.1 = c) && decide (r.2.2.1 = pieceTok j))) then (none, s)
    else (none, (bmpRequest c (pieceTok j) w (notFixed c s)).getD s)
  | .regs | .none => (some .ue, s)

/-- Flight `f` and every younger instruction are discarded: the registers and the bank before it return (R265, R286). -/
def rollback (c : CoreId) (f : Flight) (s : State) : State :=
  let s := withdrawCore c (fun t => decide (f.tok ≤ t)) s
  let s := match s.view c with
    | some v => s.setView c { v with regs := f.regs, bank := f.bank }
    | none => s
  let k := s.core c
  s.setCore c { k with flight := k.flight.filter (fun g => decide (g.tok < f.tok)), rep := none, after := none, fault := none, vreq := none,
                       need := none }

/-- An event of DET lies `n` SCLK beyond its fixed time (R284): counted, and the largest excess kept. -/
def detLate (c : CoreId) (n : Nat) (s : State) : State :=
  let pg := corePage c
  let s := s.addSat ⟨SEQ_DET_CNT pg, 0, 32⟩ 1
  tallyCore c 9 (s.setFld (SEQ_DET_STAT_MAXEX pg) (max (s.fld (SEQ_DET_STAT_MAXEX pg)) (min n 0xFFFF)))

/-- An instruction with the fixed time `t` that issued at PCLK `since` retires: in DET it may be late (R260, R284). -/
def retireAt (c : CoreId) (since t : Nat) (s : State) : State :=
  let n := s.clk.pclk - since - t
  if (s.core c).det ∧ 0 < n then detLate c n (s.raiseBit (SEQ_DET_STAT_OVR (corePage c))) else s

/-- The DET time of an access (Table 7.15), a step of LDM or STM counted as one; none where it is not fixed. -/
def State.accessTime (s : State) (c : CoreId) (f : Flight) : Option Nat :=
  let w := f.addr.toNat
  let far := fun (n : Nat) => match f.kind with
    | .split .. => some (2 * n)
    | _ => some n
  match s.region c w with
  | .stream => far 64
  | .scratch =>
    let own := match c with
      | .seq n => decide (s.lsOfSeq n = some ((w - 0x10000000) / 0x10000))
      | _ => false
    if own then (match f.kind with
      | .load _ _ | .lr _ => some 2
      | .store | .ldm _ | .stm _ => some 1
      | .tas _ | .sc _ => some 3
      | .cldc _ | .cstc => some 4
      | .split _ ld _ _ => some (if ld then 4 else 2)) else far 32
  | _ => none

/-- Access `f` and the instructions that follow it retire (R264, R266): a CLDC writes its register now. -/
def retireFlight (c : CoreId) (f : Flight) (s : State) : State :=
  let s := match f.kind, f.got with
    | .cldc r, some x => s.setCapReg c r.toNat x
    | _, _ => s
  let s := (List.range (1 + f.young)).foldl (fun s _ => tallyCore c 7 s) s
  match s.accessTime c f with
  | some t => retireAt c f.since t s
  | none => s

/-- Of the accesses `l` in flight, oldest first, those that have ended retire in order, up to the first that has not; one that failed is taken at
its instruction, and everything younger is discarded (R264, R265). -/
def settleFrom (c : CoreId) : List Flight → State → State
  | [], s => s.setCore c { s.core c with flight := [] }.settle
  | f :: l, s =>
    match f.fail with
    | some x => markFault c x (rollback c f (s.setCore c { s.core c with flight := f :: l }))
    | none => if f.done then settleFrom c l (retireFlight c f s) else s.setCore c { s.core c with flight := f :: l }

def settleFlight (c : CoreId) (s : State) : State := settleFrom c (s.core c).flight s

/-- Access `tok` of core `c` ends; its instruction retires once the older ones have (R264). -/
def endFlight (c : CoreId) (tok : Nat) (s : State) : State :=
  let k := s.core c
  settleFlight c (s.setCore c { k with flight := k.flight.map (fun f => if f.tok = tok then { f with done := true } else f) })

/-- Access `tok` of core `c` ends in a fault (R265). -/
def failFlight (c : CoreId) (tok : Nat) (x : FaultRec) (s : State) : State :=
  let k := s.core c
  settleFlight c (s.setCore c { k with flight := k.flight.map (fun f => if f.tok = tok then { f with fail := some x } else f) })

/-- Everything in flight on core `c` is abandoned (R286): the state before the oldest instruction not complete returns. -/
def abandon (c : CoreId) (s : State) : State :=
  let s := endPieces c s
  match (s.core c).flight with
  | f :: _ => rollback c f s
  | [] => s.setCore c { s.core c with fault := none, need := none, vreq := none, vwait := none }

/-- Has the controller of a bulk port taken the load of access `tok` of core `c`? -/
def State.bulkTaken (s : State) (c : CoreId) (tok : Nat) : Bool :=
  s.bmp.any (fun e => e.2.reads.any (fun r => decide (r.2.1 = c) && decide (r.2.2.1 = tok)))

/-- Is a hold of Table 8.5 in progress on core `c`: a granted TAS, SC, LDM or STM step whose value has not returned, or a split access
past its first grant? -/
def State.held (s : State) (c : CoreId) : Bool :=
  let granted := fun (f : Flight) => s.arb.granted.any (fun g => decide (g.dest = .core c f.tok)) || s.bulkTaken c f.tok
  (s.core c).flight.any (fun f => match f.kind with
    | .split _ _ second _ => !f.done && (second || granted f)
    | .tas _ | .sc _ | .ldm _ | .stm _ => granted f
    | _ => false)

/-- The registers and bank that the retired instructions of core `c`'s running level leave (R264). -/
def State.retiredView (s : State) (c : CoreId) : Option View :=
  (s.view c).map (fun v => match (s.core c).flight with
    | f :: _ => { v with regs := f.regs, bank := f.bank }
    | [] => v)

end Sys2Proof.Machine
end

