-- ==== Sys2Proof/Machine/Code.lean ====
section
/-! DEFINITION. Program memory and fetch (chapter 08): lines and their check bits, line requests and deliveries, line caches, the line write
path and the settings a core takes at a boundary. -/

namespace Sys2Proof.Machine

/-! ### Lines (R272) -/

/-- Is the parity of the low `n` bits of `v` odd? -/
def oddParity (v : Nat) : Nat → Bool
  | 0 => false
  | n + 1 => xor (v.testBit n) (oddParity v n)

/-- Check bit `k` of a line: the even parity of data bits 63k + 62 to 63k. -/
def lineCheckBit (l : BitVec 256) (k : Nat) : Bool := oddParity (bitsOf l.toNat (63 * k) 63) 63

/-- Does the line pass its check? -/
def lineOk (l : BitVec 256) : Bool :=
  (List.range 4).all (fun k => l.getLsbD (252 + k) == lineCheckBit l k)

/-- The line with data bits 251..0 of `l` and the check bits of R272. -/
def withCheck (l : BitVec 256) : BitVec 256 :=
  let d : BitVec 256 := (l.extractLsb' 0 252).setWidth 256
  BitVec.ofNat 256 (d.toNat + (List.range 4).foldl (fun a k => if lineCheckBit d k then a + 2 ^ (252 + k) else a) 0)

/-- Program space has 233,017 lines. -/
def lineCount : Nat := 233017

/-- Does the code-store port treat the line as failing (R522)? -/
def State.lineBarred (s : State) (n : Nat) : Bool :=
  match s.code.limit with
  | some m => decide (m ≤ n) && !Tbl.get false n s.code.written
  | none => false

/-! ### Line caches (R275) -/

/-- Line `n` with contents `d` becomes the most recently used line of its set; a ninth line of the set replaces the least recently used one. -/
def cacheTouch (sets n : Nat) (d : BitVec 256) (l : List (Nat × BitVec 256)) : List (Nat × BitVec 256) :=
  let l := l.filter (fun x => decide (x.1 ≠ n))
  let same := l.filter (fun x => decide (x.1 % sets = n % sets))
  let l := match same with
    | x :: _ => if 8 ≤ same.length then l.filter (fun y => decide (y.1 ≠ x.1)) else l
    | [] => l
  l ++ [(n, d)]

/-- The lines cache `k` holds changed by `f`. -/
def setCache (k : Nat) (f : List (Nat × BitVec 256) → List (Nat × BitVec 256)) (s : State) : State :=
  { s with code := { s.code with caches := Tbl.set [] k (f (Tbl.get [] k s.code.caches)) s.code.caches } }

/-- Cache `k` drops line `n`. -/
def dropLine (n k : Nat) (s : State) : State := setCache k (fun l => l.filter (fun x => decide (x.1 ≠ n))) s

/-- Every line cache drops line `n` (R280). -/
def cacheDrop (n : Nat) (s : State) : State := (List.range 5).foldl (fun s k => dropLine n k s) s

/-- LC_INVALIDATE: every line cache is empty, and a line that arrives in the same SCLK does not enter one (R290). -/
def lcInvalidate (s : State) : State := { s with code := { s.code with caches := [], invAt := some s.clk.pclk } }

/-! ### Requests and deliveries (R273 to R276, R284) -/

/-- The line that core `c` needs next (R274): the one its PC lies in, unless it holds it or it has failed twice; outside DET the next sequential
one too. None while a request is outstanding. -/
def State.wantedLine (s : State) (c : CoreId) : Option Nat :=
  let k := s.core c
  match s.view c with
  | none => none
  | some v =>
    let n := v.regs.pc.toNat / 18
    let want := fun (m : Nat) => (k.line m).isNone && !decide (k.badLine = some m) && decide (m < lineCount)
    if c = .moth ∨ !k.released ∨ s.coreOff c ∨ k.lineReq.isSome then none
    else if want n then some n
    else if !k.det ∧ k.badLine ≠ some n ∧ want (n + 1) then some (n + 1)
    else none

/-- Rank of a core at the code-store port: the supervisor, then the sequencer cores by number (R276). -/
def portRank : CoreId → Nat
  | .sup => 0
  | .seq n => n + 1
  | .moth => 37

/-- Does a DET core whose rank is below `r` wait for the code-store port? -/
def State.detWaits (s : State) (r : Nat) : Bool :=
  (CoreId.sup :: (List.range s.build.seqs).map CoreId.seq).any (fun c =>
    decide (portRank c < r) && (s.core c).det && (s.wantedLine c).isSome)

/-- The cores whose refills wait at the code-store port, in arrival order. -/
def State.refilling (s : State) : List CoreId :=
  s.code.refills.filter (fun c => (s.core c).lineReq.any (fun r => r.copy.isNone))

/-- Core `c`'s request for line `n` stands at the code-store port. -/
def portRequest (c : CoreId) (n : Nat) (again : Bool) (s : State) : State :=
  let k := s.core c
  let s := s.setCore c { k with lineReq := some { line := n, again := again, copy := none, due := s.clk.pclk + s.fld SUP_CS_CFG_WAIT + 2 } }
  if k.det then s else { s with code := { s.code with refills := s.code.refills.filter (fun x => decide (x ≠ c)) ++ [c] } }

/-- LINE_REQUEST: core `c` requests line `n`, which it needs next; the Moth core never does (R277). A line cache that holds the line delivers it. A
miss is counted, and the code-store port takes it unless a DET core ahead of it waits, or four misses of its cluster are outstanding. -/
def lineRequest (c : CoreId) (n : Nat) (s : State) : State :=
  let k := s.core c
  if s.wantedLine c ≠ some n then s
  else match (if k.uncached then none else s.cached c n) with
  | some d => s.setCore c { k with lineReq := some { line := n, again := false, copy := some d, due := s.clk.pclk }, badLine := none }
  | none =>
    let misses := s.refilling.countP (fun x => decide ((cacheOf x).1 = (cacheOf c).1))
    if s.detWaits (if k.det then portRank c else 38) ∨ (!k.uncached ∧ 4 ≤ misses) then s
    else
      let s := portRequest c n false (s.setCore c { k with badLine := none })
      if k.uncached then s else tallyCore c 8 s

/-- A line with contents `d` that passed its check enters the fetch buffer: as the line being executed, or as the next sequential one (R274); and
the line cache, unless LC_INV falls in the same SCLK (R290). -/
def lineHeld (c : CoreId) (n : Nat) (d : BitVec 256) (s : State) : State :=
  let k := { s.core c with lineReq := none }
  let here := match s.view c with
    | some v => v.regs.pc.toNat / 18
    | none => n
  let s := s.setCore c (if n = here then { k with held := some (n, d), ahead := none }
    else if !k.det ∧ n = here + 1 then
      { k with held := if k.ahead.any (fun e => decide (e.1 = here)) then k.ahead else k.held, ahead := some (n, d) } else k)
  if k.uncached ∨ s.code.invAt = some s.clk.pclk then s else setCache (cacheOf c).1 (cacheTouch (cacheOf c).2 n d) s

/-- LINE_DELIVERED: the line requested arrives: from the code-store port with data `d`, or with a read error, in the order of R276; or the copy that a
line cache holds, struck by an error where `err` says so. In DET it is held back until CS_WAIT + 2 SCLK after the request, and reported when it is
later (R284). Its check is applied (R273, R553): a first failure discards the cached copies and the line is fetched again; a second one is kept for
the instruction that reaches execution. -/
def lineDelivered (c : CoreId) (d : BitVec 256) (err : Bool) (s : State) : State :=
  let k := s.core c
  match k.lineReq with
  | none => s
  | some q =>
    let port := q.copy.isNone
    if port ∧ (if k.det then decide (s.clk.pclk < q.due) else decide (s.refilling.head? ≠ some c)) then s
    else
      let s := if port ∧ k.det ∧ q.due < s.clk.pclk then
        detLate c (s.clk.pclk - q.due) (s.raiseBit (SEQ_DET_STAT_FETCH_LATE (corePage c))) else s
      let s := { s with code := { s.code with refills := s.code.refills.filter (fun x => decide (x ≠ c)) } }
      let d := q.copy.getD d
      if !err ∧ lineOk d ∧ !(port ∧ s.lineBarred q.line) then lineHeld c q.line d s
      else
        let s := if s.on SUP_CS_STAT_CHK then s else (s.setFld SUP_CS_ERRLOC_LINE q.line).raiseBit SUP_CS_STAT_CHK
        let s := dropLine q.line (cacheOf c).1 s
        if q.again then (s.raiseBit SUP_CS_STAT_CHKFAIL).setCore c { s.core c with lineReq := none, badLine := some q.line }
        else portRequest c q.line true s

/-! ### The line write path (R278 to R280, R309) -/

/-- The line image in SUP_CSW_DATA0–7. -/
def State.cswImage (s : State) : BitVec 256 :=
  BitVec.ofNat 256 ((List.range 8).foldl (fun a m => a + (s.reg (SUP_CSW_DATA m)).toNat * 2 ^ (32 * m)) 0)

/-- SUP_CSW_CTL.GO: a write of the line starts, or is refused with WERR (R279). -/
def codeLineWrite (s : State) : State :=
  if s.on SUP_CS_STAT_BUSY then s
  else
    let n := s.fld SUP_CSW_ADDR_LINE
    let moth := s.on SUP_CSW_ADDR_TGT
    if (!moth ∧ lineCount ≤ n) ∨ (moth ∧ (n < 256 ∨ 767 < n)) then s.raiseBit SUP_CS_STAT_WERR
    else { (s.raiseBit SUP_CS_STAT_BUSY).raiseBit SUP_CSW_CTL_GO with code := { s.code with write := some (moth, n, withCheck s.cswImage) } }

/-- A line of the code store takes new contents: every line cache drops its copy, the vector shadows of lines 0–28 follow, and SEC counts
the write (R280, R309, R522, R530). -/
def storeLine (n : Nat) (d : BitVec 256) (s : State) : State :=
  let s := { s with code := { s.code with store := Tbl.set 0 n d s.code.store,
                                          written := if s.code.limit.isSome then Tbl.set false n true s.code.written else s.code.written } }
  let s := cacheDrop n s
  let s := if n ≤ 28 then
      (List.range 37).foldl (fun s k => s.setCoreAt k { s.coreAt k with vecShadow := Tbl.set 0 n d (s.coreAt k).vecShadow }) s
    else s
  lineWritten n s

/-- CODE_WRITE_DONE: the write completes. After a failed write of the code store, the line is as the code store leaves it: a free value. -/
def codeWriteDone (err : Bool) (s : State) : State :=
  match s.code.write with
  | none => s
  | some (moth, n, d) =>
    let s := { (s.clearFld SUP_CS_STAT_BUSY).clearFld SUP_CSW_CTL_GO with code := { s.code with write := none } }
    if moth then { s with code := { s.code with moth := Tbl.set 0 n d s.code.moth } }
    else if err then
      let (k, s) := s.takeFresh
      storeLine n (BitVec.ofNat 256 (Config.free k)) (s.raiseBit SUP_CS_STAT_WERR)
    else storeLine n d s

/-! ### Settings taken at a boundary (R219, R282) -/

/-- SPLIT_EN_APPLY: the SPLIT_EN of the core's CORE_CFG is in force from this boundary on. -/
def splitEnApply (c : CoreId) (s : State) : State :=
  if c = .moth then s else s.setCore c { s.core c with splitEn := s.on (SEQ_CORE_CFG_SPLIT_EN (corePage c)) }

/-- DET_SWITCH: once the instructions issued have retired, the core continues in the mode that CORE_CFG.DET names. -/
def detSwitch (c : CoreId) (s : State) : State :=
  let k := s.core c
  if c = .moth ∨ k.flight ≠ [] then s
  else s.setCore c { k with det := s.on (SEQ_CORE_CFG_DET (corePage c)), held := none, ahead := none, lineReq := none, badLine := none,
                            quick := none }

/-- Both vector buffers of every Sprin-L core loaded from the code store (R309). -/
def loadVectors (s : State) : State :=
  let v := s.code.store.filter (fun e => decide (e.1 ≤ 28))
  (List.range 37).foldl (fun s k => s.setCoreAt k { s.coreAt k with vecBuf := v, vecShadow := v }) s

end Sys2Proof.Machine
end

