-- ==== Sys2Proof/Machine/Float.lean ====
section
/-! DEFINITION. The floating-point arithmetic of the Peas (chapter 04, R120 to R124, R128): binary formats, exact values, one
rounding, and the flags, as IEEE 754-2019 gives them for the operation. -/

namespace Sys2Proof.Machine

/-- A binary format: exponent bits and trailing significand bits. -/
structure Fmt where
  eb : Nat
  mb : Nat
deriving DecidableEq, Repr

/-- Width of the format in bits. -/
def Fmt.width (f : Fmt) : Nat := 1 + f.eb + f.mb
/-- The exponent bias. -/
def Fmt.bias (f : Fmt) : Nat := 2 ^ (f.eb - 1) - 1
/-- The exponent of the unit in the last place of a subnormal. -/
def Fmt.qmin (f : Fmt) : Int := 1 - (f.bias : Int) - f.mb
/-- The canonical quiet NaN (R122). -/
def Fmt.qnan (f : Fmt) : Nat := (2 ^ f.eb - 1) * 2 ^ f.mb + 2 ^ (f.mb - 1)
/-- Infinity of a sign. -/
def Fmt.inf (f : Fmt) (s : Bool) : Nat := s.toNat * 2 ^ (f.eb + f.mb) + (2 ^ f.eb - 1) * 2 ^ f.mb
/-- Zero of a sign. -/
def Fmt.zero (f : Fmt) (s : Bool) : Nat := s.toNat * 2 ^ (f.eb + f.mb)
/-- The largest finite number of a sign. -/
def Fmt.maxFin (f : Fmt) (s : Bool) : Nat := f.inf s - 1

/-- The flags of R124 and the flag SAT. -/
structure FFlags where
  nx  : Bool
  uf  : Bool
  ov  : Bool
  dz  : Bool
  nv  : Bool
  sat : Bool
deriving DecidableEq, Repr

def FFlags.none : FFlags := ⟨false, false, false, false, false, false⟩
def FFlags.or (a b : FFlags) : FFlags := ⟨a.nx || b.nx, a.uf || b.uf, a.ov || b.ov, a.dz || b.dz, a.nv || b.nv, a.sat || b.sat⟩
def FFlags.invalid : FFlags := { FFlags.none with nv := true }
/-- Flags as bits 5..0 of POD_FLAGS and of the completion status. -/
def FFlags.bits (a : FFlags) : Nat :=
  a.nx.toNat + 2 * a.uf.toNat + 4 * a.ov.toNat + 8 * a.dz.toNat + 16 * a.nv.toNat + 32 * a.sat.toNat

/-- A datum: NaN (signalling or quiet), infinity, or (-1)^s × m × 2^e. -/
inductive FVal where
  | nan (sig : Bool)
  | inf (s : Bool)
  | fin (s : Bool) (m : Nat) (e : Int)
deriving DecidableEq, Repr

/-- The datum that bits `n` encode, subnormals read as zero under FZ (R123). -/
def Fmt.decode (f : Fmt) (fz : Bool) (n : Nat) : FVal :=
  let s := decide (bitsOf n (f.eb + f.mb) 1 = 1)
  let x := bitsOf n f.mb f.eb
  let m := bitsOf n 0 f.mb
  if x = 2 ^ f.eb - 1 then (if m = 0 then .inf s else .nan (decide (bitsOf n (f.mb - 1) 1 = 0)))
  else if x = 0 then .fin s (if fz then 0 else m) f.qmin
  else .fin s (2 ^ f.mb + m) (f.qmin + (x - 1))

/-- Does a discarded part, `r` of `2^k` with `sticky` below it, round the magnitude up? `odd` is the kept magnitude's lowest bit; modes
of Table 4.3. -/
def roundUp (rm : Nat) (s odd : Bool) (r k : Nat) (sticky : Bool) : Bool :=
  let half := 2 ^ (k - 1)
  let inexact := decide (r ≠ 0) || sticky
  let above := decide (half < r) || (decide (r = half) && sticky)
  let tie := decide (r = half) && !sticky && decide (0 < k)
  if rm = 0 then decide (0 < k) && (above || (tie && odd))
  else if rm = 1 then false
  else if rm = 2 then s && inexact
  else if rm = 3 then !s && inexact
  else decide (0 < k) && (above || tie)

/-- A magnitude `m × 2^e` (plus less than one unit when `sticky`) as a multiple of 2^q, rounded; and whether it was inexact. -/
def roundAt (rm : Nat) (s : Bool) (m : Nat) (e q : Int) (sticky : Bool) : Nat × Bool :=
  if e < q then
    let k := (q - e).toNat
    let r := m % 2 ^ k
    let a := m / 2 ^ k
    ((if roundUp rm s (decide (a % 2 = 1)) r k sticky then a + 1 else a), decide (r ≠ 0) || sticky)
  else
    -- the exact quotients and roots come with enough bits that sticky with e ≥ q does not arise; a unit is still rounded away from 0
    let a := m * 2 ^ (e - q).toNat
    ((if roundUp rm s (decide (a % 2 = 1)) 0 0 sticky then a + 1 else a), sticky)

/-- The number of bits of `n`. -/
def bitLen (n : Nat) : Nat := if n = 0 then 0 else Nat.log2 n + 1

/-- The value (-1)^s × (m × 2^e, plus a little when `sticky`) rounded once into the format, with the flags (R121 to R124). -/
def Fmt.round (f : Fmt) (rm : Nat) (fz s : Bool) (m : Nat) (e : Int) (sticky : Bool) : Nat × FFlags :=
  if m = 0 ∧ !sticky then (f.zero s, FFlags.none)
  else
    let top : Int := e + bitLen m
    let q : Int := max (top - (f.mb + 1)) f.qmin
    let (a, inexact) := roundAt rm s m e q sticky
    let (a, q) := if a = 2 ^ (f.mb + 1) then (2 ^ f.mb, q + 1) else (a, q)
    let x : Int := if a < 2 ^ f.mb then 0 else q - f.qmin + 1
    if 2 ^ f.eb - 1 ≤ x then
      let toInf := decide (rm = 0) || decide (rm = 4) || (decide (rm = 2) && s) || (decide (rm = 3) && !s)
      ((if toInf then f.inf s else f.maxFin s), { FFlags.none with ov := true, nx := true })
    else
      let tinyBefore := decide (top < f.qmin + f.mb + 1)
      let free := roundAt rm s m e (top - (f.mb + 1)) sticky
      let tinyAfter := tinyBefore && !(decide (top = f.qmin + f.mb) && decide (free.1 = 2 ^ (f.mb + 1)))
      let tiny := if Config.tinyAfter then tinyAfter else tinyBefore
      if fz ∧ x = 0 ∧ a ≠ 0 then (f.zero s, { FFlags.none with uf := true, nx := true })
      else (s.toNat * 2 ^ (f.eb + f.mb) + (if x = 0 then a else x.toNat * 2 ^ f.mb + (a - 2 ^ f.mb)),
            { FFlags.none with nx := inexact, uf := tiny && inexact })

/-- The canonical NaN, with NV when an operand is a signalling NaN. -/
def Fmt.nanOf (f : Fmt) (vs : List FVal) : Nat × FFlags :=
  (f.qnan, { FFlags.none with nv := vs.any (fun v => decide (v = .nan true)) })

def FVal.isNan : FVal → Bool
  | .nan _ => true
  | _ => false

def FVal.sign : FVal → Bool
  | .nan _ => false
  | .inf s => s
  | .fin s _ _ => s

/-- The signed integer ±m. -/
def signed (s : Bool) (m : Nat) : Int := if s then -(m : Int) else m

/-- The exact sum of two finite numbers as (integer, exponent). -/
def addExact (s : Bool) (m : Nat) (e : Int) (s' : Bool) (m' : Nat) (e' : Int) : Int × Int :=
  let q := min e e'
  (signed s m * 2 ^ (e - q).toNat + signed s' m' * 2 ^ (e' - q).toNat, q)

/-- An exact value n × 2^q rounded; an exact zero takes sign `zs`. -/
def Fmt.roundInt (f : Fmt) (rm : Nat) (fz zs : Bool) (n : Int) (q : Int) : Nat × FFlags :=
  if n = 0 then (f.zero zs, FFlags.none) else f.round rm fz (decide (n < 0)) n.natAbs q false

/-- x + y, rounded once. -/
def Fmt.addV (f : Fmt) (rm : Nat) (fz : Bool) (x y : FVal) : Nat × FFlags :=
  match x, y with
  | .fin s m e, .fin s' m' e' =>
    let r := addExact s m e s' m' e'
    f.roundInt rm fz (if s = s' then s else decide (rm = 2)) r.1 r.2
  | .inf s, .inf s' => if s = s' then (f.inf s, FFlags.none) else (f.qnan, FFlags.invalid)
  | .inf s, .fin .. => (f.inf s, FFlags.none)
  | .fin .., .inf s => (f.inf s, FFlags.none)
  | _, _ => f.nanOf [x, y]

def FVal.neg : FVal → FVal
  | .nan g => .nan g
  | .inf s => .inf (!s)
  | .fin s m e => .fin (!s) m e

def FVal.abs : FVal → FVal
  | .nan g => .nan g
  | .inf _ => .inf false
  | .fin _ m e => .fin false m e

/-- |x − y|, rounded once. -/
def Fmt.absdiffV (f : Fmt) (rm : Nat) (fz : Bool) (x y : FVal) : Nat × FFlags :=
  match x, y with
  | .fin s m e, .fin s' m' e' =>
    let r := addExact s m e (!s') m' e'
    f.roundInt rm fz false r.1.natAbs r.2
  | _, _ =>
    let r := f.addV rm fz x y.neg
    (if r.1 = f.qnan then r.1 else f.inf false, r.2)

/-- x × y + z, rounded once. -/
def Fmt.fmaV (f : Fmt) (rm : Nat) (fz : Bool) (x y z : FVal) : Nat × FFlags :=
  let ps := xor x.sign y.sign
  let zeroInf := match x, y with
    | .inf _, .fin _ 0 _ => true
    | .fin _ 0 _, .inf _ => true
    | _, _ => false
  if x.isNan ∨ y.isNan then f.nanOf [x, y, z]
  else if zeroInf then
    (f.qnan, { FFlags.none with nv := if z.isNan then decide (z = .nan true) || Config.fmaNanInvalid else true })
  else if z.isNan then f.nanOf [z]
  else match x, y, z with
    | .fin _ m e, .fin _ m' e', .fin s'' m'' e'' =>
      let r := addExact ps (m * m') (e + e') s'' m'' e''
      f.roundInt rm fz (if ps = s'' then ps else decide (rm = 2)) r.1 r.2
    | .fin .., .fin .., .inf s => (f.inf s, FFlags.none)
    | _, _, .inf s => if s = ps then (f.inf s, FFlags.none) else (f.qnan, FFlags.invalid)
    | _, _, _ => (f.inf ps, FFlags.none)

/-- x × y, rounded once. -/
def Fmt.mulV (f : Fmt) (rm : Nat) (fz : Bool) (x y : FVal) : Nat × FFlags :=
  let s := xor x.sign y.sign
  match x, y with
  | .fin _ m e, .fin _ m' e' => f.round rm fz s (m * m') (e + e') false
  | .inf _, .fin _ m _ => if m = 0 then (f.qnan, FFlags.invalid) else (f.inf s, FFlags.none)
  | .fin _ m _, .inf _ => if m = 0 then (f.qnan, FFlags.invalid) else (f.inf s, FFlags.none)
  | .inf _, .inf _ => (f.inf s, FFlags.none)
  | _, _ => f.nanOf [x, y]

/-- x ÷ y, rounded once: enough quotient bits for the format, and a sticky remainder. -/
def Fmt.divV (f : Fmt) (rm : Nat) (fz : Bool) (x y : FVal) : Nat × FFlags :=
  let s := xor x.sign y.sign
  match x, y with
  | .fin _ m e, .fin _ m' e' =>
    if m' = 0 then (if m = 0 then (f.qnan, FFlags.invalid) else (f.inf s, { FFlags.none with dz := true }))
    else
      let k := f.mb + 3 + bitLen m'
      let n := m * 2 ^ k
      f.round rm fz s (n / m') (e - e' - k) (decide (n % m' ≠ 0))
  | .inf _, .fin .. => (f.inf s, FFlags.none)
  | .fin .., .inf _ => (f.zero s, FFlags.none)
  | .inf _, .inf _ => (f.qnan, FFlags.invalid)
  | _, _ => f.nanOf [x, y]

/-- The integer square root of `n`, by `k` bits. -/
def isqrt (n : Nat) : Nat → Nat
  | 0 => 0
  | k + 1 =>
    let r := isqrt (n / 4) k * 2
    if (r + 1) * (r + 1) ≤ n then r + 1 else r

/-- squareRoot(x). -/
def Fmt.sqrtV (f : Fmt) (rm : Nat) (fz : Bool) (x : FVal) : Nat × FFlags :=
  match x with
  | .fin s m e =>
    if m = 0 then (f.zero s, FFlags.none)
    else if s then (f.qnan, FFlags.invalid)
    else
      let k := 2 * (f.mb + 3) + (e % 2).toNat
      let n := m * 2 ^ k
      let r := isqrt n (bitLen n)
      f.round rm fz false r ((e - k) / 2) (decide (r * r ≠ n))
  | .inf s => if s then (f.qnan, FFlags.invalid) else (f.inf false, FFlags.none)
  | .nan _ => f.nanOf [x]

/-- x < y and x = y for data that are not NaNs, −0 equal to +0. -/
def FVal.lt (x y : FVal) : Bool :=
  match x, y with
  | .fin s m e, .fin s' m' e' => decide ((addExact s m e (!s') m' e').1 < 0)
  | .inf s, .inf s' => s && !s'
  | .inf s, .fin .. => s
  | .fin .., .inf s => !s
  | _, _ => false

def FVal.eq (x y : FVal) : Bool := !x.isNan && !y.isNan && !x.lt y && !y.lt x

/-- x < y with −0 below +0 (Tables 4.5 and 4.8). -/
def FVal.ltZ (x y : FVal) : Bool := x.lt y || (x.eq y && x.sign && !y.sign)

/-- The bits of a datum in the format, a NaN canonical; exact for a datum the format decodes. -/
def Fmt.encode (f : Fmt) (v : FVal) : Nat :=
  match v with
  | .nan _ => f.qnan
  | .inf s => f.inf s
  | .fin s m e => (f.round 0 false s m e false).1

/-- minimumNumber (or, with `mx`, maximumNumber), −0 below +0 (Table 4.5). -/
def Fmt.minV (f : Fmt) (mx : Bool) (x y : FVal) : Nat × FFlags :=
  let fl := { FFlags.none with nv := decide (x = .nan true) || decide (y = .nan true) }
  if x.isNan then (f.encode y, fl)
  else if y.isNan then (f.encode x, fl)
  else (f.encode (if (if mx then y.ltZ x else x.ltZ y) then x else y), fl)

/-- A finite magnitude rounded to an integer in mode `rm`, and whether that was inexact. -/
def roundIntegral (rm : Nat) (s : Bool) (m : Nat) (e : Int) : Nat × Bool := roundAt rm s m e 0 false

/-- roundToIntegral of x in mode RM, NX when the result differs from x (Table 4.5). -/
def Fmt.roundiV (f : Fmt) (rm : Nat) (x : FVal) : Nat × FFlags :=
  match x with
  | .fin s m e =>
    let r := roundIntegral rm s m e
    ((f.round 0 false s r.1 0 false).1, { FFlags.none with nx := r.2 })
  | .inf s => (f.inf s, FFlags.none)
  | .nan _ => f.nanOf [x]

/-- x converted to the format (convertFormat, R128). -/
def Fmt.convV (f : Fmt) (rm : Nat) (fz : Bool) (x : FVal) : Nat × FFlags :=
  match x with
  | .fin s m e => f.round rm fz s m e false
  | .inf s => (f.inf s, FFlags.none)
  | .nan _ => f.nanOf [x]

/-- x converted to an integer in [lo, hi] (R128): the nearest end with NV outside it, 0 with NV for a NaN. -/
def toIntV (rm : Nat) (lo hi : Int) (x : FVal) : Int × FFlags :=
  match x with
  | .nan _ => (0, FFlags.invalid)
  | .inf s => (if s then lo else hi, FFlags.invalid)
  | .fin s m e =>
    let r := roundIntegral rm s m e
    let n := signed s r.1
    if n < lo then (lo, FFlags.invalid)
    else if hi < n then (hi, FFlags.invalid)
    else (n, { FFlags.none with nx := r.2 })

end Sys2Proof.Machine
end

