-- ==== Sys2Proof/Machine/Pea.lean ====
section
/-! DEFINITION. What each Pea computes (chapter 04, Tables 4.2 to 4.8, R120 to R130): element types, the value and mask operations
on one element, and the reductions and scans over a segment. Elements are bit patterns, held as numbers. -/

namespace Sys2Proof.Machine

/-! ### Element types (Table 4.2) -/

/-- Is the type code one of F16, BF16, F32, F64? -/
def tyFloat (t : Nat) : Bool := decide (8 ≤ t)
/-- Is the integer type signed? -/
def tySigned (t : Nat) : Bool := decide (t < 8) && decide (t % 2 = 1)
/-- Width in bits. -/
def tyWidth (t : Nat) : Nat :=
  if t < 8 then 8 * 2 ^ (t / 2) else if t < 10 then 16 else if t = 10 then 32 else 64
/-- The binary format of a float type. -/
def tyFmt (t : Nat) : Fmt :=
  if t = 8 then ⟨5, 10⟩ else if t = 9 then ⟨8, 7⟩ else if t = 10 then ⟨8, 23⟩ else ⟨11, 52⟩

/-- The integer a bit pattern of the type stands for. -/
def tyInt (t n : Nat) : Int :=
  let w := tyWidth t
  let n := n % 2 ^ w
  if tySigned t ∧ 2 ^ (w - 1) ≤ n then (n : Int) - 2 ^ w else n

/-- The ends of an integer type's range. -/
def tyMin (t : Nat) : Int := if tySigned t then -(2 ^ (tyWidth t - 1) : Int) else 0
def tyMax (t : Nat) : Int := if tySigned t then 2 ^ (tyWidth t - 1) - 1 else 2 ^ tyWidth t - 1

/-- The bit pattern of an integer, modulo 2^width. -/
def tyBits (t : Nat) (x : Int) : Nat := (x % (2 ^ tyWidth t : Int)).toNat

/-- An exact integer result under R124: saturated with the flag SAT, or modulo 2^width. -/
def tyFit (t : Nat) (sat : Bool) (x : Int) : Nat × FFlags :=
  if sat then
    if x < tyMin t then (tyBits t (tyMin t), { FFlags.none with sat := true })
    else if tyMax t < x then (tyBits t (tyMax t), { FFlags.none with sat := true })
    else (tyBits t x, FFlags.none)
  else (tyBits t x, FFlags.none)

/-- A quiet result. -/
def plainRes (n : Nat) : Nat × FFlags := (n, FFlags.none)

/-! ### AL (Table 4.5) -/

/-- MIN or MAX of two elements. -/
def peaMin (e : PEntry) (mx : Bool) (a b : Nat) : Nat × FFlags :=
  if tyFloat e.type then (tyFmt e.type).minV mx ((tyFmt e.type).decode e.fz a) ((tyFmt e.type).decode e.fz b)
  else plainRes (if decide (tyInt e.type a < tyInt e.type b) = mx then b % 2 ^ tyWidth e.type else a % 2 ^ tyWidth e.type)

/-- CVT (R128). -/
def peaCvt (e : PEntry) (a : Nat) : Nat × FFlags :=
  match tyFloat e.stype, tyFloat e.type with
  | false, false =>
    if tyWidth e.stype < tyWidth e.type then plainRes (tyBits e.type (tyInt e.stype a))
    else tyFit e.type e.sat (tyInt e.stype a)
  | false, true =>
    let x := tyInt e.stype a
    (tyFmt e.type).roundInt e.rm e.fz false x 0
  | true, false =>
    let r := toIntV e.rm (tyMin e.type) (tyMax e.type) ((tyFmt e.stype).decode e.fz a)
    (tyBits e.type r.1, r.2)
  | true, true => (tyFmt e.type).convV e.rm e.fz ((tyFmt e.stype).decode e.fz a)

/-- A rotated left by `n` within width `w`. -/
def rotl (w a n : Nat) : Nat := (a * 2 ^ n) % 2 ^ w + a / 2 ^ (w - n)

/-- An operation of AL0 or AL1 on operands A, B, C and M. FZ flushes no operand of PASS (DESIGN CHOICE: assumption 84). -/
def peaAl (e : PEntry) (a b c m : Nat) : Nat × FFlags :=
  let t := e.type
  let w := tyWidth t
  let f := tyFmt t
  let fl := tyFloat t
  let x := tyInt t a
  let y := tyInt t b
  let d := f.decode e.fz
  if e.op = 0x00 then plainRes a
  else if e.op = 0x01 then (if fl then f.addV e.rm e.fz (d a) (d b) else tyFit t e.sat (x + y))
  else if e.op = 0x02 then (if fl then f.addV e.rm e.fz (d a) (d b).neg else tyFit t e.sat (x - y))
  else if e.op = 0x03 then (if fl then plainRes (a ^^^ 2 ^ (w - 1)) else tyFit t e.sat (-x))
  else if e.op = 0x04 then (if fl then plainRes (a % 2 ^ (w - 1)) else tyFit t e.sat x.natAbs)
  else if e.op = 0x05 then peaMin e false a b
  else if e.op = 0x06 then peaMin e true a b
  else if e.op = 0x07 then (if fl then f.absdiffV e.rm e.fz (d a) (d b) else tyFit t e.sat (x - y).natAbs)
  else if e.op = 0x08 then
    let r := peaMin e true a b
    let r' := peaMin e false r.1 c
    (r'.1, r.2.or r'.2)
  else if e.op = 0x09 then plainRes (a &&& b)
  else if e.op = 0x0A then plainRes (a ||| b)
  else if e.op = 0x0B then plainRes (a ^^^ b)
  else if e.op = 0x0C then plainRes (2 ^ w - 1 - a % 2 ^ w)
  else if e.op = 0x0D then plainRes ((a * 2 ^ (b % w)) % 2 ^ w)
  else if e.op = 0x0E then plainRes (a / 2 ^ (b % w))
  else if e.op = 0x0F then
    let s : Int := if 2 ^ (w - 1) ≤ a then (a : Int) - 2 ^ w else a
    plainRes ((s / (2 ^ (b % w) : Int)) % (2 ^ w : Int)).toNat
  else if e.op = 0x10 then plainRes (rotl w a (b % w))
  else if e.op = 0x11 then peaCvt e a
  else if e.op = 0x12 then f.roundiV e.rm (d a)
  else plainRes (if m = 1 then 1 else 0)

/-! ### MA (Table 4.6) -/

/-- An operation of MA0 or MA1. -/
def peaMa (e : PEntry) (a b c : Nat) : Nat × FFlags :=
  let t := e.type
  let f := tyFmt t
  let fl := tyFloat t
  let d := f.decode e.fz
  let p := tyInt t a * tyInt t b
  if e.op = 0x01 then (if fl then f.mulV e.rm e.fz (d a) (d b) else tyFit t e.sat p)
  else if e.op = 0x02 then (if fl then f.fmaV e.rm e.fz (d a) (d b) (d c) else tyFit t e.sat (p + tyInt t c))
  else if e.op = 0x03 then (if fl then f.fmaV e.rm e.fz (d a) (d b) (d c).neg else tyFit t e.sat (p - tyInt t c))
  else if e.op = 0x04 then (if fl then f.fmaV e.rm e.fz (d a).neg (d b) (d c) else tyFit t e.sat (tyInt t c - p))
  else if e.op = 0x05 then plainRes (tyBits t (p / (2 ^ tyWidth t : Int)))
  else if e.op = 0x06 then f.divV e.rm e.fz (d a) (d b)
  else f.sqrtV e.rm e.fz (d a)

/-! ### CS (Table 4.7) -/

/-- A comparison of two elements: `op` as CMPEQ to CMPGE (1 to 6); quiet for CMPEQ and CMPNE, signalling otherwise. -/
def peaCmp (e : PEntry) (op a b : Nat) : Bool × FFlags :=
  if tyFloat e.type then
    let x := (tyFmt e.type).decode e.fz a
    let y := (tyFmt e.type).decode e.fz b
    let un := x.isNan || y.isNan
    let nv := decide (x = .nan true) || decide (y = .nan true) || (un && decide (2 < op))
    ((if un then decide (op = 2)
      else if op = 1 then x.eq y else if op = 2 then !x.eq y else if op = 3 then x.lt y
      else if op = 4 then !y.lt x else if op = 5 then y.lt x else !x.lt y), { FFlags.none with nv := nv })
  else
    let x := tyInt e.type a
    let y := tyInt e.type b
    ((if op = 1 then decide (x = y) else if op = 2 then decide (x ≠ y) else if op = 3 then decide (x < y)
      else if op = 4 then decide (x ≤ y) else if op = 5 then decide (y < x) else decide (y ≤ x)), FFlags.none)

/-- Does an operation of CS output a mask? -/
def csMask (op : Nat) : Bool := !decide (op = 0x09) && !decide (op = 0x0E)

/-- An operation of CS but PERM, on operands A, B, C and M (masks as 0 or 1). FZ flushes no operand of SEL (DESIGN CHOICE: assumption 84). -/
def peaCs (e : PEntry) (a b c m : Nat) : Nat × FFlags :=
  if e.op ≤ 0x06 then
    let r := peaCmp e e.op a b
    (r.1.toNat, r.2)
  else if e.op = 0x07 then
    let r := peaCmp e 1 a b
    let x := (tyFmt e.type).decode e.fz a
    let y := (tyFmt e.type).decode e.fz b
    ((x.isNan || y.isNan).toNat, r.2)
  else if e.op = 0x08 then
    let r := peaCmp e 4 b a
    let r' := peaCmp e 4 a c
    ((r.1 && r'.1).toNat, r.2.or r'.2)
  else if e.op = 0x09 then plainRes (if m = 1 then a else b)
  else if e.op = 0x0A then plainRes (a &&& b)
  else if e.op = 0x0B then plainRes (a ||| b)
  else if e.op = 0x0C then plainRes (a ^^^ b)
  else plainRes (1 - a % 2)

/-! ### RD (Table 4.8, R129, R130) -/

/-- A lone float element of a reduction: FZ on input, canonical NaN, NV for a signalling NaN (R129). -/
def rdNorm (e : PEntry) (v : Nat) : Nat × FFlags :=
  let f := tyFmt e.type
  f.minV false (f.decode e.fz v) (f.decode e.fz v)

/-- One addition of a float RSUM into an accumulator that may be absent. -/
def rdAdd (e : PEntry) (p : Option Nat × FFlags) (v : Nat) : Option Nat × FFlags :=
  match p.1 with
  | none => let r := rdNorm e v; (some r.1, p.2.or r.2)
  | some x =>
    let f := tyFmt e.type
    let r := f.addV e.rm e.fz (f.decode e.fz x) (f.decode e.fz v)
    (some r.1, p.2.or r.2)

/-- Partial `j` of a float RSUM over the active elements of a segment that starts at `s`. -/
def rdPartial (e : PEntry) (s j : Nat) (xs : List (Nat × Nat)) : Option Nat × FFlags :=
  (xs.filter (fun x => decide ((x.1 - s) % 32 = j))).foldl (fun p x => rdAdd e p x.2) (none, FFlags.none)

/-- Two sides of the combining tree. -/
def rdCombine (e : PEntry) (p q : Option Nat × FFlags) : Option Nat × FFlags :=
  let fl := p.2.or q.2
  match p.1, q.1 with
  | some x, some y =>
    let f := tyFmt e.type
    let r := f.addV e.rm e.fz (f.decode e.fz x) (f.decode e.fz y)
    (some r.1, fl.or r.2)
  | some x, none => (some x, fl)
  | none, y => (y, fl)

/-- The combining tree over partials `j`, `j + step`, … of `2^n` partials: p[j] with p[j + 16], then + 8, + 4, + 2 and + 1 (R129). -/
def rdTree (e : PEntry) (ps : Nat → Option Nat × FFlags) : Nat → Nat → Option Nat × FFlags
  | 0, j => ps j
  | n + 1, j => rdCombine e (rdTree e ps n j) (rdTree e ps n (j + 2 ^ (4 - n)))

/-- The float sum of a segment. -/
def rdSumF (e : PEntry) (s : Nat) (xs : List (Nat × Nat)) : Nat × FFlags :=
  let r := rdTree e (fun j => rdPartial e s j xs) 5 0
  (r.1.getD 0, r.2)

/-- The identity of RMIN and RMAX and their scans (R130). -/
def rdMinIdent (e : PEntry) (mx : Bool) : Nat :=
  if tyFloat e.type then (tyFmt e.type).inf mx else tyBits e.type (if mx then tyMin e.type else tyMax e.type)

/-- The minimum, or maximum, of the active elements. -/
def rdMin (e : PEntry) (mx : Bool) (xs : List (Nat × Nat)) : Nat × FFlags :=
  match xs with
  | [] => (rdMinIdent e mx, FFlags.none)
  | x :: rest =>
    rest.foldl (fun p y => let r := peaMin e mx p.1 y.2; (r.1, p.2.or r.2))
      (if tyFloat e.type then rdNorm e x.2 else plainRes (x.2 % 2 ^ tyWidth e.type))

/-- Is element value `x` better than `y` for ARGMIN (ARGMAX with `mx`), −0 below +0? -/
def argBetter (e : PEntry) (mx : Bool) (x y : Nat) : Bool :=
  if tyFloat e.type then
    let a := (tyFmt e.type).decode e.fz x
    let b := (tyFmt e.type).decode e.fz y
    if mx then b.ltZ a else a.ltZ b
  else if mx then decide (tyInt e.type y < tyInt e.type x) else decide (tyInt e.type x < tyInt e.type y)

/-- ARGMIN and ARGMAX: the lowest index of the best element; NaNs do not count, and a signalling NaN raises NV (R130). -/
def rdArg (e : PEntry) (mx : Bool) (xs : List (Nat × Nat)) : Nat × FFlags :=
  let val := fun v => (tyFmt e.type).decode e.fz v
  let ok := xs.filter (fun x => !(tyFloat e.type && (val x.2).isNan))
  let nv := tyFloat e.type && xs.any (fun x => decide (val x.2 = .nan true))
  let best := ok.foldl (fun (w : Option (Nat × Nat)) x => match w with
    | none => some x
    | some y => if argBetter e mx x.2 y.2 then some x else some y) none
  ((match best with
    | some x => x.1
    | none => 0xFFFFFFFF), { FFlags.none with nv := nv })

/-- The sum of integer elements. -/
def rdSumI (e : PEntry) (xs : List (Nat × Nat)) : Int := xs.foldl (fun acc x => acc + tyInt e.type x.2) 0

/-- A reduce operation over the active elements `xs` (index, value) of a segment that starts at `s`. -/
def peaReduce (e : PEntry) (s : Nat) (xs : List (Nat × Nat)) : Nat × FFlags :=
  if e.op = 0x01 then (if tyFloat e.type then rdSumF e s xs else tyFit e.type e.sat (rdSumI e xs))
  else if e.op = 0x02 then rdMin e false xs
  else if e.op = 0x03 then rdMin e true xs
  else if e.op = 0x04 then plainRes (xs.foldl (fun acc x => acc &&& x.2) (2 ^ tyWidth e.type - 1))
  else if e.op = 0x05 then plainRes (xs.foldl (fun acc x => acc ||| x.2) 0)
  else if e.op = 0x06 then plainRes (xs.foldl (fun acc x => acc ^^^ x.2) 0)
  else if e.op = 0x07 then plainRes (xs.length % 2 ^ 32)
  else if e.op = 0x08 then rdArg e false xs
  else rdArg e true xs

/-- A scan's output at an element, over the active elements `xs` of its segment up to it; `act` says whether the element is active. -/
def peaScan (e : PEntry) (act : Bool) (xs : List (Nat × Nat)) : Nat × FFlags :=
  if e.op = 0x0A then
    let r := tyFit e.type e.sat (rdSumI e xs)
    (r.1, if act then r.2 else FFlags.none)
  else rdMin e (decide (e.op = 0x0C)) xs

end Sys2Proof.Machine
end

