-- ==== Sys2Proof/Machine/Chain.lean ====
section
/-! DEFINITION. Chain descriptors (chapters 04 and 05): how the allocator reads one, the legality conditions of Table 4.14, and the
bounded run of R133. -/

namespace Sys2Proof.Machine

/-! ### Reading a descriptor (Tables 4.11, 4.12 and 5.1) -/

/-- The 64 header bytes of a descriptor as read, with its entries and streams as granules. -/
structure RawChain where
  hdr  : Nat
  ents : List Nat
  strs : List Nat
deriving DecidableEq, Repr

def RawChain.fmt (r : RawChain) : Nat := bitsOf r.hdr 0 8
def RawChain.npea (r : RawChain) : Nat := bitsOf r.hdr 8 8
def RawChain.nstr (r : RawChain) : Nat := bitsOf r.hdr 16 8
def RawChain.pair (r : RawChain) : Bool := decide (bitsOf r.hdr 24 1 = 1)
def RawChain.half (r : RawChain) : Bool := decide (bitsOf r.hdr 25 1 = 1)
def RawChain.n (r : RawChain) : Nat := bitsOf r.hdr 32 25
def RawChain.next (r : RawChain) : Nat := bitsOf r.hdr 64 40
def RawChain.budget (r : RawChain) : Nat := bitsOf r.hdr 128 32
def RawChain.prio (r : RawChain) : Nat := bitsOf r.hdr 160 3

/-- Does a header meet conditions 1 and 2? -/
def RawChain.hdrOk (r : RawChain) : Bool :=
  decide (r.fmt = 1) && decide (1 ≤ r.npea) && decide (r.npea ≤ 10) && decide (r.nstr ≤ 4)

/-- Granules of a descriptor: 4 for the header, one for each entry, two for each stream. -/
def RawChain.grans (r : RawChain) : Nat := if r.hdrOk then 4 + r.npea + 2 * r.nstr else 4

/-- A descriptor from the granules read, header first. -/
def rawOf (gs : List Gran) : RawChain :=
  let h := (gs.take 4).foldr (fun g acc => acc * 2 ^ 128 + g.toNat) 0
  let r : RawChain := { hdr := h, ents := [], strs := [] }
  { r with ents := ((gs.drop 4).take r.npea).map BitVec.toNat,
           strs := (List.range r.nstr).map (fun i =>
             ((gs.drop (4 + r.npea + 2 * i)).take 2).foldr (fun g acc => acc * 2 ^ 128 + g.toNat) 0) }

/-- Entry `i` of a half whose indices start at `base`. -/
def entryOf (idx g : Nat) : PEntry :=
  { idx := idx, slot := bitsOf g 0 4, op := bitsOf g 8 8, type := bitsOf g 16 4, stype := bitsOf g 20 4, rm := bitsOf g 24 3,
    fz := decide (bitsOf g 27 1 = 1), sat := decide (bitsOf g 28 1 = 1), masked := decide (bitsOf g 29 1 = 1),
    mpol := decide (bitsOf g 30 1 = 1), srcA := bitsOf g 32 8, srcB := bitsOf g 40 8, srcC := bitsOf g 48 8,
    srcM := bitsOf g 56 8, imm := bitsOf g 64 64 }

/-- Entries from raw granules, indices from `i` on. -/
def entriesFrom (i : Nat) : List Nat → List PEntry
  | [] => []
  | g :: gs => entryOf i g :: entriesFrom (i + 1) gs

/-- A stream descriptor. -/
def streamOf (g : Nat) : PStream :=
  { kind := bitsOf g 0 2, esize := bitsOf g 2 2, creg := bitsOf g 4 3, isrc := bitsOf g 8 8, offset := bitsOf g 64 40,
    param := BitVec.ofNat 32 (bitsOf g 128 32) }

/-- A chain from its descriptors. -/
def chainOf (r : RawChain) (r2 : Option RawChain) (addr : WAddr) (dcreg : BitVec 3) (caps : Tbl Cap) : Chain :=
  { n := r.n, budget := r.budget, prio := r.prio,
    entries := entriesFrom 0 r.ents ++ (match r2 with
      | some q => entriesFrom 10 q.ents
      | none => []),
    str1 := r.strs.map streamOf, str2 := (match r2 with
      | some q => q.strs.map streamOf
      | none => []),
    paired := r2.isSome, addr := addr, dcreg := dcreg, caps := caps }

/-! ### Entries and streams -/

/-- Does the entry name a stream: slots P0 to P2 and P9? -/
def PEntry.streams (e : PEntry) : Bool := decide (e.slot ≤ 2) || decide (e.slot = 9)
def PEntry.isLd (e : PEntry) : Bool := decide (e.slot ≤ 2)
def PEntry.isSt (e : PEntry) : Bool := decide (e.slot = 9)
/-- Is it an RD reduce operation (OP 0x01 to 0x09)? -/
def PEntry.isReduce (e : PEntry) : Bool := decide (e.slot = 8) && decide (1 ≤ e.op) && decide (e.op ≤ 9)
def PEntry.isScan (e : PEntry) : Bool := decide (e.slot = 8) && decide (0x0A ≤ e.op)

/-- The streams of the descriptor half an entry belongs to. -/
def Chain.strsOf (c : Chain) (e : PEntry) : List PStream := if e.idx < 10 then c.str1 else c.str2

/-- The stream an entry names. -/
def Chain.stream (c : Chain) (e : PEntry) : Option PStream := (c.strsOf e)[e.imm % 4]?

/-- Entry `k` of the chain. -/
def Chain.entry (c : Chain) (k : Nat) : Option PEntry := c.entries.find? (fun e => decide (e.idx = k))

/-- What an entry's output is. -/
inductive OutKind where
  | value
  | mask
  | seg
  | nothing
deriving DecidableEq, Repr

def PEntry.out (e : PEntry) : OutKind :=
  if e.isSt then .nothing
  else if e.isLd then (if e.op = 2 then .mask else if e.op = 3 then .seg else .value)
  else if e.slot = 7 ∧ csMask e.op then .mask
  else .value

/-- The type of an entry's value output: U32 for ARGMIN and ARGMAX. -/
def PEntry.outType (e : PEntry) : Nat := if e.slot = 8 ∧ (e.op = 8 ∨ e.op = 9) then 4 else e.type

/-- What an operand must be: absent, a value, a mask, or an optional segment. -/
inductive OpndKind where
  | absent
  | value
  | mask
  | seg
deriving DecidableEq, Repr

/-- How SRCM serves: as the optional mask of R126, as the operand M, or as the mask RCNT requires. -/
inductive MaskUse where
  | optional
  | operand
  | required
deriving DecidableEq, Repr

/-- A row of Tables 4.4 to 4.8: the types it accepts, its operands, the use of SRCM, and whether it rounds for a float type. -/
structure OpSpec where
  types  : Nat → Bool
  a      : OpndKind
  b      : OpndKind
  c      : OpndKind
  m      : MaskUse
  rounds : Bool

def tyAll (t : Nat) : Bool := decide (t ≤ 11)
def tyI (t : Nat) : Bool := decide (t ≤ 7)
def tyF (t : Nat) : Bool := decide (8 ≤ t) && decide (t ≤ 11)
def tyS (t : Nat) : Bool := tySigned t
def tyU8 (t : Nat) : Bool := decide (t = 0)
def tyU32 (t : Nat) : Bool := decide (t = 4)

/-- Tables 4.4 to 4.8. -/
def opSpec (slot op : Nat) : Option OpSpec :=
  let mk := fun (t : Nat → Bool) (a b c : OpndKind) (m : MaskUse) (r : Bool) => some (OpSpec.mk t a b c m r)
  if slot ≤ 2 then
    (if op = 1 then mk tyAll .absent .absent .absent .optional false
     else if op = 2 then mk tyU8 .absent .absent .absent .optional false
     else if op = 3 then mk tyU32 .absent .absent .absent .optional false else none)
  else if slot = 9 then (if op = 1 then mk tyAll .value .absent .absent .optional false else none)
  else if slot ≤ 4 then
    (if op = 0x00 then mk tyAll .value .absent .absent .optional false
     else if op = 0x01 ∨ op = 0x02 then mk tyAll .value .value .absent .optional true
     else if op = 0x03 ∨ op = 0x04 then mk (fun t => tyS t || tyF t) .value .absent .absent .optional false
     else if op = 0x05 ∨ op = 0x06 then mk tyAll .value .value .absent .optional false
     else if op = 0x07 then mk tyAll .value .value .absent .optional true
     else if op = 0x08 then mk tyAll .value .value .value .optional false
     else if op = 0x0C then mk tyI .value .absent .absent .optional false
     else if 0x09 ≤ op ∧ op ≤ 0x10 then mk tyI .value .value .absent .optional false
     else if op = 0x11 then mk tyAll .value .absent .absent .optional true
     else if op = 0x12 then mk tyF .value .absent .absent .optional true
     else if op = 0x13 then mk tyI .absent .absent .absent .operand false else none)
  else if slot ≤ 6 then
    (if op = 0x01 then mk tyAll .value .value .absent .optional true
     else if 0x02 ≤ op ∧ op ≤ 0x04 then mk tyAll .value .value .value .optional true
     else if op = 0x05 then mk tyI .value .value .absent .optional false
     else if op = 0x06 then mk tyF .value .value .absent .optional true
     else if op = 0x07 then mk tyF .value .absent .absent .optional true else none)
  else if slot = 7 then
    (if 0x01 ≤ op ∧ op ≤ 0x06 then mk tyAll .value .value .absent .optional false
     else if op = 0x07 then mk tyF .value .value .absent .optional false
     else if op = 0x08 then mk tyAll .value .value .value .optional false
     else if op = 0x09 then mk tyAll .value .value .absent .operand false
     else if 0x0A ≤ op ∧ op ≤ 0x0C then mk tyU8 .mask .mask .absent .optional false
     else if op = 0x0D then mk tyU8 .mask .absent .absent .optional false
     else if op = 0x0E then mk tyAll .value .value .absent .optional false else none)
  else if slot = 8 then
    (if op = 0x01 then mk tyAll .value .seg .absent .optional true
     else if op = 0x02 ∨ op = 0x03 ∨ op = 0x08 ∨ op = 0x09 ∨ op = 0x0B ∨ op = 0x0C then mk tyAll .value .seg .absent .optional false
     else if 0x04 ≤ op ∧ op ≤ 0x06 ∨ op = 0x0A then mk tyI .value .seg .absent .optional false
     else if op = 0x07 then mk tyU32 .absent .seg .absent .required false else none)
  else none

/-- Does the operation round, for its types (R121, R128)? -/
def PEntry.roundsNow (e : PEntry) (o : OpSpec) : Bool :=
  o.rounds && (tyFloat e.type || (decide (3 ≤ e.slot) && decide (e.slot ≤ 4) && decide (e.op = 0x11) && tyFloat e.stype))

/-- Is the entry CVT, or PERM? -/
def PEntry.isCvt (e : PEntry) : Bool := decide (3 ≤ e.slot) && decide (e.slot ≤ 4) && decide (e.op = 0x11)
def PEntry.isPerm (e : PEntry) : Bool := decide (e.slot = 7) && decide (e.op = 0x0E)

/-! ### Legality (Table 4.14) -/

/-- Does a source selector use a reserved encoding (Table 4.13)? -/
def selReserved (x : Nat) : Bool :=
  decide (5 ≤ x / 32) || ((decide (x / 32 = 0) || decide (x / 32 = 2) || decide (x / 32 = 3)) && !decide (x % 32 = 0))

/-- Reserved bits of a header: bytes 3 and 4–7, NEXT, byte 20 and bytes 21–63; NEXT without PAIR. -/
def RawChain.hdrReserved (r : RawChain) : Bool :=
  !decide (bitsOf r.hdr 26 6 = 0) || !decide (bitsOf r.hdr 57 7 = 0) || !decide (bitsOf r.hdr 104 24 = 0) ||
  !decide (bitsOf r.hdr 163 349 = 0) || (!r.pair && !decide (r.next = 0))

/-- Condition 3 on an entry: reserved bits and encodings, bits of IMM above its type's or, in a streamer, above the stream index. -/
def entReserved (g : Nat) : Bool :=
  let e := entryOf 0 g
  !decide (bitsOf g 4 4 = 0) || decide (bitsOf g 31 1 = 1) || decide (12 ≤ e.type) || decide (12 ≤ e.stype) || decide (5 ≤ e.rm) ||
  selReserved e.srcA || selReserved e.srcB || selReserved e.srcC || selReserved e.srcM ||
  (if e.streams then !decide (e.imm / 4 = 0)
   else decide (e.slot ≤ 9) && decide (e.type < 12) && !decide (e.imm / 2 ^ tyWidth e.type = 0))

/-- Condition 3 on a stream: reserved bits, CREG 7, a reserved selector. -/
def strReserved (g : Nat) : Bool :=
  decide (bitsOf g 7 1 = 1) || !decide (bitsOf g 16 48 = 0) || !decide (bitsOf g 104 24 = 0) || !decide (bitsOf g 160 96 = 0) ||
  decide (bitsOf g 4 3 = 7) || selReserved (bitsOf g 8 8)

/-- Condition 3 on a descriptor. -/
def RawChain.reserved (r : RawChain) : Bool := r.hdrReserved || r.ents.any entReserved || r.strs.any strReserved

/-- No slot above 9, and none named twice in one half (condition 4). -/
def slotsOk : List PEntry → List Nat → Bool
  | [], _ => true
  | e :: es, seen =>
    let k := e.slot + (if e.idx < 10 then 0 else 16)
    decide (e.slot ≤ 9) && !(seen.contains k) && slotsOk es (k :: seen)

/-- Condition 6 on one value operand: the selector's type is the one the operation expects. -/
def Chain.typeOk (c : Chain) (e : PEntry) (want : Nat) (perm : Bool) (k : OpndKind) (x : Nat) : Bool :=
  if k = .value then
    if x / 32 = 3 then tyI e.type
    else if x / 32 = 1 ∧ x % 32 < e.idx then
      match c.entry (x % 32) with
      | some s => if s.out = .value then
          (if perm then decide (s.outType < 8) && decide (s.outType % 2 = 0) else decide (s.outType = want)) else true
      | none => true
    else true
  else true

/-- Condition 6 on an entry. -/
def Chain.typesOk (c : Chain) (e : PEntry) : Bool :=
  match opSpec e.slot e.op with
  | none => false
  | some o =>
    o.types e.type && (e.isCvt || decide (e.stype = e.type)) && (decide (e.rm = 0) || e.roundsNow o) &&
    c.typeOk e (if e.isCvt then e.stype else e.type) false o.a e.srcA &&
    c.typeOk e e.type e.isPerm o.b e.srcB && c.typeOk e e.type false o.c e.srcC

/-- Condition 7 on one operand: the kind the operation requires, from an entry of lower index. -/
def Chain.srcOk (c : Chain) (e : PEntry) (k : OpndKind) (x : Nat) : Bool :=
  let src := fun (ok : OutKind → Bool) => decide (x % 32 < e.idx) && (match c.entry (x % 32) with
    | some s => ok s.out
    | none => false)
  match k with
  | .absent => decide (x = 0)
  | .value => decide (x / 32 = 2) || decide (x / 32 = 3) || (decide (x / 32 = 1) && src (fun o => decide (o = .value)))
  | .mask => decide (x / 32 = 4) && src (fun o => decide (o = .mask))
  | .seg => decide (x = 0) || (decide (x / 32 = 1) && src (fun o => decide (o = .seg)))

/-- Condition 7 on an entry. -/
def Chain.srcsOk (c : Chain) (e : PEntry) : Bool :=
  match opSpec e.slot e.op with
  | none => false
  | some o =>
    c.srcOk e o.a e.srcA && c.srcOk e o.b e.srcB && c.srcOk e o.c e.srcC &&
    (match o.m with
     | .optional => if e.masked then c.srcOk e .mask e.srcM else decide (e.srcM = 0)
     | .operand => !e.masked && c.srcOk e .mask e.srcM
     | .required => e.masked && c.srcOk e .mask e.srcM)

/-- Element size of a stream in bytes. -/
def PStream.size (s : PStream) : Nat := 2 ^ s.esize

/-- The conditions of Table 5.2 on a stream, with the entry that names it, if one does; `top` bounds the index an ISRC may name. -/
def Chain.streamOk (c : Chain) (s : PStream) (e : Option PEntry) (top : Nat) : Bool :=
  let isrc := decide (s.isrc / 32 = 1) && decide (s.isrc % 32 < top) && (match c.entry (s.isrc % 32) with
    | some x => decide (x.out = .value) && (decide (x.type = 2) || decide (x.type = 4) || decide (x.type = 5))
    | none => false)
  let own :=
    if s.kind = 2 then decide (s.esize = 2) && decide (s.offset % 4 = 0) && decide (1 ≤ s.param.toNat) && decide (s.param.toNat ≤ 2 ^ 24)
    else if s.kind = 3 then decide (s.esize = 0) && decide (s.param = 0)
    else if s.kind = 0 then decide (s.offset % s.size = 0) && decide (s.param.toNat % s.size = 0)
    else decide (s.offset % s.size = 0) && decide (s.param = 0) && isrc
  (decide (s.kind = 1) || decide (s.isrc = 0)) && own &&
  (match e with
   | none => true
   | some e =>
     decide (e.op = (if s.kind = 2 then 3 else if s.kind = 3 then 2 else 1)) && decide (8 * s.size = tyWidth e.type))

/-- Condition 8 on the streams of one half with its entries. -/
def Chain.halfStreamsOk (c : Chain) (es : List PEntry) (ss : List PStream) (top : Nat) : Bool :=
  let named := es.filter PEntry.streams
  named.all (fun e => decide (e.imm % 4 < ss.length) && decide ((named.countP (fun x => decide (x.imm % 4 = e.imm % 4))) = 1)) &&
  (List.range ss.length).all (fun i => match ss[i]? with
    | some s => match named.find? (fun e => decide (e.imm % 4 = i)) with
      | some e => c.streamOk s (some e) e.idx
      | none => c.streamOk s none top
    | none => true)

/-- The selectors an entry reads values or segments through: A, B, C and the ISRC of its stream. -/
def Chain.uses (c : Chain) (e : PEntry) : List Nat :=
  [e.srcA, e.srcB, e.srcC] ++ (if e.streams then (match c.stream e with
    | some s => [s.isrc]
    | none => []) else [])

/-- Condition 10. -/
def Chain.consumersOk (c : Chain) : Bool :=
  c.entries.all (fun e =>
    (!decide (e.out = .seg) || c.entries.any (fun r => decide (r.slot = 8) && decide (r.srcB = 0x20 + e.idx))) &&
    (List.range 4).all (fun p => match (c.uses e)[p]? with
      | some x =>
        if x / 32 = 1 then match c.entry (x % 32) with
          | some s => (!s.isReduce || e.isSt) && (!decide (s.out = .seg) || (decide (e.slot = 8) && decide (p = 1)))
          | none => true
        else true
      | none => true))

/-- The first-half entries that second-half entries, and the ISRCs of the second-half descriptor's streams, name (R137, R159). -/
def Chain.crossings (c : Chain) : List Nat :=
  (List.range 10).filter (fun k => c.str2.any (fun t => decide (t.isrc / 32 = 1) && decide (t.isrc % 32 = k)) ||
   c.entries.any (fun e => decide (10 ≤ e.idx) &&
    ((c.uses e).any (fun x => decide (x / 32 = 1) && decide (x % 32 = k)) || (decide (e.srcM / 32 = 4) && decide (e.srcM % 32 = k)) ||
     (decide (e.srcA / 32 = 4) && decide (e.srcA % 32 = k)) || (decide (e.srcB / 32 = 4) && decide (e.srcB % 32 = k)))))

/-- Condition 11 (R136, R137). -/
def pairOk (pairEn : Bool) (r : RawChain) (r2 : Option RawChain) (c : Chain) : Bool :=
  !r.half &&
  (match r2 with
   | none => !r.pair
   | some q => pairEn && !q.pair && q.half && decide (q.next = 0) && decide (q.budget = 0) && decide (q.prio = 0) &&
       decide (q.n = r.n) && decide (c.crossings.length ≤ 2))

/-- The first broken condition of Table 4.14, in table order (R134); 0 when the chain is legal. -/
def legality (pairEn : Bool) (r : RawChain) (r2 : Option RawChain) (c : Chain) : Nat :=
  let ds := r :: r2.toList
  if !(ds.all (fun d => decide (d.fmt = 1))) then 1
  else if !(ds.all RawChain.hdrOk) then 2
  else if ds.any RawChain.reserved then 3
  else if !slotsOk c.entries [] then 4
  else if !(c.entries.all (fun e => (opSpec e.slot e.op).isSome)) then 5
  else if !(c.entries.all c.typesOk) then 6
  else if !(c.entries.all c.srcsOk) then 7
  else if !(c.halfStreamsOk (c.entries.filter (fun e => decide (e.idx < 10))) c.str1 10 &&
            c.halfStreamsOk (c.entries.filter (fun e => decide (10 ≤ e.idx))) c.str2 20) then 8
  else if !(decide (1 ≤ r.n) && decide (r.n ≤ 2 ^ 24)) then 9
  else if !c.consumersOk then 10
  else if !pairOk pairEn r r2 c then 11
  else 0

/-! ### The bounded run (R133, Tables 4.9 and 4.10) -/

/-- Table 4.10's rate of a width in bits. -/
def widthRate (w : Nat) : Nat := if w = 8 then 128 else if w = 16 then 64 else if w = 32 then 32 else 16

/-- The rate of an entry, none where R133 does not count it. -/
def Chain.rate (c : Chain) (e : PEntry) : Option Nat :=
  if e.isLd ∧ e.op ≠ 1 then none
  else if e.streams then
    match c.stream e with
    | some s => some (if s.kind = 0 ∧ s.param.toNat = s.size then widthRate (8 * s.size) else 8)
    | none => some 8
  else if (e.slot = 5 ∨ e.slot = 6) ∧ (e.op = 6 ∨ e.op = 7) then some (widthRate (tyWidth e.type) / 4)
  else if e.slot = 8 ∧ tyFloat e.type then some (if tyWidth e.type = 64 then 16 else 32)
  else if e.isCvt then some (widthRate (max (tyWidth e.type) (tyWidth e.stype)))
  else some (widthRate (tyWidth e.type))

/-- Table 4.9's latency of an entry. -/
def PEntry.latency (e : PEntry) : Nat :=
  let fl := tyFloat e.type
  if e.isLd then 14
  else if e.slot = 9 then 2
  else if e.slot ≤ 4 then
    (if e.op = 0x11 ∨ e.op = 0x12 then 3
     else if fl ∧ (e.op = 1 ∨ e.op = 2 ∨ (5 ≤ e.op ∧ e.op ≤ 8)) then 4 else 2)
  else if e.slot ≤ 6 then
    (if e.op = 6 ∨ e.op = 7 then (if e.type = 0xB then 28 else 20)
     else if fl then (if e.type = 0xB then 6 else 5) else 4)
  else if e.slot = 7 then (if e.op = 0x0E then 3 else 2)
  else if e.op ≤ 9 then 8 else 4

/-- The entries an entry takes operands from. -/
def Chain.deps (c : Chain) (e : PEntry) : List Nat :=
  ((c.uses e ++ [e.srcM]).filter (fun x => decide (x / 32 = 1) || decide (x / 32 = 4))).map (fun x => x % 32)

/-- The longest path from a load streamer that ends at entry `k`, pair-link crossings included; none where no path starts at one. -/
def Chain.path (c : Chain) : Nat → Nat → Option Nat
  | 0, _ => none
  | fuel + 1, k =>
    match c.entry k with
    | none => none
    | some e =>
      let up := (c.deps e).filterMap (fun j =>
        (c.path fuel j).map (fun d => d + (if j < 10 ∧ 10 ≤ k then 4 else 0)))
      match up with
      | [] => if e.isLd then some e.latency else none
      | x :: xs => some (e.latency + xs.foldl max x)

/-- The longest path that ends at entry `k`, wherever it starts. -/
def Chain.anyPath (c : Chain) : Nat → Nat → Nat
  | 0, _ => 0
  | fuel + 1, k =>
    match c.entry k with
    | none => 0
    | some e => e.latency + ((c.deps e).map (fun j => c.anyPath fuel j + (if j < 10 ∧ 10 ≤ k then 4 else 0))).foldl max 0

/-- Segments of the LDS stream, 1 when there is none; of two LDS streams in a paired chain, those of the first entry's (DESIGN CHOICE:
assumption 81). -/
def Chain.nseg (c : Chain) : Nat :=
  match c.entries.find? (fun e => e.isLd && decide (e.op = 3)) with
  | some e => match c.stream e with
    | some s => s.param.toNat
    | none => 1
  | none => 1

/-- Does the chain hold a SEGMENT stream, a PERM entry? -/
def Chain.hasSeg (c : Chain) : Bool := c.entries.any (fun e => e.isLd && decide (e.op = 3))
def Chain.hasPerm (c : Chain) : Bool := c.entries.any PEntry.isPerm

/-- The elements a resume computes again for PERM start at a multiple of 16 (R181). -/
def Chain.firstElem (c : Chain) (index : Nat) : Nat := if c.hasPerm then 16 * (index / 16) else index

/-- The bounded run in PCLK of a request at INDEX and SEG (R133, R182). Where no path from a load streamer reaches an ST, the longest path
from any entry counts (DESIGN CHOICE: assumption 81). -/
def Chain.bound (c : Chain) (index seg : Nat) : Nat :=
  let rate := (c.entries.filterMap c.rate).foldl min 128
  let ends := (c.entries.filter PEntry.isSt).map PEntry.idx
  let ends := if ends = [] then c.entries.map PEntry.idx else ends
  let fromLd := ends.filterMap (c.path 20)
  let fill := if fromLd = [] then (ends.map (c.anyPath 20)).foldl max 0 else fromLd.foldl max 0
  let n := c.n - c.firstElem index
  let k := c.nseg - seg
  max c.budget (16 + fill + max ((n + rate - 1) / rate) ((k + 7) / 8) + 2)

end Sys2Proof.Machine
end

