-- ==== Sys2Proof/Machine/Tbu.lean ====
section
/-! DEFINITION. The time base, compare channels, capture pairs, the Tick Unit and the watchdog (chapter 14). -/

namespace Sys2Proof.Machine

/-! ### Updates of TB -/

/-- TBU_TICK_NEXT (R443): the next tick instant above TB value `t`. -/
def Clk.nextAt (k : Clk) (t : Nat) : Nat :=
  match k.perStage with
  | none => (t / k.per + 1) * k.per
  | some (_, base, e) => if t < base then base else e

/-- How many tick instants the update from `t0` to `t1` passes (R443 to R445). -/
def Clk.passes (k : Clk) (t0 t1 : Nat) : Nat :=
  if t1 ≤ t0 then 0
  else match k.perStage with
    | none => t1 / k.per - t0 / k.per
    | some (p, base, e) =>
      (if t0 < base ∧ base ≤ t1 ∧ base ≠ e then 1 else 0) + (if t0 < e ∧ e ≤ t1 then 1 + (t1 - e) / p else 0)

/-- The length of the quiesce margin (R446). -/
def Clk.marginLen (k : Clk) : Nat := min k.qm (k.per / 2)

/-- TB changes to `t` (an update, whatever its source): the instants and the margin it passes, a staged period that takes effect, the
margin length of the next instant. -/
def setTb (t : BitVec 64) (s : State) : State :=
  let k := s.clk
  let t0 := k.tb.toNat
  let t1 := t.toNat
  let n := k.passes t0 t1
  let q := k.nextAt t0 - k.marginLen
  let w := 2 ^ s.fld PMU_BW_CFG_WEXP
  let (per, stage) := match k.perStage with
    | some (p, b, e) => if e ≤ t1 then (p, none) else (k.per, some (p, b, e))
    | none => (k.per, none)
  let qm := if 0 < n then s.fld TBU_TICK_QM_QM else k.qm
  let k := { k with tb := t, prev := k.tb, cmpDone := [], passed := n, tickDone := false,
                    quietDue := decide (t0 < q ∧ q ≤ t1), bwDue := decide (t0 / w < t1 / w), per := per, perStage := stage, qm := qm }
  let s := { s with clk := k }
  let s := if k.perStage.isNone then s.clearFld TBU_TICK_STAT_PEND else s
  let s := s.setReg64 TBU_TICK_NEXT_LO TBU_TICK_NEXT_HI (BitVec.ofNat 64 (k.nextAt t1))
  s

/-- One edge of the clock TB counts: 1 ns at TCLK; in LF mode the accumulator step of R431. -/
def tbEdge (s : State) : State :=
  if s.on TBU_TB_STAT_LF then
    let a := s.fld TBU_TB_STAT_ACC + 37
    if 64 ≤ a then setTb (s.clk.tb + 30518) (s.setFld TBU_TB_STAT_ACC (a - 64))
    else setTb (s.clk.tb + 30517) (s.setFld TBU_TB_STAT_ACC a)
  else setTb (s.clk.tb + 1) { s with clk := { s.clk with tclk := s.clk.tclk + 1 } }

/-- R433: a write of 1 to TBU_TB_STAT.LOAD. -/
def tbLoad (s : State) : State :=
  if s.on TBU_TICK_STAT_STARTED then s.raiseBit TBU_TB_STAT_LOADERR
  else setTb (s.reg64 TBU_TB_SET_LO TBU_TB_SET_HI) (s.clearFld TBU_TB_STAT_FRAC)

/-! ### Compare channels -/

/-- CMP of channel `k`. -/
def State.cmp (s : State) (k : Nat) : BitVec 64 := s.reg64 (TBU_CMP_LO k) (TBU_CMP_HI k)

/-- ACT on TMOk (Table 14.1). -/
def pinAct (k : Nat) (s : State) : State :=
  let a := s.fld (TBU_CMP_CFG_ACT k)
  if a = 1 then s.setFld (TBU_CMP_STAT_PIN k) 0
  else if a = 2 then s.setFld (TBU_CMP_STAT_PIN k) 1
  else if a = 3 then s.setFld (TBU_CMP_STAT_PIN k) (1 - s.fld (TBU_CMP_STAT_PIN k))
  else if a = 4 then s.setFld (TBU_CMP_STAT_PIN k) (s.fld (TBU_CMP_CFG_IDLE k))
  else s

/-- After a match with PER ≠ 0, CMP moves past TB; the periods it missed are counted (R437). -/
def cmpReload (k : Nat) (s : State) : State :=
  let per := (s.reg (TBU_CMP_PER k)).toNat
  if per = 0 then s
  else
    let c := s.cmp k
    let m := (s.clk.tb.toNat - c.toNat) / per
    let s := s.setReg64 (TBU_CMP_LO k) (TBU_CMP_HI k) (c + BitVec.ofNat 64 (per * (1 + m)))
    if m = 0 then s else (s.addSat (TBU_CMP_STAT_MISS k) m).raiseBit (TBU_CMP_STAT_LATE k)

/-- A match, or a fire, of channel `k` (R436, R437). -/
def cmpFire (k : Nat) (s : State) : State :=
  let s := { s with clk := { s.clk with cmpDone := Tbl.set false k true s.clk.cmpDone } }
  let s := (pinAct k s).raiseBit (TBU_CMP_STAT_MATCH k)
  let s := if s.on (TBU_CMP_CFG_EV k) then raise (32 + s.fld (TBU_CMP_CFG_EVN k)) s else s
  let s := if s.on (TBU_CMP_CFG_WAKE k) then raise 8 s else s
  cmpReload k s

/-- Does channel `k` match in the last update (R434)? -/
def State.cmpDue (s : State) (k : Nat) : Bool :=
  s.on (TBU_CMP_CFG_EN k) && !Tbl.get false k s.clk.cmpDone &&
    decide (s.clk.prev.toNat < (s.cmp k).toNat) && decide ((s.cmp k).toNat ≤ s.clk.tb.toNat)

/-- The evaluation of R435 at a commit and when EN rises: fire at once with LATE when CMP is not ahead of TB. The channel is not
matched against the update of the same TCLK. -/
def cmpEval (k : Nat) (s : State) : State :=
  let s := { s with clk := { s.clk with cmpDone := Tbl.set false k true s.clk.cmpDone } }
  if s.on (TBU_CMP_CFG_EN k) ∧ (s.cmp k - s.clk.tb).sle 0 then (cmpFire k s).raiseBit (TBU_CMP_STAT_LATE k) else s

/-- A write to TBU_CMPk_LO is staged (R435). -/
def cmpStage (k : Nat) (v : Reg) (s : State) : State :=
  { s with clk := { s.clk with loStage := Tbl.set 0 k v s.clk.loStage } }

/-- CMP of channel `k` committed as `c` (R435). -/
def cmpSet (k : Nat) (c : BitVec 64) (s : State) : State :=
  cmpEval k (s.setReg64 (TBU_CMP_LO k) (TBU_CMP_HI k) c)

/-- A write to TBU_CMPk_HI commits the staged low half with it (R435). -/
def cmpCommit (k : Nat) (v : Reg) (s : State) : State := cmpSet k (v ++ Tbl.get 0 k s.clk.loStage) s

/-- A write of TBU_CMPk_CFG: a reserved ACT keeps the field (R14), and EN from 0 to 1 evaluates the channel (R435, R451). -/
def cmpConfig (k : Nat) (v : Reg) (s : State) : State :=
  let was := s.on (TBU_CMP_CFG_EN k)
  let act := s.fld (TBU_CMP_CFG_ACT k)
  let s := s.setReg (TBU_CMP_CFG k) (v &&& 0xF7F)
  let s := if 4 < bitsOf v.toNat 1 3 then s.setFld (TBU_CMP_CFG_ACT k) act else s
  if !was ∧ s.on (TBU_CMP_CFG_EN k) then cmpEval k s else s

/-- R438: a group load of `n` channels from `first + i` on. -/
def groupLoop (first i : Nat) : Nat → State → State
  | 0, s => s
  | n + 1, s =>
    let per := (s.reg TBU_GRP_PER).toNat
    let count := s.fld TBU_GRP_CTL_COUNT
    let base := s.reg64 TBU_GRP_BASE_LO TBU_GRP_BASE_HI
    let s := s.setReg (TBU_CMP_PER (first + i)) (if s.on TBU_GRP_CTL_RELOAD then BitVec.ofNat 32 per else 0)
    groupLoop first (i + 1) n (cmpSet (first + i) (base + BitVec.ofNat 64 (i * per / count)) s)

/-- A write of TBU_GRP_CTL (R438): its fields, the W1C of GERR, and the group load of GO. -/
def groupWrite (v : Reg) (s : State) : State :=
  let w := v.toNat
  let s := if bitsOf w 25 1 = 1 then s.clearFld TBU_GRP_CTL_GERR else s
  let s := ((s.setFld TBU_GRP_CTL_FIRST (bitsOf w 0 5)).setFld TBU_GRP_CTL_COUNT (bitsOf w 8 6)).setFld TBU_GRP_CTL_RELOAD
    (bitsOf w 16 1)
  if bitsOf w 24 1 = 1 then
    let first := bitsOf w 0 5
    let count := bitsOf w 8 6
    if count = 0 ∨ 32 < first + count then s.raiseBit TBU_GRP_CTL_GERR else groupLoop first 0 count s
  else s

/-! ### Capture pairs -/

/-- An accepted edge at pin TMIj (R439 to R441). -/
def captureEdge (j : Nat) (rising : Bool) (s : State) : State :=
  let s := s.setFld (TBU_CAP_STAT_LVL j) (if rising then 1 else 0)
  if !s.on (TBU_CAP_CFG_EN j) then s
  else
    let lf := s.on TBU_TB_STAT_LF
    let t := if lf then s.clk.tb else s.clk.tb - BitVec.ofNat 64 (2 + s.fld (TBU_CAP_CFG_FILT j))
    let sel := s.fld (TBU_CAP_CFG_EVSEL j)
    if rising then
      if s.on (TBU_CAP_STAT_RV j) then s.raiseBit (TBU_CAP_STAT_ROVR j)
      else
        let s := (s.setReg64 (TBU_CAP_RISE_LO j) (TBU_CAP_RISE_HI j) t).raiseBit (TBU_CAP_STAT_RV j)
        let s := s.setFld (TBU_CAP_STAT_LFR j) (if lf then 1 else 0)
        if sel = 1 ∨ sel = 3 then raise (48 + j) s else s
    else
      if s.on (TBU_CAP_STAT_FV j) then s.raiseBit (TBU_CAP_STAT_FOVR j)
      else
        let s := (s.setReg64 (TBU_CAP_FALL_LO j) (TBU_CAP_FALL_HI j) t).raiseBit (TBU_CAP_STAT_FV j)
        let s := s.setFld (TBU_CAP_STAT_LFR j) (if lf then 1 else 0)
        let s := if s.on (TBU_CAP_STAT_RV j) then
            let w := (t - s.reg64 (TBU_CAP_RISE_LO j) (TBU_CAP_RISE_HI j)).toNat
            (s.setReg (TBU_CAP_WIDTH j) (BitVec.ofNat 32 (min w 0xFFFFFFFF))).raiseBit (TBU_CAP_STAT_WV j)
          else s
        if sel = 2 ∨ sel = 3 then raise (48 + j) s else s

/-! ### The Tick Unit -/

/-- A write of 1 to TBU_TICK_CTL.EN arms the Tick Unit: no instant at or below TB acts (R442). -/
def tickArm (s : State) : State :=
  let s := s.raiseBit TBU_TICK_CTL_EN
  { s with clk := { s.clk with tickDone := true } }

/-- The first multiple of `p` at or after `t`. -/
def alignUp (p t : Nat) : Nat := (t + p - 1) / p * p

/-- A write of TBU_TICK_PER (R444, R445): a value in range is staged and aligned to the instant TBU_TICK_NEXT holds. After the old period's
last instant, the instant at which a replaced period would have taken effect is none of its own. -/
def tickPeriod (v : Reg) (s : State) : State :=
  let p := bitsOf v.toNat 0 27
  if 20000 ≤ p ∧ p ≤ 100000000 then
    let t := s.clk.tb.toNat
    let base := match s.clk.perStage with
      | some (_, b, _) => if t < b then s.clk.nextAt t else b
      | none => s.clk.nextAt t
    let k := { s.clk with perStage := some (p, base, alignUp p (s.clk.nextAt t)) }
    let s := { s with clk := k }
    let s := (s.setFld TBU_TICK_PER_PER p).raiseBit TBU_TICK_STAT_PEND
    s.setReg64 TBU_TICK_NEXT_LO TBU_TICK_NEXT_HI (BitVec.ofNat 64 (k.nextAt s.clk.tb.toNat))
  else s

/-- Is CRP in RUN or DOZE? -/
def State.awake (s : State) : Bool := decide (s.fld CRP_PWR_STAT_STATE = 1) || decide (s.fld CRP_PWR_STAT_STATE = 2)

/-- Does the last update hold a tick instant that acts (R443)? -/
def State.tickDue (s : State) : Bool :=
  s.on TBU_TICK_CTL_EN && !s.clk.tickDone && decide (0 < s.clk.passed)

/-- The Tick Unit's part of a tick instant (R442, R443): E0, STARTED, and the strobe or the skip count. The Bool says whether the strobe
is sent. -/
def tickInstant (s : State) : Bool × State :=
  let n := s.clk.passed
  let s := (raise 0 s).raiseBit TBU_TICK_STAT_STARTED
  let s := { s with clk := { s.clk with tickDone := true } }
  if n = 1 ∧ s.awake then (true, { s with clk := { s.clk with t0 := s.clk.pclk, margin := false } })
  else (false, s.addSat TBU_TICK_STAT_SKIP n)

/-! ### The watchdog -/

/-- The reload value of the watchdog's counter (R447). -/
def wdgReload (s : State) : State := s.setReg MOTH_WDG_CNT (BitVec.ofNat 32 (s.fld MOTH_WDG_PER_PERIOD * 16))

/-- One LFCLK edge at the watchdog (R447, R449). -/
def wdgEdge (s : State) : State :=
  if s.on MOTH_WDG_CFG_EN ∧ ¬ s.on MOTH_WDG_STAT_PAUSED ∧ 0 < s.fld MOTH_WDG_CNT_COUNT then
    let c := s.fld MOTH_WDG_CNT_COUNT - 1
    let s := s.setReg MOTH_WDG_CNT (BitVec.ofNat 32 c)
    { s with clk := { s.clk with warnDue := s.clk.warnDue || decide (c = s.fld MOTH_WDG_PER_WARN),
                                 expDue := s.clk.expDue || decide (c = 0) } }
  else s

/-- The counter reaches WARN (R447). -/
def wdgWarn (s : State) : State :=
  if s.clk.warnDue then
    raise 1 ({ s with clk := { s.clk with warnDue := false } }.raiseBit MOTH_WDG_STAT_WARNED)
  else s

/-- A write to MOTH_WDG_SVC (R448). -/
def wdgService (key : BitVec 32) (s : State) : State :=
  if key = 0x0000A5C3 then s.raiseBit MOTH_WDG_STAT_ARMED
  else if key = 0x00003C5A ∧ s.on MOTH_WDG_STAT_ARMED then wdgReload (s.clearFld MOTH_WDG_STAT_ARMED)
  else (s.raiseBit MOTH_WDG_STAT_BADKEY).clearFld MOTH_WDG_STAT_ARMED

/-- A write of MOTH_WDG_CFG (R450): its fields while LOCK is 0, and LOCK itself. -/
def wdgConfig (v : Reg) (s : State) : State :=
  let w := v.toNat
  let s := if s.on MOTH_WDG_CFG_LOCK then s
    else ((s.setFld MOTH_WDG_CFG_EN (bitsOf w 0 1)).setFld MOTH_WDG_CFG_ACTION (bitsOf w 1 1)).setFld MOTH_WDG_CFG_DBG (bitsOf w 2 1)
  if bitsOf w 31 1 = 1 then s.raiseBit MOTH_WDG_CFG_LOCK else s

end Sys2Proof.Machine
end

