-- ==== Sys2Proof/Machine/Pod.lean ====
section
/-! DEFINITION. The Pod allocator and running chains (chapters 04 and 05): tickets and acceptance, grants, the elements a run issues
and stores, drains and cuts, and the end of a run with its progress record. -/

namespace Sys2Proof.Machine

/-! ### Tickets -/

def State.ticket (s : State) (ls t : Nat) : Option Ticket := Tbl.get none (256 * ls + t) s.alloc.tickets
def State.setTicket (s : State) (ls t : Nat) (v : Option Ticket) : State :=
  { s with alloc := { s.alloc with tickets := Tbl.set none (256 * ls + t) v s.alloc.tickets } }

/-- Live tickets of LSn. -/
def State.liveTickets (s : State) (ls : Nat) : List (Nat × Option Ticket) :=
  s.alloc.tickets.filter (fun e => decide (256 * ls ≤ e.1) && decide (e.1 < 256 * ls + 256))

/-- The next value of the cycle 1, 2, …, 255, 1, … that is not live (R141). -/
def State.nextTicket (s : State) (ls : Nat) : Nat :=
  let last := Tbl.get 0 ls s.alloc.last
  match firstBelow (fun i => (s.ticket ls ((last + i) % 255 + 1)).isNone) 255 with
  | some i => (last + i) % 255 + 1
  | none => 0

/-- A completion status (Table 4.15): flags and an outcome bit. -/
def statusWord (fl : FFlags) (bit : Nat) : Word := BitVec.ofNat 16 (fl.bits + 2 ^ bit)

/-! ### Acceptance (R139 to R141, R180) -/

/-- Does the logical sequencer's issue address `w`, `n` words, lie in stream memory or in its own local scratch? -/
def State.descRegion (s : State) (ls w n : Nat) : Bool :=
  decide (w + n ≤ s.build.granules * 8) || (decide (0x10000000 + ls * 0x10000 ≤ w) && decide (w + n ≤ 0x10000000 + (ls + 1) * 0x10000))

/-- The checks of R139 on `n` descriptor words at word address `w`, in table order; a view of 0b11 on stream memory breaks R77. -/
def State.descCheck (s : State) (ls : Nat) (cap : Cap) (w n : Nat) : Option FaultRec :=
  if !s.capTagged cap then some (capFault 0 w)
  else if cap.otype ≠ 0 then some (capFault 1 w)
  else if !(cap.has 0 && cap.has 5) ∨ (cap.view = 3 ∧ w < s.build.granules * 8) then some (capFault 2 w)
  else if w < cap.base ∨ cap.base + cap.length < w + n then some (capFault 3 w)
  else if w % 8 ≠ 0 then some (mkFault 3 0 w)
  else if !s.descRegion ls w n then some (mkFault 2 0 w)
  else none

/-- `n` granules of a descriptor at word address `w`, read in order as pieces `j` on: under Table 3.5 in the capability's view and group, or in
local scratch. None while one has not arrived; the fault of an uncorrectable one names its own address (R311). -/
def descRead (c : CoreId) (cap : Cap) (w j : Nat) : Nat → State → Option (Except FaultRec (List Gran)) × State
  | 0, s => (some (.ok []), s)
  | n + 1, s =>
    match descRead c cap w j n s with
    | (some (.ok gs), s) =>
      match pieceRead c cap (j + n) (w + 8 * n) s with
      | (some (.ok d _), s) => (some (.ok (gs ++ [d])), s)
      | (some _, s) => (some (.error (mkFault 2 1 (w + 8 * n))), s)
      | (none, s) => (none, s)
    | r => r

/-- One descriptor read and checked (R134, R139): its header, then the rest when the header meets conditions 1 and 2; none while a granule has not
arrived. -/
def descFetch (c : CoreId) (ls : Nat) (cap : Cap) (w j : Nat) (s : State) : Option (Except FaultRec RawChain) × State :=
  match s.descCheck ls cap w 32 with
  | some f => (some (.error f), s)
  | none => match descRead c cap w j 4 s with
    | (none, s) => (none, s)
    | (some (.error f), s) => (some (.error f), s)
    | (some (.ok gs), s) =>
      let r := rawOf gs
      if !r.hdrOk then (some (.ok { r with ents := [], strs := [] }), s)
      else match s.descCheck ls cap w (8 * r.grans) with
        | some f => (some (.error f), s)
        | none => match descRead c cap w j r.grans s with
          | (none, s) => (none, s)
          | (some (.error f), s) => (some (.error f), s)
          | (some (.ok gs), s) => (some (.ok (rawOf gs)), s)

/-- The capability registers the streams of a chain name, as they stand (R140). -/
def State.streamCaps (s : State) (c : CoreId) : Tbl Cap :=
  (List.range 8).foldl (fun t r => Tbl.set Cap.null r (s.capReg c r) t) []

/-- The VPR field `[lo + w - 1 : lo]` of a record. -/
def vprField (v : BitVec 256) (lo w : Nat) : Nat := bitsOf v.toNat lo w

/-- The pushed ticket retires the VISSUE or VRESUME of core `c`, which takes 17 SCLK in DET where its descriptor does not lie in stream memory
(Table 7.17). -/
def pushTicket (c : CoreId) (p : Nat) (t : Nat) (timed : Bool) (s : State) : State :=
  let q := (s.core c).vreq
  let s := endPieces c (s.setCore c { s.core c with vreq := none })
  let s := match s.view c with
    | some v => retire c (v.eff p [BitVec.ofNat 16 t]) none s
    | none => s
  match q with
  | some q => if timed then retireAt c q.since 17 s else s
  | none => s

/-- The queue with a request behind those accepted before it: of two accepted in one PCLK, the lower logical sequencer number counts as the
earlier (R146). -/
def acceptInto (q : AReq) (l : List AReq) : List AReq :=
  let later := fun (x : AReq) => decide (x.since = q.since) && decide (q.ls < x.ls)
  l.filter (fun x => !later x) ++ [q] ++ l.filter later

/-- A ticket for an accepted chain: ENDED with ILLEGAL, or QUEUED with its request in the queue (R134, R142). -/
def acceptChain (ls ctx index seg : Nat) (r : RawChain) (r2 : Option RawChain) (ch : Chain) (s : State) : Nat × State :=
  let t := s.nextTicket ls
  let ill := legality (s.on POD_ALLOC_CFG_PAIR_EN) r r2 ch
  let s := { s with alloc := { s.alloc with last := Tbl.set 0 ls t s.alloc.last } }
  if ill ≠ 0 then
    (t, s.setTicket ls t (some { st := .ended, status := BitVec.ofNat 16 (2 ^ 9 + ill * 2 ^ 10), prog := 0 }))
  else
    let s := s.setTicket ls t (some { st := .queued, status := 0, prog := 0 })
    let q : AReq := { ls := ls, ticket := t, ctx := ctx, chain := ch, index := index, seg := seg, age := 0, urgent := none,
                      since := s.clk.pclk, bound := ch.bound index seg, held := false }
    (t, { s with alloc := { s.alloc with queue := acceptInto q s.alloc.queue } })

/-- The allocator serves the VISSUE or VRESUME of core `c` (R139 to R141, R179, R180); it waits while a granule of the descriptor has not
arrived. -/
def allocAccept (c : CoreId) (s : State) : State :=
  match c, (s.core c).vreq, s.liveKey c with
  | .seq n, some q, some key =>
    match s.lsOfSeq n with
    | none => s
    | some ls =>
      let vpr := (s.ctxAt key).vpr
      let p := if q.resume then 0 else 2
      if q.resume ∧ vprField vpr 0 1 = 0 then pushTicket c p 0 true s
      else if 16 ≤ (s.liveTickets ls).length then pushTicket c p 0 true s
      else
        let creg := if q.resume then BitVec.ofNat 3 (vprField vpr 20 3) else q.creg
        let cap := s.capReg c creg.toNat
        let w := if q.resume then vprField vpr 160 40 else cap.base + q.off.toNat
        let refuse := fun (f : FaultRec) (s : State) => markFault c f (endPieces c (s.setCore c { s.core c with vreq := none }))
        let finish := fun (r : RawChain) (r2 : Option RawChain) (s : State) =>
          let ch := chainOf r r2 (BitVec.ofNat 40 w) creg (s.streamCaps c)
          let (index, seg) := if q.resume then (vprField vpr 32 24, vprField vpr 128 24) else (0, 0)
          let s := if q.resume then s.setCtxAt key { s.ctxAt key with vpr := vpr &&& ~~~1#256 } else s
          let (t, s) := acceptChain ls key index seg r r2 ch s
          pushTicket c p t (!s.isStream w) s
        match descFetch c ls cap w 0 (if s.isStream w ∧ (s.descCheck ls cap w 32).isNone then notFixed c s else s) with
        | (none, s) => s
        | (some (.error f), s) => refuse f s
        | (some (.ok r), s) =>
          if r.hdrOk ∧ r.pair then
            match descFetch c ls cap r.next 32 s with
            | (none, s) => s
            | (some (.error f), s) => refuse f s
            | (some (.ok r2), s) => finish r (some r2) s
          else finish r none s
  | _, _, _ => s

/-! ### Grants (R144 to R148, R36) -/

def State.run (s : State) (p : Nat) : Option Run := Tbl.get none p s.alloc.runs
def State.setRun (s : State) (p : Nat) (r : Option Run) : State :=
  { s with alloc := { s.alloc with runs := Tbl.set none p r s.alloc.runs } }

/-- The run that occupies physical Pod `p`, of either half. -/
def State.runOn (s : State) (p : Nat) : Option Run :=
  s.alloc.runs.findSome? (fun e => match e.2 with
    | some r => if r.pod = p ∨ r.pod2 = some p then some r else none
    | none => none)

/-- The logical Pod a physical Pod serves, if it is mapped (R119). -/
def State.lpOfPod (s : State) (p : Nat) : Option Nat :=
  firstBelow (fun k => decide (s.podOfLp k = some p)) s.build.lps

/-- Is LPk mapped, idle and not frozen (POD_ALLOC_STAT.FREE, R490)? -/
def State.lpFree (s : State) (k : Nat) : Bool :=
  match s.podOfLp k with
  | some p => (s.runOn p).isNone && !s.on (POD_STAT_SELFTEST p) && !decide (bitsOf (s.fld ⟨DBG_FREEZE, 0, 16⟩) k 1 = 1)
  | none => false

/-- Does request `x` come before `y` in the order of R146 (the queue is in acceptance order, so ties keep it)? -/
def State.before (s : State) (x y : AReq) : Bool :=
  match x.urgent, y.urgent with
  | some i, some j => decide (i < j)
  | some _, none => true
  | none, some _ => false
  | none, none =>
    let st := s.fld POD_ALLOC_CFG_AGE_STEP
    let px := x.chain.prio + x.age / st
    let py := y.chain.prio + y.age / st
    if px ≠ py then decide (py < px) else decide (y.age < x.age)

/-- The requests that compete, in the order of R146. -/
def State.ranked (s : State) : List AReq :=
  (s.alloc.queue.filter (fun r => !r.held)).foldl (fun (l : List AReq) r => l.takeWhile (fun x => !s.before r x) ++ [r] ++ l.dropWhile (fun x => !s.before r x)) []

/-- The lowest `k` whose pair LP2k, LP2k+1 satisfies `p`. -/
def State.pairWith (s : State) (p : Nat → Bool) : Option Nat := firstBelow p (s.build.lps / 2)

/-- The pair to reserve: the first request in order is urgent and paired, and no pair is free (R147). -/
def State.toReserve (s : State) : Option (Nat × Nat × Nat) :=
  match s.ranked with
  | r :: _ =>
    if r.urgent.isSome ∧ r.chain.paired ∧ (s.pairWith (fun k => s.lpFree (2 * k) && s.lpFree (2 * k + 1))).isNone then
      match s.pairWith (fun k => s.lpFree (2 * k) || s.lpFree (2 * k + 1)) with
      | some k => some (r.ls, r.ticket, k)
      | none => (s.pairWith (fun _ => true)).map (fun k => (r.ls, r.ticket, k))
    else none
  | [] => none

/-- A reservation stands until its request leaves the queue; without one, the pair of `toReserve` is reserved (R147). -/
def reservePair (s : State) : State :=
  let stands := match s.alloc.reserve with
    | some (l, t, _) => s.alloc.queue.any (fun r => decide (r.ls = l) && decide (r.ticket = t))
    | none => false
  if stands then s else { s with alloc := { s.alloc with reserve := s.toReserve } }

/-- The pair reserved. -/
def State.reserved (s : State) : Option Nat := s.alloc.reserve.map (fun x => x.2.2)

/-- Is the reserved pair kept from request `r`: is it reserved for another? -/
def State.keptFrom (s : State) (r : AReq) (k : Nat) : Bool :=
  match s.alloc.reserve with
  | some (l, t, j) => decide (j = k) && !(decide (l = r.ls) && decide (t = r.ticket))
  | none => false

/-- Where request `r` can run: the lowest free logical Pod, or the lowest free pair, that is not reserved for another request (assumption
66). -/
def State.place (s : State) (r : AReq) : Option Nat :=
  if r.chain.paired then
    (s.pairWith (fun k => s.lpFree (2 * k) && s.lpFree (2 * k + 1) && !s.keptFrom r k)).map (fun k => 2 * k)
  else firstBelow (fun k => s.lpFree k && !s.keptFrom r (k / 2)) s.build.lps

/-- Does the bounded run end before the next tick instant (R36), PCLK at 1.5 GHz? -/
def State.fits (s : State) (r : AReq) : Bool :=
  decide (2 * r.bound < 3 * (s.clk.nextAt s.clk.tb.toNat - s.clk.tb.toNat))

/-- During the quiesce margin every request that does not fit is held (R36). -/
def holdRequests (s : State) : State :=
  if s.clk.margin then
    let s := tally 5 0 2 (s.alloc.queue.countP (fun r => !r.held && !s.fits r)) s
    { s with alloc := { s.alloc with queue := s.alloc.queue.map (fun r => if s.fits r then r else { r with held := true }) } }
  else s

/-- A Pod's registers at the grant of a run (R151, Table 4.16). POD_FLAGS then reads 0 until the run ends, when its stop index is known
(DESIGN CHOICE: assumption 82). -/
def podStart (p : Nat) (q : AReq) (hi : Bool) (s : State) : State :=
  let s := (s.raiseBit (POD_STAT_BUSY p)).setFld (POD_STAT_PAIRED p) q.chain.paired.toNat
  let s := (s.setFld (POD_STAT_PAIR_HI p) hi.toNat).setFld (POD_STAT_CTX p) q.ctx
  let s := (s.setFld (POD_TICKET_TICKET p) q.ticket).setReg (POD_FLAGS p) 0
  let s := s.setReg64 (POD_CHAIN_LO p) (POD_CHAIN_HI p) (q.chain.addr.zeroExtend 64)
  s.setFld (POD_RUNS_COUNT p) (s.fld (POD_RUNS_COUNT p) + 1)

/-- Request `q` starts on logical Pod `k`, and on `k + 1` when it is paired. -/
def startRun (q : AReq) (k : Nat) (s : State) : State :=
  match s.podOfLp k with
  | none => s
  | some p =>
    let p2 := if q.chain.paired then s.podOfLp (k + 1) else none
    let r := Run.init q p p2
    let s := podStart p q false s
    let s := match p2 with
      | some p2 => podStart p2 q true s
      | none => s
    s.setRun p (some r)

/-- ALLOC_GRANT (R144 to R148). -/
def allocGrant (s : State) : State :=
  let s := reservePair (holdRequests s)
  if !s.on POD_ALLOC_CFG_EN then s
  else match s.ranked.findSome? (fun r => (s.place r).map (fun k => (r, k))) with
    | none => s
    | some (q, k) =>
      let n := s.alloc.grants
      let rest := (s.alloc.queue.filter (fun r => decide (r.ls ≠ q.ls ∨ r.ticket ≠ q.ticket))).map (fun r =>
        if r.held then r
        else { r with age := min (r.age + 1) 15, urgent := if r.urgent.isNone ∧ 14 ≤ r.age then some n else r.urgent })
      let s := tally 5 0 1 q.urgent.isSome.toNat (tally 5 0 0 1 s)
      let s := { s with alloc := { s.alloc with queue := rest, grants := n + 1 } }
      let s := s.setFld POD_ALLOC_WAIT_MAXWAIT (max (s.fld POD_ALLOC_WAIT_MAXWAIT) (min (s.clk.pclk - q.since) 0xFFFFFF))
      let s := match s.ticket q.ls q.ticket with
        | some t => s.setTicket q.ls q.ticket (some { t with st := .running })
        | none => s
      reservePair (startRun q k s)

/-! ### The values of a run -/

/-- Keys of the tables of a run. -/
def elemKey (k i : Nat) : Nat := k * 2 ^ 25 + i

def Run.chain (r : Run) : Chain := r.req.chain
def Run.n (r : Run) : Nat := r.req.chain.n
/-- The first element the run computes (R181). -/
def Run.first (r : Run) : Nat := r.chain.firstElem r.req.index
/-- Bound `j` of LDS entry `k`, once it is read and checked. -/
def Run.rp (r : Run) (k j : Nat) : Option Nat :=
  if j < Tbl.get r.req.seg k r.nb then Tbl.get none (elemKey k j) r.bounds else none

/-- The LDS entry an RD entry takes its segments from. -/
def segSource (e : PEntry) : Option Nat := if e.srcB / 32 = 1 then some (e.srcB % 32) else none

/-- Segment `j` of RD entry `e`: its first element and the element after its last. -/
def Run.segment (r : Run) (e : PEntry) (j : Nat) : Option (Nat × Nat) :=
  match segSource e with
  | none => some (0, r.n)
  | some k => match r.rp k j, r.rp k (j + 1) with
    | some a, some b => some (a, b)
    | _, _ => none

/-- The segment of RD scan entry `e` that contains element `i`. A resume carries no prefix over: without a segment operand the prefix starts
at the first element computed, and the elements that PERM has computed again below INDEX are a segment of their own (DESIGN CHOICE:
assumption 83). -/
def Run.segOf (r : Run) (e : PEntry) (i : Nat) : Option (Nat × Nat) :=
  match segSource e with
  | none => some (r.first, r.n)
  | some k =>
    if i < r.req.index then some (r.first, r.req.index)
    else match firstBelow (fun d => match r.segment e (r.req.seg + d) with
        | some (a, b) => decide (a ≤ i) && decide (i < b)
        | none => false) (Tbl.get r.req.seg k r.nb - r.req.seg) with
    | some d => r.segment e (r.req.seg + d)
    | none => none

/-- The active elements among the `n` from `lo` on with their values, none while one of them is not available. -/
def gather (act : Nat → Option Bool) (val : Nat → Option Nat) (lo : Nat) : Nat → Option (List (Nat × Nat))
  | 0 => some []
  | n + 1 =>
    match gather act val lo n, act (lo + n) with
    | some xs, some false => some xs
    | some xs, some true => (val (lo + n)).map (fun v => xs ++ [(lo + n, v)])
    | _, _ => none

/-- Output `i` of entry `k` with its flags (for a mask output, 0 or 1; for a reduce operation, the result of segment `i`), by the
operations of chapter 04; none while it is not available. PERM passes bit patterns, as PASS and SEL do: FZ does not flush them (DESIGN
CHOICE: assumption 84). A reduction of a resumed run takes the elements from INDEX on (R181). -/
def Run.out (r : Run) : Nat → Nat → Nat → Option (Nat × FFlags)
  | 0, _, _ => none
  | f + 1, k, i =>
    match r.chain.entry k with
    | none => none
    | some e =>
      let src := fun (x i : Nat) =>
        if x / 32 = 1 ∨ x / 32 = 4 then (r.out f (x % 32) i).map Prod.fst
        else if x / 32 = 2 then some e.imm
        else if x / 32 = 3 then some (i % 2 ^ tyWidth e.type)
        else some 0
      let act := fun (i : Nat) => if e.masked then (src e.srcM i).map (fun m => xor (decide (m = 1)) e.mpol) else some true
      if e.isLd then (Tbl.get none (elemKey k i) r.vals).map plainRes
      else if e.slot = 8 then
        let val := if e.op = 7 then (fun _ => some 1) else src e.srcA
        if e.isReduce then
          match r.segment e i with
          | none => none
          | some (a, b) => (gather act val (max a r.req.index) (b - max a r.req.index)).map (peaReduce e a)
        else
          match r.segOf e i, act i with
          | some (a, _), some m => (gather act val a (i + 1 - a)).map (peaScan e m)
          | _, _ => none
      else
        match act i, src e.srcA i with
        | some false, some a =>
          if e.slot = 7 ∧ csMask e.op then some (plainRes 0)
          else if e.isCvt ∧ tyWidth e.stype ≠ tyWidth e.type then
            some (plainRes (Config.cvtInactive e.stype e.type a % 2 ^ tyWidth e.type))
          else some (plainRes a)
        | some true, some a =>
          match src e.srcB i, src e.srcC i, src e.srcM i with
          | some b, some c, some m =>
            if e.isPerm then
              let j := 16 * (i / 16) + b % 16
              if r.n ≤ j then some (plainRes 0) else (src e.srcA j).map plainRes
            else if e.slot = 7 then some (peaCs e a b c m)
            else if e.slot ≤ 4 then some (peaAl e a b c m)
            else some (peaMa e a b c)
          | _, _, _ => none
        | _, _ => none

/-- Output `i` of entry `k` (entries name only lower ones, so twenty levels suffice). -/
def Run.value (r : Run) (k i : Nat) : Option (Nat × FFlags) := r.out 21 k i

/-- Operand A of ST entry `e` at `i`. -/
def Run.source (r : Run) (e : PEntry) (i : Nat) : Option Nat :=
  if e.srcA / 32 = 1 then (r.value (e.srcA % 32) i).map Prod.fst
  else if e.srcA / 32 = 2 then some e.imm
  else some (i % 2 ^ tyWidth e.type)

/-- Is element `i` of entry `e` active (R126)? -/
def Run.active (r : Run) (e : PEntry) (i : Nat) : Option Bool :=
  if e.masked then (r.value (e.srcM % 32) i).map (fun m => xor (decide (m.1 = 1)) e.mpol) else some true

/-- Does an ST entry store the results of a reduce operation; and which? -/
def Run.reduceOf (r : Run) (e : PEntry) : Option PEntry :=
  match r.chain.entry (e.srcA % 32) with
  | some s => if e.srcA / 32 = 1 ∧ s.isReduce then some s else none
  | none => none

/-- The count of an ST entry's writes: elements, or segments. -/
def Run.count (r : Run) (e : PEntry) : Nat :=
  match r.reduceOf e with
  | some d => match segSource d with
    | some k => match (r.chain.entry k).bind r.chain.stream with
      | some s => s.param.toNat
      | none => 1
    | none => 1
  | none => r.n

/-- Where an entry starts: elements from the first computed, stores from INDEX, results and bounds from SEG. -/
def Run.start (r : Run) (e : PEntry) : Nat :=
  if e.isLd then (if e.op = 3 then r.req.seg else r.first)
  else if (r.reduceOf e).isSome then r.req.seg else r.req.index

def Run.nextOf (r : Run) (e : PEntry) : Nat := Tbl.get (r.start e) e.idx r.next
/-- The writes of ST entry `e` made and not granted. -/
def Run.writesOf (r : Run) (e : PEntry) : List PWrite := r.writes.filter (fun w => decide (w.ent = e.idx))
/-- The lowest element, or result, of ST entry `e` whose write is not granted. -/
def Run.landedOf (r : Run) (e : PEntry) : Nat :=
  (r.writesOf e).foldl (fun m w => w.els.foldl (fun m x => min m x.1) m) (r.nextOf e)
def Run.setNext (r : Run) (e : PEntry) (i : Nat) : Run := { r with next := Tbl.set (r.start e) e.idx i r.next }

/-- The byte address of element, or bound, `i` of a stream, with its signed offset from the capability's base (R160, FOFF). -/
def Run.elemAddr (r : Run) (s : PStream) (i : Nat) : Option Int :=
  if s.kind = 0 then some (s.offset + (i : Int) * s.param.toInt)
  else if s.kind = 1 then
    match r.chain.entry (s.isrc % 32) with
    | some e => (r.value (s.isrc % 32) i).map (fun v => s.offset + tyInt e.outType v.1 * s.size)
    | none => none
  else if s.kind = 3 then some (s.offset + (i / 8 : Nat))
  else some (s.offset + 4 * (i : Int))

/-- The checks of Table 5.3 on offset `o` from the base of `cap`, `n` bytes: class and cause of the first that fails. -/
def State.elemCheck (s : State) (cap : Cap) (store : Bool) (o : Int) (n : Nat) : Option (Nat × Nat) :=
  let a := 2 * (cap.base : Int) + o
  if !s.capTagged cap then some (1, 0)
  else if cap.otype ≠ 0 then some (1, 1)
  else if !cap.has (if store then 1 else 0) ∨ cap.view = 3 ∨ (store ∧ cap.view = 1) then some (1, 2)
  else if o < 0 ∨ 2 * (cap.length : Int) < o + n then some (1, 3)
  else if a % n ≠ 0 then some (3, 0)
  else if (s.build.granules * 16 : Int) < a + n then some (2, 0)
  else none

/-! ### Faults of a run (R165, R167, R170, R171) -/

/-- Does fault `x` replace the recorded fault `y`: a lower element, at the same element a load side before a store side, then the lower
entry? -/
def Run.replaces (r : Run) (x y : PFault) : Bool :=
  let st := fun (k : Nat) => match r.chain.entry k with
    | some e => e.isSt
    | none => false
  if x.e ≠ y.e then decide (x.e < y.e)
  else if st x.entry ≠ st y.entry then !st x.entry
  else decide (x.entry < y.entry)

/-- The element a result write of segment `j` counts as: the first of its segment, 0 without segments (R167). -/
def Run.resultElem (r : Run) (d : PEntry) (j : Nat) : Nat :=
  match segSource d with
  | some k => match r.rp k j with
    | some a => min a (r.n - 1)
    | none => 0
  | none => 0

/-! ### What a stopping run still writes (R131, R167, R170) -/

/-- The RD entry whose segments say where a run stops early: a reduce operation without segments, else the first reduce operation, else a
scan (R131, R174; where both halves of a pair reduce over segments, the first: DESIGN CHOICE, assumption 85). -/
def Chain.stopRd (c : Chain) : Option PEntry :=
  match c.entries.find? (fun e => e.isReduce && (segSource e).isNone), c.entries.find? PEntry.isReduce with
  | some d, _ => some d
  | none, some d => some d
  | none, none => c.entries.find? PEntry.isScan

/-- Where a run stops whose first element not processed is `x`: in a chain that reduces, the start of the segment that holds it, 0 without
segments (R131). -/
def Run.stopAt (r : Run) (x : Nat) : Nat :=
  match r.chain.stopRd with
  | some d =>
    if d.isReduce then
      match segSource d with
      | none => 0
      | some k => match r.segOf d x with
        | some (a, _) => a
        | none => (r.rp k (Tbl.get r.req.seg k r.nb - 1)).getD r.req.index
    else x
  | none => x

/-- Does ST entry `e` store the results of a scan? -/
def Run.storesScan (r : Run) (e : PEntry) : Bool :=
  match r.chain.entry (e.srcA % 32) with
  | some d => decide (e.srcA / 32 = 1) && d.isScan
  | none => false

/-- Is write `i` of ST entry `e` made although the run stops at element `x`: an element below it (of a scan beside a reduction, below the
stop index), or the result of a segment that ends at or below it, before the write of the entry that faulted (R131, R167, R170)? -/
def Run.lands (r : Run) (e : PEntry) (x i : Nat) : Bool :=
  (match Tbl.get none e.idx r.stops with
   | some j => decide (i < j)
   | none => true) &&
  (match r.reduceOf e with
   | some d => match r.segment d i with
     | some (_, b) => decide (b ≤ x)
     | none => false
   | none => decide (i < (if r.storesScan e then r.stopAt x else x)))

/-- The kind of a write: the bytes of its elements, `n` each, a higher element over a lower one (R168), clearing the tag (R296). -/
def PWrite.kind (w : PWrite) (n : Nat) : Kind :=
  let bytes := fun (x : Nat × Nat × Nat) => BitVec.ofNat 128 ((x.2.2 % 2 ^ (8 * n)) * 2 ^ (8 * x.2.1))
  let mask := fun (x : Nat × Nat × Nat) => BitVec.ofNat 128 ((2 ^ (8 * n) - 1) * 2 ^ (8 * x.2.1))
  .write (w.els.foldl (fun d x => (d &&& ~~~(mask x)) ||| bytes x) 0)
    (w.els.foldl (fun b x => b ||| BitVec.ofNat 16 ((2 ^ n - 1) * 2 ^ x.2.1)) 0) false

/-- The write with other elements of the same granule. -/
def PWrite.withEls (w : PWrite) (n : Nat) (els : List (Nat × Nat × Nat)) : PWrite :=
  { w with els := els, acc := { w.acc with kind := PWrite.kind { w with els := els } n } }

/-- Element size of the stream of an entry. -/
def Run.sizeOf (r : Run) (k : Nat) : Nat :=
  match (r.chain.entry k).bind r.chain.stream with
  | some t => t.size
  | none => 1

/-- The run as element `x` stops it: of its writes not granted only what lands is kept. -/
def Run.trim (r : Run) (x : Nat) : Run :=
  let stays := fun (w : PWrite) (y : Nat × Nat × Nat) => match r.chain.entry w.ent with
    | some e => r.lands e x y.1
    | none => false
  let ws := r.writes.map (fun w => w.withEls (r.sizeOf w.ent) (w.els.filter (stays w)))
  let lost := fun (e : PEntry) => (r.writesOf e).foldl (fun m w => w.els.foldl (fun m y => if r.lands e x y.1 then m else min m y.1) m) (r.nextOf e)
  r.chain.entries.foldl (fun (q : Run) e => if e.isSt then q.setNext e (lost e) else q) { r with writes := ws.filter (fun w => !w.els.isEmpty) }

/-- The run as a cut stops it: none of its writes not granted is made (R172). -/
def Run.cutOff (r : Run) : Run :=
  r.chain.entries.foldl (fun (q : Run) e => if e.isSt then q.setNext e (r.landedOf e) else q) { r with writes := [], cut := true }

/-- Is a waiting access of the run's Pods one that the drain at element `x` withdraws: a load's element from `x` on, or a write that is not
among `ws` (R170, Table 5.5)? -/
def Run.withdrawn (r : Run) (ws : List PWrite) (x : Nat) : Dest → Bool
  | .podLd p k i =>
    (decide (p = r.pod) || decide (r.pod2 = some p)) && (match r.chain.entry k with
      | some e => !decide (e.op = 3) && decide (x ≤ i)
      | none => false)
  | .podSt p i => (decide (p = r.pod) || decide (r.pod2 = some p)) && !(ws.any (fun w => decide (w.acc.dest = .podSt p i)))
  | _ => false

/-- The requests of a run's writes carry what the writes hold now. -/
def syncWrites (ws : List PWrite) (s : State) : State :=
  let now := fun (a : Access) => match ws.find? (fun w => decide (w.acc.dest = a.dest)) with
    | some w => w.acc
    | none => a
  { s with arb := { s.arb with reqs := s.arb.reqs.map (fun q => { q with acc := now q.acc }), held := s.arb.held.map now } }

/-- A fault at an element starts, or lowers, a drain (R170, R171). -/
def drain (p : Nat) (x : PFault) (s : State) : State :=
  match s.run p with
  | none => s
  | some r =>
    if r.cut then s
    else
      let take := match r.fault with
        | none => true
        | some y => r.replaces x y
      if take then
        let q := { r.trim x.e with fault := some x }
        syncWrites q.writes (withdraw (r.withdrawn q.writes x.e) (s.setRun p (some q)))
      else s

/-- The fault element of bound `j` of LDS entry `k`, once the bounds before it are checked (Table 5.4, R181). -/
def Run.boundElem (r : Run) (k j : Nat) : Nat :=
  if j = r.req.seg then r.req.index
  else match Tbl.get none (elemKey k (j - 1)) r.bounds with
    | some a => min a (r.n - 1)
    | none => 0

/-- Bounds that have arrived, or failed, are taken in ascending order (R164, R165): the first that failed Table 5.3 or its read, or whose
value is wrong, faults. rp[0] is 0 (rp[SEG] is INDEX in a resume), each is not below the one before it nor above N, and rp[NSEG] is N.
`fuel` bounds how many. -/
def checkBounds (p k : Nat) : Nat → State → State
  | 0, s => s
  | fuel + 1, s =>
    match s.run p with
    | none => s
    | some r =>
      let j := Tbl.get r.req.seg k r.nb
      let fail := fun (e cls cause : Nat) (t : PStream) =>
        drain p { e := e, entry := k, stream := (match r.chain.entry k with
                    | some e => e.imm % 4
                    | none => 0), cls := cls, cause := cause, foff := BitVec.ofNat 48 (t.offset + 4 * j) } s
      match Tbl.get none (elemKey k j) r.bounds, Tbl.get none (elemKey k j) r.bad, (r.chain.entry k).bind r.chain.stream with
      | _, some (cls, cause), some t => fail (r.boundElem k j) cls cause t
      | some v, none, some t =>
        let nseg := t.param.toNat
        let wrong :=
          if j = r.req.seg then decide (v ≠ r.req.index)
          else match Tbl.get none (elemKey k (j - 1)) r.bounds with
            | some a => decide (v < a) || decide (r.n < v)
            | none => false
        if wrong then fail (r.boundElem k j) 2 2 t
        else if j = nseg ∧ v < r.n then fail v 2 2 t
        else checkBounds p k fuel (s.setRun p (some { r with nb := Tbl.set r.req.seg k (j + 1) r.nb }))
      | _, _, _ => s

/-- Bound `j` of entry `k` failed its check or its read. -/
def boundFails (r : Run) (k j cls cause : Nat) (s : State) : State :=
  checkBounds r.pod k (j + 2) (s.setRun r.pod (some { r with bad := Tbl.set none (elemKey k j) (some (cls, cause)) r.bad }))

/-! ### Issue -/

/-- The elements a load streamer may request: below a drain's element, and, with segments, behind a checked bound (R165, R170). -/
def Run.mayLoad (r : Run) (i : Nat) : Bool :=
  decide (i < r.n) && (match r.fault with
    | some f => decide (i < f.e)
    | none => true) &&
  r.chain.entries.all (fun e => !(e.isLd && decide (e.op = 3)) ||
    (match r.rp e.idx (Tbl.get r.req.seg e.idx r.nb - 1) with
     | some b => decide (i < b)
     | none => false))

/-- The writes an ST entry may make. -/
def Run.mayStore (r : Run) (e : PEntry) (i : Nat) : Bool :=
  decide (i < r.count e) && (match r.fault with
    | none => true
    | some f => r.lands e f.e i)

/-- The requester port of a streamer of logical Pod `lp` (Table 2.4). -/
def podPort (lp slot : Nat) : Nat := if slot = 9 then 3 + lp else 19 + 3 * lp + slot

/-- The access of entry `e` at byte `a`. -/
def streamAccess (cap : Cap) (e : PEntry) (lp a : Nat) (dest : Dest) (kind : Kind) : Access :=
  { dest := dest, port := podPort lp e.slot, gran := a / 16, view := cap.view, group := cap.group, owner := BitVec.ofNat 16 cap.owner,
    kind := kind }

/-- A write of `n` bytes of `v` at byte `o` of a granule, clearing its tag (R296). -/
def bytesWrite (n v o : Nat) : Kind :=
  .write (BitVec.ofNat 128 ((v % 2 ^ (8 * n)) * 2 ^ (8 * o))) (BitVec.ofNat 16 ((2 ^ n - 1) * 2 ^ o)) false

/-- The granules entry `e` requested in PCLK `now`, each with the first element of its request. -/
def Run.askedIn (r : Run) (e : PEntry) (now : Nat) : List (Nat × Nat) :=
  match Tbl.get none e.idx r.asked with
  | some (t, l) => if t = now then l else []
  | none => []

/-- Does an access for `d` wait to be granted? -/
def State.awaits (s : State) (d : Dest) : Bool :=
  s.arb.reqs.any (fun q => decide (q.acc.dest = d)) || s.arb.held.any (fun a => decide (a.dest = d))

/-- Element, or bound, `i` of load streamer `e` at byte `a` is requested; a request the streamer made for the granule in the same PCLK serves
it too (R46). A streamer makes 8 requests in a PCLK (R45). -/
def loadIssue (p : Nat) (r : Run) (e : PEntry) (cap : Cap) (lp i a : Nat) (s : State) : State :=
  let l := r.askedIn e s.clk.pclk
  let q := r.setNext e (i + 1)
  match l.find? (fun x => decide (x.1 = a / 16) && s.awaits (.podLd p e.idx x.2)) with
  | some (_, first) => s.setRun r.pod (some { q with rides := r.rides ++ [(e.idx, first, i)] })
  | none =>
    if 8 ≤ l.length then s
    else present (streamAccess cap e lp a (.podLd p e.idx i) .read)
      (s.setRun r.pod (some { q with asked := Tbl.set none e.idx (some (s.clk.pclk, l ++ [(a / 16, i)])) r.asked }))

/-- Write `i` of ST entry `e`, `n` bytes of `v` at byte `a`, is made: combined with a write the entry made for the granule in the same PCLK
(R54), else behind its earlier writes; the first of them stands in the arbiter (R166). -/
def storeIssue (p : Nat) (r : Run) (e : PEntry) (cap : Cap) (lp i n a v : Nat) (s : State) : State :=
  let q := r.setNext e (i + 1)
  let mine := fun (w : PWrite) => decide (w.ent = e.idx) && decide (w.when = s.clk.pclk)
  if (r.writes.filter mine).any (fun w => decide (w.acc.gran = a / 16)) then
    let ws := r.writes.map (fun w =>
      if mine w && decide (w.acc.gran = a / 16) then w.withEls n (w.els ++ [(i, a % 16, v)]) else w)
    tally 1 lp 1 1 (syncWrites ws (s.setRun r.pod (some { q with writes := ws })))
  else if 8 ≤ r.writes.countP mine then s
  else
    let acc := streamAccess cap e lp a (.podSt p i) (bytesWrite n v (a % 16))
    let s' := s.setRun r.pod (some { q with writes := r.writes ++ [{ ent := e.idx, els := [(i, a % 16, v)], acc := acc, when := s.clk.pclk }] })
    tally 1 lp 1 1 (if r.writesOf e = [] then present acc s' else s')

/-- An element, bound or result `i` of entry `e` through stream `t` is checked under Table 5.3 (R163): its byte address, or the class and
cause of its fault with its offset. -/
def Run.placed (r : Run) (e : PEntry) (t : PStream) (o : Int) (s : State) : Except (Nat × Nat) Nat :=
  let cap := Tbl.get Cap.null t.creg r.chain.caps
  let n := if t.kind = 3 then 1 else if t.kind = 2 then 4 else t.size
  match s.elemCheck cap e.isSt o n with
  | some x => .error x
  | none => .ok (2 * (cap.base : Int) + o).toNat

/-- STREAM_ELEMENT_ISSUE: entry `k` of the run on Pod `p` takes element, bound or result `i`, the next of its stream (R160 to R167). -/
def elementIssue (p k i : Nat) (s : State) : State :=
  match s.runOn p, s.lpOfPod p with
  | some r, some lp =>
    match r.chain.entry k with
    | none => s
    | some e =>
      match r.chain.stream e with
      | none => s
      | some t =>
        let cap := Tbl.get Cap.null t.creg r.chain.caps
        let mine := if k < 10 then decide (p = r.pod) else decide (r.pod2 = some p)
        let faults := fun (felem cls cause : Nat) (o : Int) =>
          drain r.pod { e := felem, entry := e.idx, stream := e.imm % 4, cls := cls, cause := cause, foff := BitVec.ofInt 48 o } s
        if !mine ∨ !e.streams ∨ r.cut ∨ i ≠ r.nextOf e ∨ bitsOf (s.fld ⟨DBG_FREEZE, 0, 16⟩) lp 1 = 1 ∨ r.n ≤ r.req.index then s
        else if e.isLd ∧ e.op = 3 then
          if i ≤ t.param.toNat ∧ Tbl.get none (elemKey k i) r.bad = none then
            match r.elemAddr t i with
            | none => s
            | some o => match r.placed e t o s with
              | .error (cls, cause) => boundFails r k i cls cause s
              | .ok a => loadIssue p r e cap lp i a s
          else s
        else if e.isLd then
          if r.mayLoad i then
            match r.active e i with
            | none => s
            | some false => s.setRun r.pod (some { r.setNext e (i + 1) with vals := Tbl.set none (elemKey k i) (some 0) r.vals })
            | some true => match r.elemAddr t i with
              | none => s
              | some o => match r.placed e t o s with
                | .error (cls, cause) => faults i cls cause o
                | .ok a => loadIssue p r e cap lp i a s
          else s
        else if r.mayStore e i then
          match r.active e i with
          | none => s
          | some false => s.setRun r.pod (some (r.setNext e (i + 1)))
          | some true =>
            match r.source e i, r.elemAddr t i with
            | some v, some o => match r.placed e t o s with
              | .error (cls, cause) => faults (match r.reduceOf e with
                  | some d => r.resultElem d i
                  | none => i) cls cause o
              | .ok a => storeIssue p r e cap lp i t.size a v s
            | _, _ => s
        else s
  | _, _ => s

/-! ### Data and writes of a run -/

/-- Data of element or bound `i` of entry `k` arrive, or its read is uncorrectable (R56). In a drain, data of elements at or above its
element are discarded (R170). -/
def elementArrives (p k i : Nat) (res : MemRes) (s : State) : State :=
  match s.runOn p with
  | none => s
  | some r =>
    match r.chain.entry k with
    | none => s
    | some e =>
      match r.chain.stream e with
      | none => s
      | some t =>
        match r.elemAddr t i with
        | none => s
        | some o =>
          let cap := Tbl.get Cap.null t.creg r.chain.caps
          let b := (2 * (cap.base : Int) + o).toNat % 16
          let late := match r.fault with
            | some f => !decide (e.op = 3) && decide (f.e ≤ i)
            | none => false
          if late then s
          else match res with
          | .ok d _ =>
            if e.op = 3 then
              let v := (d.extractLsb' (8 * b) 32).toNat
              checkBounds r.pod k (i + 2) (s.setRun r.pod (some { r with bounds := Tbl.set none (elemKey k i) (some v) r.bounds }))
            else
              let v := if e.op = 2 then bitsOf (d.extractLsb' (8 * b) 8).toNat (i % 8) 1 else bitsOf d.toNat (8 * b) (8 * t.size)
              s.setRun r.pod (some { r with vals := Tbl.set none (elemKey k i) (some v) r.vals })
          | _ =>
            if e.op = 3 then boundFails r k i 2 1 s
            else drain r.pod { e := i, entry := k, stream := e.imm % 4, cls := 2, cause := 1, foff := BitVec.ofInt 48 o } s

/-- A load streamer's read returns (R48): it serves its first element `i` and those merged into it (R46). -/
def elementData (p k i : Nat) (res : MemRes) (s : State) : State :=
  match s.runOn p with
  | none => s
  | some r =>
    let rider := fun (x : Nat × Nat × Nat) => decide (x.1 = k) && decide (x.2.1 = i)
    let els := i :: (r.rides.filter rider).map (fun x => x.2.2)
    els.foldl (fun s j => elementArrives p k j res s) (s.setRun r.pod (some { r with rides := r.rides.filter (fun x => !rider x) }))

/-- The write of Pod `p`'s store streamer whose lowest element or result is `i` is granted: it lands and the entry's next write becomes
eligible, or it faults at `i` and the entry makes no further write (R166, R167, Table 3.7). -/
def elementStored (p i : Nat) (res : MemRes) (s : State) : State :=
  match s.runOn p with
  | none => s
  | some r =>
    match r.writes.find? (fun w => decide (w.acc.dest = .podSt p i)) with
    | none => s
    | some w =>
    match r.chain.entry w.ent with
    | none => s
    | some e =>
      let rest := r.writes.filter (fun x => !decide (x.acc.dest = .podSt p i))
      let bad := fun (cls cause : Nat) =>
        let o := match (r.chain.stream e).bind (fun t => r.elemAddr t i) with
          | some o => o
          | none => 0
        let felem := match r.reduceOf e with
          | some d => r.resultElem d i
          | none => i
        drain r.pod { e := felem, entry := e.idx, stream := e.imm % 4, cls := cls, cause := cause, foff := BitVec.ofInt 48 o }
          (s.setRun r.pod (some { r.setNext e i with writes := rest.filter (fun x => !decide (x.ent = e.idx)),
                                                     stops := Tbl.set none e.idx (some i) r.stops }))
      match res with
      | .ok _ _ =>
        let q := { r with writes := rest }
        match q.writesOf e with
        | next :: _ => present next.acc (s.setRun r.pod (some q))
        | [] => s.setRun r.pod (some q)
      | .ue => bad 2 1
      | .capacity x => bad 4 x
      | .conflict x => bad 5 x
      | .frozen => bad 2 4

/-! ### The end of a run -/

/-- A cut (R172): every request not granted is withdrawn, and nothing further is issued. -/
def cutRun (p : Nat) (s : State) : State :=
  match s.run p with
  | none => s
  | some r =>
    let s := s.setRun p (some r.cutOff)
    withdraw (fun d => match d with
      | .podLd q _ _ | .podSt q _ => decide (q = r.pod) || decide (r.pod2 = some q)
      | _ => false) s

/-- Every running chain is cut (R35). -/
def cutAll (s : State) : State := (Tbl.keys s.alloc.runs).foldl (fun s p => cutRun p s) s

/-- The index after `i` that the entry's next write has, past inactive elements, as far as the masks are known. -/
def Run.skipIdle (r : Run) (e : PEntry) : Nat → Nat → Nat
  | 0, i => i
  | f + 1, i => if i < r.count e ∧ r.active e i = some false then r.skipIdle e f (i + 1) else i

/-- The lowest write of an ST entry that has not landed. -/
def Run.pendingWrite (r : Run) (e : PEntry) : Nat := r.skipIdle e (r.count e - r.landedOf e) (r.landedOf e)

/-- Has every write of the chain landed; without ST, has every element passed every entry? -/
def Run.complete (r : Run) : Bool :=
  decide (r.n ≤ r.req.index) ||
  (r.chain.entries.all (fun e => !e.isSt || decide (r.count e ≤ r.pendingWrite e)) &&
   (r.chain.entries.any PEntry.isSt ||
     r.chain.entries.all (fun e => !e.isLd || decide (e.op = 3) || (decide (r.nextOf e = r.n) &&
       (List.range (r.n - r.first)).all (fun d => (Tbl.get none (elemKey e.idx (r.first + d)) r.vals).isSome)))))

/-- Have the bounds and elements that the run was to read all been read and checked? -/
def Run.allRead (r : Run) : Bool :=
  decide (r.n ≤ r.req.index) ||
  r.chain.entries.all (fun e => !(e.isLd && decide (e.op = 3)) || (match r.chain.stream e with
    | some t => decide (t.param.toNat < Tbl.get r.req.seg e.idx r.nb)
    | none => true))

/-- Has load streamer `e` nothing more to do in a drain at element `x`: its elements below `x` have arrived, and the next is not below `x` or waits
for a mask or an index that does not come? -/
def Run.settled (r : Run) (x : Nat) (e : PEntry) : Bool :=
  let i := r.nextOf e
  (List.range (min i x - r.first)).all (fun d => (Tbl.get none (elemKey e.idx (r.first + d)) r.vals).isSome) &&
    (decide (x ≤ i) || (r.active e i).isNone || (match r.chain.stream e with
      | some t => (r.elemAddr t i).isNone
      | none => true))

/-- Can write `i` of ST entry `e` never be made in a drain at element `x`: every load has settled, and a value it needs is one of an element
at or above `x` (a PERM operand)? -/
def Run.starved (r : Run) (x : Nat) (e : PEntry) (i : Nat) : Bool :=
  ((r.source e i).isNone || (r.active e i).isNone) &&
    r.chain.entries.all (fun l => !l.isLd || decide (l.op = 3) || r.settled x l)

/-- Has a drain at element `x` ended: every write below it that can be made landed, and no write waits? -/
def Run.drained (r : Run) (x : Nat) : Bool :=
  r.chain.entries.all (fun e => !e.isSt ||
    (let i := r.pendingWrite e
     (r.writesOf e).isEmpty && (decide (r.count e ≤ i) || r.starved x e i || !r.lands e x i)))

/-- How the run ends now, if it does: the status bit of Table 4.15. -/
def Run.outcome (r : Run) : Option Nat :=
  if r.complete ∧ (r.cut ∨ (r.allRead ∧ r.fault.isNone)) then some 6
  else if r.cut then some 7
  else match r.fault with
    | some f => if r.drained f.e then some 8 else none
    | none => none

/-- The progress values of R174: INDEX, LIMIT, FELEM and SEG. In a resumed run the bounds below SEG count as read and their segments as
landed, unless the stop lies below INDEX, where no bound was read. -/
def Run.progress (r : Run) (faulted : Bool) : Nat × Nat × Nat × Nat :=
  let elemSts := r.chain.entries.filter (fun e => e.isSt && (r.reduceOf e).isNone)
  let limit := (elemSts.map r.pendingWrite).foldl min r.n
  let fe := match r.fault with
    | some f => if faulted then f.e else 0
    | none => 0
  let u := if faulted then min limit fe else limit
  match r.chain.stopRd with
  | none => (u, limit, fe, 0)
  | some d => match segSource d with
    | none => if d.isReduce then (0, limit, fe, 0) else (u, limit, fe, 0)
    | some k => if u < r.req.index then (0, limit, fe, 0) else
      let landed := fun (j : Nat) => r.chain.entries.all (fun e => !e.isSt || (match r.reduceOf e with
        | some x => !decide (x.idx = d.idx) || decide (j < r.pendingWrite e)
        | none => true))
      let nb := Tbl.get r.req.seg k r.nb
      let stop := fun (j : Nat) => (match r.rp k (j + 1) with
        | none => true
        | some b => decide (u < b)) || (d.isReduce && !landed j)
      let seg := match firstBelow (fun x => stop (r.req.seg + x)) (nb + 1 - r.req.seg) with
        | some x => r.req.seg + x
        | none => r.req.seg
      ((match r.rp k seg with
        | some a => a
        | none => r.req.index), limit, fe, seg)

/-- The sticky flags of R125: of the active elements below the stop index, and of the results of segments wholly below it. -/
def Run.flags (r : Run) (stop : Nat) : FFlags :=
  r.chain.entries.foldl (fun fl e =>
    if e.streams then fl
    else if e.isReduce then
      let m := match segSource e with
        | some k => Tbl.get r.req.seg k r.nb - r.req.seg
        | none => 1
      (List.range m).foldl (fun fl d => match r.segment e (r.req.seg + d), r.value e.idx (r.req.seg + d) with
        | some (_, b), some v => if b ≤ stop then fl.or v.2 else fl
        | _, _ => fl) fl
    else (List.range (stop - r.req.index)).foldl (fun fl d => match r.value e.idx (r.req.index + d) with
      | some v => fl.or v.2
      | none => fl) fl) FFlags.none

/-- The progress record of Table 5.6. -/
def Run.record (r : Run) (faulted : Bool) : BitVec 256 :=
  let (index, limit, felem, seg) := r.progress faulted
  let f : PFault := match r.fault with
    | some f => if faulted then f else ⟨0, 0, 0, 0, 0, 0⟩
    | none => ⟨0, 0, 0, 0, 0, 0⟩
  BitVec.ofNat 256 (1 + (if faulted then 2 else 0) + f.cls * 2 ^ 4 + f.cause * 2 ^ 8 + f.entry * 2 ^ 12 + f.stream * 2 ^ 17
    + r.chain.dcreg.toNat * 2 ^ 20 + r.req.ticket * 2 ^ 24 + index * 2 ^ 32 + limit * 2 ^ 64 + felem * 2 ^ 96 + seg * 2 ^ 128
    + r.chain.addr.toNat * 2 ^ 160 + f.foff.toNat * 2 ^ 208)

/-- How an ended ticket reaches a context that waits on it (R335): status over T, VPR loaded under R176, PC past the VWAIT, and the
state READY, PARKED for an epoch-capacity fault, or READY with PFLT for another. -/
def wakeVwait (t : Ticket) (x : Ctx) : Ctx :=
  let cut := t.status.getLsbD 7
  let flt := t.status.getLsbD 8
  let x := { x with bank := { x.bank with cells := Tbl.set 0 (x.bank.opd - 1) t.status x.bank.cells },
                    vpr := if cut ∨ flt then t.prog ||| 1#256 else x.vpr, r := x.r.complete none }
  let capacity := decide (vprField t.prog 4 4 = 4)
  if x.state = .parked then { x with pflt := flt && !capacity }
  else if flt ∧ capacity then
    { x with state := .parked, pcause := if vprField t.prog 8 4 = 0 then 2 else 3 }
  else { x with state := .ready, age := 0, urgent := none, pflt := flt }

/-- Does context `k` wait on ticket `t` of LSn? A context parked by command while in VWAIT still does. -/
def waitsOn (ls t k : Nat) (x : Ctx) : Bool :=
  decide (ls * 512 ≤ k) && decide (k < (ls + 1) * 512) && decide (k < 0x4000) &&
  x.vpend && (decide (x.state = .vwait) || decide (x.state = .parked)) && decide (x.ticket.toNat = t)

/-- The epoch-capacity park of R337 is reported: SEQ_SCHED_STAT.PARK and E(64 + 2n). -/
def parkEvent (ls : Nat) (s : State) : State :=
  raise (64 + 2 * ls) (s.raiseBit (SEQ_SCHED_STAT_PARK (corePage (.seq (s.seqOfLs ls)))))

/-- A VWAIT that stopped core `c` in place at a handler level returns the status of ticket `t` (R143, R176, R177, R562). -/
def endVwait (c : CoreId) (t : Ticket) (s : State) : State :=
  let flt := t.status.getLsbD 8
  let s := s.setCore c { s.core c with vwait := none }
  let s := match s.liveKey c with
    | some i => if t.status.getLsbD 7 ∨ flt then s.setCtxAt i { s.ctxAt i with vpr := t.prog ||| 1#256 } else s
    | none => s
  let s := match s.view c with
    | some v => retire c (v.eff 1 [t.status]) none s
    | none => s
  if flt then markFault c (mkFault (vprField t.prog 4 4) (vprField t.prog 8 4) 0) s else s

/-- A ticket ends with a status and a record: every context that waits on it receives them, also the core that a VWAIT stopped in place, and the
ticket is then freed once (R143, R335); the park of each context parked for capacity is reported (R337). -/
def endTicket (ls t : Nat) (status : Word) (prog : BitVec 256) (s : State) : State :=
  match s.ticket ls t with
  | none => s
  | some _ =>
    let tk : Ticket := { st := .ended, status := status, prog := prog }
    let waiting := s.ctxsWith (waitsOn ls t)
    let c : CoreId := .seq (s.seqOfLs ls)
    let inPlace := decide ((s.core c).vwait = some t)
    if waiting = [] ∧ !inPlace then s.setTicket ls t (some tk)
    else
      let s := if inPlace then endVwait c tk s else s
      let parks := waiting.countP (fun k => decide ((s.ctxAt k).state = .vwait) && decide ((wakeVwait tk (s.ctxAt k)).state = .parked))
      let s := waiting.foldl (fun s k => s.setCtxAt k { wakeVwait tk (s.ctxAt k) with vpend := false }) s
      let s := (List.range parks).foldl (fun s _ => parkEvent ls s) s
      s.setTicket ls t none

/-- A Pod's registers and events at the end of a run (R150); the fields of a Pod that was reset during the run hold their Reset values
(R155). -/
def podEnd (p bit stop : Nat) (fl : FFlags) (wasReset : Bool) (s : State) : State :=
  let s := if wasReset then s else ((s.clearFld (POD_STAT_BUSY p)).clearFld (POD_STAT_PAIRED p)).clearFld (POD_STAT_PAIR_HI p)
  let s := if wasReset then s else (s.setFld (POD_INDEX_NEXT p) stop).setReg (POD_FLAGS p) (BitVec.ofNat 32 fl.bits)
  let s := match s.lpOfPod p with
    | some k => if bit = 7 then tally 1 k 4 1 s else if bit = 8 then tally 1 k 5 1 s else s
    | none => s
  let s := raise (128 + 4 * p) s
  if bit = 8 then raise (128 + 4 * p + 1) s else if bit = 7 then raise (128 + 4 * p + 2) s else s

/-- RUN_END of the run on Pod `p`: it ends when its outcome is reached (R172 to R174, R150, R143). -/
def runEnd (p : Nat) (s : State) : State :=
  match s.runOn p with
  | none => s
  | some r =>
    match r.outcome with
    | none => s
    | some bit =>
      let (index, _, _, _) := r.progress (decide (bit = 8))
      let stop := if bit = 6 then r.n else index
      let fl := r.flags stop
      let s := withdraw (fun d => match d with
        | .podLd q _ _ | .podSt q _ => decide (q = r.pod) || decide (r.pod2 = some q)
        | _ => false) s
      let s := s.setRun r.pod none
      let s := if r.orphan then s
        else endTicket r.req.ls r.req.ticket (statusWord fl bit) (if bit = 6 then 0 else r.record (decide (bit = 8))) s
      let s := podEnd r.pod bit stop fl (r.reset.contains r.pod) s
      match r.pod2 with
      | some p2 => podEnd p2 bit stop fl (r.reset.contains p2) s
      | none => s

/-- POD_INDEX.NEXT of Pod `p` (its register's meaning while a run is in progress). In a chain without ST, or whose STs store only the results
of reductions, which are writes of no element, it is the lowest element that has not passed every entry: that some load streamer has not
delivered (the second case is a DESIGN CHOICE: assumption 82). -/
def State.podIndex (s : State) (p : Nat) : Nat :=
  match s.runOn p with
  | none => s.fld (POD_INDEX_NEXT p)
  | some r =>
    let sts := r.chain.entries.filter (fun e => e.isSt && (r.reduceOf e).isNone)
    if sts = [] then
      (match firstBelow (fun d => r.chain.entries.any (fun e => e.isLd && !decide (e.op = 3) &&
          (Tbl.get none (elemKey e.idx (r.first + d)) r.vals).isNone)) (r.n - r.first) with
       | some d => r.first + d
       | none => r.n)
    else (sts.map r.nextOf).foldl min r.n

end Sys2Proof.Machine
end

