-- ==== Sys2Proof/Machine/Sched.lean ====
section
/-! DEFINITION. Contexts on their cores (chapter 10): departures, dispatch, the context mover, the commands of Table 10.5, the record
window, and the resets of a core's contexts. -/

namespace Sys2Proof.Machine

/-! ### Keys and banks -/

/-- Is it a sequencer core? -/
def isSeq : CoreId → Bool
  | .seq _ => true
  | _ => false

/-- The key of the context of LSn in slot `x` (R326). -/
def ctxKey (n x : Nat) : Nat := n * 512 + x

/-- The core that serves LSn. -/
def State.lsCore (s : State) (n : Nat) : CoreId := .seq (s.seqOfLs n)

/-- The live bank of a bank table that holds slot `x`. -/
def Core.bankOf (k : Core) (x : Nat) : Option Nat :=
  match firstBelow (fun b => decide (Tbl.get none (b + 1) k.resident = some x)) 4 with
  | some b => some (b + 1)
  | none => none

/-- The READY contexts of LSn by slot. -/
def State.readySlots (s : State) (n : Nat) : List Nat :=
  (s.ctxsWith (fun k x => decide (n * 512 ≤ k) && decide (k < (n + 1) * 512) && decide (x.state = .ready))).map (fun k => k - n * 512)

/-- The effective priority of a READY context (R330). -/
def State.ctxPrio (s : State) (n x : Nat) : Nat :=
  let c := s.ctxAt (ctxKey n x)
  c.prio.toNat + c.age.toNat / s.fld (SEQ_SCHED_CFG_AGE_STEP (corePage (s.lsCore n)))

/-- Is the READY context in slot `x` dispatched before the one in slot `y` (R330)? -/
def State.ctxBefore (s : State) (n x y : Nat) : Bool :=
  let a := s.ctxAt (ctxKey n x)
  let b := s.ctxAt (ctxKey n y)
  match a.urgent, b.urgent with
  | some i, some j => if i = j then decide (x < y) else decide (i < j)
  | some _, none => true
  | none, some _ => false
  | none, none =>
    if s.ctxPrio n x ≠ s.ctxPrio n y then decide (s.ctxPrio n y < s.ctxPrio n x)
    else if a.age ≠ b.age then decide (b.age.toNat < a.age.toNat) else decide (x < y)

/-- The first of the slots `l` in dispatch order. -/
def State.ctxFirst (s : State) (n : Nat) (l : List Nat) : Option Nat :=
  l.foldl (fun w x => match w with
    | none => some x
    | some y => if s.ctxBefore n x y then some x else some y) none

/-! ### Boundaries and departures -/

/-- Can core `c` come to an instruction boundary now (R285, R329): released and running, outside a hold, an open window, a REP pair and
a debug step, with no older fault to take and no halt pending? -/
def State.atRest (s : State) (c : CoreId) : Bool :=
  let k := s.core c
  k.released && (decide (k.dstate = 0) || decide (k.dstate = 3)) && k.haltReq.isNone && k.rep.isNone && !s.held c &&
    (k.fault.isNone || !k.flight.isEmpty) && !k.stepping && !decide (k.after = some (4, 0))

/-- The live context of sequencer core `c` leaves it with state `st` (Table 10.3); a PARK command that waited then acts on it. -/
def depart (c : CoreId) (f : Ctx → Ctx) (s : State) : State :=
  match s.liveKey c with
  | none => s
  | some i =>
    let k := s.core c
    let x := f (s.ctxAt i)
    let x := if x.parkRq ∧ x.state ≠ .parked then { x with state := .parked, pcause := 1, warm := false } else x
    let s := s.setCtxAt i { x with parkRq := false }
    let bank := match k.live with
      | some y => (k.bankOf y).getD 0
      | none => 0
    s.setCore c { k with live := none, rsv := none, vreq := none, need := none, fresh := false, quantum := 0, budSub := 0,
                         lastLive := Tbl.set 0 bank (k.disp + 1) k.lastLive }

/-- The park of the live context of core `c` for a cause other than SUP (R337). -/
def parkLive (c : CoreId) (cause : Nat) (s : State) : State :=
  match c with
  | .seq n => match s.lsOfSeq n with
    | some l => parkEvent l (depart c (fun x => { x with state := .parked, pcause := BitVec.ofNat 4 cause }) s)
    | none => s
  | _ => s

/-- A PARK command that waits on the live context takes effect at the first boundary at context level (R329, Table 10.5). -/
def settlePark (c : CoreId) (s : State) : State :=
  match s.liveKey c with
  | none => s
  | some i =>
    if (s.ctxAt i).parkRq ∧ (s.core c).level = 0 ∧ s.atRest c ∧ (s.core c).need.isNone then
      depart c (fun x => { x with state := .parked, pcause := 1 }) (abandon c s)
    else s

/-- BUDGET_EXHAUSTED (R338, Table 10.3). -/
def budgetExhausted (c : CoreId) (s : State) : State :=
  match c, s.liveKey c with
  | .seq _, some i =>
    if (s.core c).level = 0 ∧ s.atRest c ∧ (s.core c).need.isNone ∧ (s.ctxAt i).budEn ∧ (s.ctxAt i).budget = 0 then
      parkLive c 4 (abandon c s)
    else s
  | _, _ => s

/-- QUANTUM_EXPIRY (R331, Table 10.3). -/
def quantumExpiry (c : CoreId) (s : State) : State :=
  match c with
  | .seq n => match s.lsOfSeq n with
    | some l =>
      let q := s.fld (SEQ_SCHED_CFG_QUANTUM (corePage c))
      if (s.core c).level = 0 ∧ s.atRest c ∧ (s.core c).need.isNone ∧ q ≠ 0 ∧ q * 64 ≤ (s.core c).quantum ∧
          (s.core c).live.isSome ∧ s.readySlots l ≠ [] then
        depart c (fun x => { x with state := .ready, age := 0, urgent := none }) (abandon c s)
      else s
    | none => s
  | _ => s

/-! ### The context mover and dispatch -/

/-- Is a resident context with state `st` one the mover may evict ahead of a READY one (R333)? -/
def idleState : CtxState → Bool
  | .ready | .running => false
  | _ => true

/-- The banks of core `c` that hold a context satisfying `p`, or none for an empty bank, in order. -/
def State.banksWith (s : State) (c : CoreId) (n : Nat) (p : Ctx → Bool) : List Nat :=
  ([1, 2, 3, 4] : List Nat).filter (fun b => match Tbl.get none b (s.core c).resident with
    | some x => p (s.ctxAt (ctxKey n x))
    | none => false)

/-- An empty bank of core `c`. -/
def State.emptyBank (s : State) (c : CoreId) : Option Nat :=
  match firstBelow (fun b => (Tbl.get none (b + 1) (s.core c).resident).isNone) 4 with
  | some b => some (b + 1)
  | none => none

/-- The bank the mover frees next (R333): the one out of the live bank longest among those not READY; when every resident context is
READY, the one with the lowest effective priority. -/
def State.victim (s : State) (c : CoreId) (n : Nat) : Option Nat :=
  let k := s.core c
  let out := s.banksWith c n (fun x => idleState x.state)
  match out with
  | b :: bs => some (bs.foldl (fun w b => if Tbl.get 0 b k.lastLive < Tbl.get 0 w k.lastLive then b else w) b)
  | [] => match s.banksWith c n (fun x => decide (x.state = .ready)) with
    | [] => none
    | b :: bs =>
      let prio : Nat → Nat := fun b => match Tbl.get none b k.resident with
        | some x => s.ctxPrio n x
        | none => 0
      some (bs.foldl (fun w b => if prio b < prio w then b else w) b)

/-- Bank `b` of core `c` is emptied: its context's record is in the context store. -/
def evictBank (c : CoreId) (b : Nat) (s : State) : State :=
  let k := s.core c
  s.setCore c { k with resident := Tbl.set none b none k.resident }

/-- CONTEXT_EVICT of slot `x` (R333, R334): a resident PARKED or FREE context, or the bank to be freed for a READY context that is not
resident. -/
def contextEvict (c : CoreId) (x : Nat) (s : State) : State :=
  match c with
  | .seq n => match s.lsOfSeq n, (s.core c).bankOf x with
    | some l, some b =>
      if (s.core c).live = some x then s
      else
        let st := (s.ctxAt (ctxKey l x)).state
        let wanted := (s.readySlots l).any (fun y => ((s.core c).bankOf y).isNone)
        if st = .parked ∨ st = .free ∨ (wanted ∧ (s.emptyBank c).isNone ∧ s.victim c l = some b) then evictBank c b s else s
    | _, _ => s
  | _ => s

/-- Slot `x` moves into bank `b` of core `c`; it is out of the live bank from then on (R333). -/
def loadBank (c : CoreId) (b x : Nat) (s : State) : State :=
  let k := s.core c
  s.setCore c { k with resident := Tbl.set none b (some x) k.resident, lastLive := Tbl.set 0 b (k.disp + 1) k.lastLive }

/-- A bank for slot `x`: the one it is in, an empty one, or one freed for it. -/
def makeResident (c : CoreId) (n x : Nat) (s : State) : State :=
  match (s.core c).bankOf x with
  | some _ => s
  | none => match s.emptyBank c with
    | some b => loadBank c b x s
    | none => match s.victim c n with
      | some b => loadBank c b x s
      | none => s

/-- CONTEXT_LOAD of slot `x` (R333): outside DET, the non-resident READY context that R330 would choose next, into an empty bank or one
whose context is not READY. -/
def contextLoad (c : CoreId) (x : Nat) (s : State) : State :=
  match c with
  | .seq n => match s.lsOfSeq n with
    | some l =>
      let waiting := (s.readySlots l).filter (fun y => ((s.core c).bankOf y).isNone)
      if (s.core c).det ∨ s.ctxFirst l waiting ≠ some x then s
      else match s.emptyBank c with
        | some b => loadBank c b x s
        | none => match s.banksWith c l (fun y => idleState y.state), s.victim c l with
          | _ :: _, some b => loadBank c b x s
          | _, _ => s
    | none => s
  | _ => s

/-- AGE of a READY context that another was dispatched before (R330), at dispatch `d`. -/
def Ctx.aged (x : Ctx) (d : Nat) : Ctx :=
  if x.state = .ready ∧ x.age.toNat < 15 then
    { x with age := x.age + 1, urgent := if x.age.toNat = 14 then some d else x.urgent }
  else x

/-- CONTEXT_DISPATCH (R330, R332, R335; R346 for the supervisor): the core has no live context at context level; the context chosen
becomes live, the others age, and a fault reported by VWAIT is taken before its next instruction. The supervisor changes its bank once the loads
in flight have completed into the bank it leaves (R267). -/
def contextDispatch (c : CoreId) (s : State) : State :=
  let k := s.core c
  if k.level ≠ 0 ∨ !s.atRest c then s
  else match c with
  | .seq p => match s.lsOfSeq p, k.live with
    | some n, none => match s.ctxFirst n (s.readySlots n) with
      | none => s
      | some x =>
        let s := tallyCore c 10 (makeResident c n x s)
        let d := k.disp + 1
        let s := { s with ctxs := Tbl.mapVal Ctx.init (fun i y =>
            if n * 512 ≤ i ∧ i < (n + 1) * 512 ∧ i ≠ ctxKey n x then y.aged d else y) s.ctxs }
        let y := s.ctxAt (ctxKey n x)
        let s := s.setCtxAt (ctxKey n x) { y with state := .running, age := 0, urgent := none, pflt := false }
        let s := s.setCore c { s.core c with live := some x, disp := d, quantum := 0, budSub := 0, rsv := none, fresh := true }
        if y.pflt then markFault c (mkFault (vprField y.vpr 4 4) (vprField y.vpr 8 4) 0) s else s
    | _, _ => s
  | .sup =>
    if k.live = s.supBank ∨ !k.need.isNone ∨ k.flight ≠ [] then s
    else
      let s := tallyCore c 10 (abandon c s)
      s.setCore c { s.core c with live := s.supBank, rsv := none, fresh := s.supBank.isSome }
  | .moth => s

/-! ### WAIT (R238, R336, R346, R424) -/

/-- The granule of the core's own local scratch that its reservation names, as word offset div 8. -/
def State.ownWatch (s : State) (c : CoreId) : Option Nat :=
  match c, (s.core c).rsv with
  | .seq p, some g => match s.lsOfSeq p with
    | some n => if 0x2000000 + n * 8192 ≤ g ∧ g < 0x2000000 + (n + 1) * 8192 then some (g - (0x2000000 + n * 8192)) else none
    | none => none
  | _, _ => none

/-- The Moth core's WAIT ends: it retires (R424). -/
def endMothWait (s : State) : State :=
  let k := s.core .moth
  if k.waiting then
    let s := s.setCore .moth { k with waiting := false }
    match s.view .moth with
    | some v => retire .moth v none s
    | none => s
  else s

/-- WAIT: it stops a context only at context level, and there only while its wake condition is to come; the saved PC of a context that leaves its
core is the instruction after it. The Moth core stays at its WAIT until it is woken, and starts it again after an interrupt (Table 7.23). -/
def execWait (c : CoreId) (s : State) : Out :=
  issue c { plain := false } (fun v s =>
    let k := s.core c
    if c = .moth ∧ k.level = 0 then s.setCore c { k with waiting := true, skipBp := true }
    else
    let s := retire c v none s
    if k.level ≠ 0 then s
    else match c with
      | .moth => s
      | .sup => match k.rsv with
        | some g => match s.liveKey c with
          | some i =>
            let s := s.setCtxAt i { s.ctxAt i with state := .wait, warm := true, watch := g }
            s.setCore c { s.core c with live := none, rsv := none }
          | none => s
        | none => s
      | .seq _ => match s.ownWatch c with
        | some w => depart c (fun x => { x with state := .wait, warm := true, wgran := BitVec.ofNat 13 w }) s
        | none => s) s

/-- A write has landed on word-granule `g` of local scratch: the contexts that watch it become READY (R336). -/
def wakeWatch (g : Nat) (s : State) : State :=
  if 0x2000000 ≤ g ∧ g < 0x2000000 + s.build.lss * 8192 then
    let n := (g - 0x2000000) / 8192
    let w := (g - 0x2000000) % 8192
    { s with ctxs := Tbl.mapVal Ctx.init (fun i x =>
        if n * 512 ≤ i ∧ i < (n + 1) * 512 ∧ x.state = .wait ∧ x.warm ∧ x.wgran.toNat = w then
          { x with state := .ready, age := 0, urgent := none, warm := false }
        else x) s.ctxs }
  else s

/-- A write has landed on scratch granule `8192 n + w` of LSn: reservations on it clear, and waiting contexts wake. -/
def scrLanded (sg : Nat) (s : State) : State := wakeWatch (0x2000000 + sg) (landed (0x2000000 + sg) s)

/-! ### Commands (Table 10.5) -/

/-- CMDERR of the core that serves LSn. -/
def cmdErr (n : Nat) (s : State) : State := s.raiseBit (SEQ_SCHED_STAT_CMDERR (corePage (s.lsCore n)))

/-- A context command on slot `x` of LSn: `f` answers the new record, or none where Table 10.5 refuses it. -/
def ctxCommand (n x : Nat) (f : Ctx → Option Ctx) (s : State) : State :=
  match f (s.ctxAt (ctxKey n x)) with
  | some y => s.setCtxAt (ctxKey n x) y
  | none => cmdErr n s

def ctxLoadCmd (y : Ctx) : Option Ctx :=
  if y.state = .free then some { y with state := .ready, age := 0, urgent := none } else none

def ctxWakeCmd (y : Ctx) : Option Ctx :=
  match y.state with
  | .ready | .running => some y
  | .wait => some { y with state := .ready, age := 0, urgent := none, warm := false }
  | .parked => some { y with state := .ready, age := 0, urgent := none, pcause := 0, vpend := false }
  | .free | .vwait => none

def ctxParkCmd (y : Ctx) : Option Ctx :=
  match y.state with
  | .free => none
  | .ready | .vwait => some { y with state := .parked, pcause := 1 }
  | .wait => some { y with state := .parked, pcause := 1, warm := false }
  | .running => some { y with parkRq := true }
  | .parked => some y

/-- FREE: every TAG bit and VPR.VALID are cleared, the other words stay. -/
def ctxFreeCmd (y : Ctx) : Option Ctx :=
  match y.state with
  | .running | .vwait => none
  | .free => some y
  | .ready | .wait | .parked =>
    some { y with state := .free, caps := Tbl.mapVal Cap.null (fun _ c => { c with tag := false }) y.caps, vpr := y.vpr &&& ~~~1#256,
                  vpend := false }

def ctxSetbudCmd (v : Reg) (y : Ctx) : Option Ctx :=
  if y.state = .free then none else some { y with budget := v.extractLsb' 0 24, budEn := v.getLsbD 31 }

/-- A PARK, and its effect at once where the running context is at a boundary. -/
def ctxPark (n x : Nat) (s : State) : State := settlePark (s.lsCore n) (ctxCommand n x ctxParkCmd s)

/-! ### The record window (Table 10.1, R347) -/

/-- Code of a context state (Table 10.2). -/
def CtxState.code : CtxState → Nat
  | .free => 0 | .ready => 1 | .running => 2 | .wait => 3 | .vwait => 4 | .parked => 5

/-- The TAG bits of capability registers. -/
def tagBits (t : Tbl Cap) : Nat := (List.range 8).foldl (fun a r => if (Tbl.get Cap.null r t).tag then a + 2 ^ r else a) 0

/-- Word `k` of a capability's bits. -/
def Cap.word (c : Cap) (k : Nat) : Reg := c.bits.extractLsb' (32 * k) 32

/-- Word `k` of a capability of a context record written: its tag clears when the word changes (R347). -/
def Cap.setWord (c : Cap) (k : Nat) (v : Reg) : Cap :=
  let b := BitVec.ofNat 128 (setBitsOf c.bits.toNat (32 * k) 32 v.toNat)
  { bits := b, tag := c.tag && decide (b = c.bits) }

/-- Word `k` of a capability written through the save-set window: its tag clears, whatever the value (R317). -/
def Cap.overwriteWord (c : Cap) (k : Nat) (v : Reg) : Cap :=
  { bits := BitVec.ofNat 128 (setBitsOf c.bits.toNat (32 * k) 32 v.toNat), tag := false }

/-- Record word `w` of a context with capability registers `caps` and registers `r` (they may stand in a save set). -/
def Ctx.word (x : Ctx) (w : Nat) : Reg :=
  let cell := fun j => (Tbl.get 0 j x.bank.cells).toNat
  BitVec.ofNat 32 (
    if w < 32 then ((Tbl.get Cap.null (w / 4) x.caps).word (w % 4)).toNat
    else if w < 40 then bitsOf x.vpr.toNat (32 * (w - 32)) 32
    else if w < 48 then cell (2 * (w - 40)) + cell (2 * (w - 40) + 1) * 65536
    else if w < 56 then (Tbl.get 0 (w - 48) x.bank.rets).toNat
    else if w = 56 then x.r.pc.toNat
    else if w = 57 then x.r.rc.toNat + x.r.lc.toNat * 65536
    else if w = 58 then x.r.ls.toNat
    else if w = 59 then x.r.le.toNat
    else if w = 60 then x.bank.opd + x.bank.rtd * 256 + x.r.fl.word.toNat % 16 * 65536 + tagBits x.caps * 2 ^ 24
    else if w = 61 then x.osc.toNat + x.rsc.toNat * 65536
    else if w = 62 then x.budget.toNat + x.ticket.toNat * 2 ^ 24
    else x.state.code + x.prio.toNat * 16 + x.budEn.toNat * 128 + x.pcause.toNat * 256 + x.age.toNat * 2 ^ 12 +
      x.wgran.toNat * 2 ^ 16 + x.warm.toNat * 2 ^ 29 + x.pflt.toNat * 2 ^ 30)

/-- The bits a VPR holds (Table 5.6): reserved bits written as 1 read 0 (R252). -/
def vprMask : BitVec 256 :=
  BitVec.ofNat 256 (3 + 0xFF * 2 ^ 4 + 0x1F * 2 ^ 12 + 3 * 2 ^ 17 + 7 * 2 ^ 20 + 0xFF * 2 ^ 24 + (2 ^ 24 - 1) * 2 ^ 32
    + (2 ^ 25 - 1) * 2 ^ 64 + (2 ^ 24 - 1) * 2 ^ 96 + (2 ^ 24 - 1) * 2 ^ 128 + (2 ^ 40 - 1) * 2 ^ 160 + (2 ^ 48 - 1) * 2 ^ 208)

/-- A VPR with bits `[lo + w - 1 : lo]` written. -/
def vprWrite (vpr : BitVec 256) (lo w v : Nat) : BitVec 256 := BitVec.ofNat 256 (setBitsOf vpr.toNat lo w v) &&& vprMask

/-- A window write of record word `w` (R347). -/
def Ctx.setWord (x : Ctx) (w : Nat) (v : Reg) : Ctx :=
  let n := v.toNat
  let putCell := fun (j : Nat) (y : Word) (b : Bank) => { b with cells := Tbl.set 0 j y b.cells }
  if w < 32 then { x with caps := Tbl.set Cap.null (w / 4) ((Tbl.get Cap.null (w / 4) x.caps).setWord (w % 4) v) x.caps }
  else if w < 40 then { x with vpr := vprWrite x.vpr (32 * (w - 32)) 32 n }
  else if w < 48 then
    { x with bank := putCell (2 * (w - 40) + 1) (v.extractLsb' 16 16) (putCell (2 * (w - 40)) (v.extractLsb' 0 16) x.bank) }
  else if w < 56 then { x with bank := { x.bank with rets := Tbl.set 0 (w - 48) (v.extractLsb' 0 22) x.bank.rets } }
  else if w = 56 then { x with r := { x.r with pc := v.extractLsb' 0 22 } }
  else if w = 57 then { x with r := { x.r with rc := v.extractLsb' 0 16, lc := v.extractLsb' 16 16 } }
  else if w = 58 then { x with r := { x.r with ls := v.extractLsb' 0 22 } }
  else if w = 59 then { x with r := { x.r with le := v.extractLsb' 0 22 } }
  else if w = 60 then
    { x with bank := { x.bank with opd := if bitsOf n 0 5 ≤ 16 then bitsOf n 0 5 else x.bank.opd,
                                   rtd := if bitsOf n 8 4 ≤ 8 then bitsOf n 8 4 else x.bank.rtd },
             r := { x.r with fl := Flags.ofWord (v.extractLsb' 16 16) } }
  else if w = 61 then { x with osc := v.extractLsb' 0 16, rsc := v.extractLsb' 16 16 }
  else if w = 62 then { x with budget := v.extractLsb' 0 24, ticket := v.extractLsb' 24 8 }
  else { x with prio := v.extractLsb' 4 3, budEn := v.getLsbD 7 }

/-- The record of a context as its retired instructions leave it (R264). -/
def State.ctxRetired (s : State) (c : CoreId) (i : Nat) : Ctx :=
  let x := s.ctxAt i
  if s.liveKey c = some i ∧ (s.core c).level = 0 then (match s.retiredView c with
    | some v => { x with r := v.regs, bank := v.bank }
    | none => x) else x

/-- SEQ_CTX_DATA of LSn: the word selected by SEQ_CTX_SEL, as it stands, whether the
context is resident or stored (R347). -/
def State.ctxData (s : State) (n : Nat) : Reg :=
  let c := s.lsCore n
  let pg := corePage c
  (s.ctxRetired c (ctxKey n (s.fld (SEQ_CTX_SEL_SLOT pg)))).word (s.fld (SEQ_CTX_SEL_WORD pg))

/-- A write of SEQ_CTX_DATA of LSn (R347). -/
def ctxDataWrite (n : Nat) (v : Reg) (s : State) : State :=
  let pg := corePage (s.lsCore n)
  ctxCommand n (s.fld (SEQ_CTX_SEL_SLOT pg)) (fun y =>
    if y.state = .free ∨ y.state = .parked then some (y.setWord (s.fld (SEQ_CTX_SEL_WORD pg)) v) else none) s

/-! ### Resets of a core's contexts (R221, R222, R349, R188, R156) -/

/-- A context that a domain reset or core reset found resident (R349, R222): PARKED with PCAUSE RESET and the state of R221. -/
def Ctx.resetResident (x : Ctx) : Ctx :=
  { x with r := Regs.init, bank := Bank.init, osc := 0, rsc := 0, caps := Tbl.mapVal Cap.null (fun _ c => { c with tag := false }) x.caps,
           state := .parked, pcause := 5, warm := false, parkRq := false, pflt := false, vpend := false }

/-- A context of the reset core's logical sequencer (R349, R188); its tickets are freed, so that no status is to come (R156). -/
def Ctx.atReset (x : Ctx) (resident : Bool) : Ctx :=
  let x := { x with vpr := x.vpr &&& ~~~1#256, vpend := false }
  if resident then x.resetResident
  else if x.state = .vwait then { x with state := .parked, pcause := 5, vpend := false }
  else x

/-- The contexts of LSn at a reset of its core `c` (R349, R188); E(64 + 2n) is raised once, by a park or by the core reset `crst` (R306). -/
def resetContexts (c : CoreId) (n : Nat) (crst : Bool) (s : State) : State :=
  let k := s.core c
  let hit := !(s.ctxsWith (fun i x => decide (n * 512 ≤ i) && decide (i < (n + 1) * 512) &&
    ((k.bankOf (i - n * 512)).isSome || decide (x.state = .vwait)))).isEmpty
  let s := { s with ctxs := Tbl.mapVal Ctx.init (fun i x =>
      if n * 512 ≤ i ∧ i < (n + 1) * 512 then x.atReset (k.bankOf (i - n * 512)).isSome else x) s.ctxs }
  let s := (s.setFld (SEQ_SCHED_STAT_PARK (corePage c)) hit.toNat).clearFld (SEQ_SCHED_STAT_CMDERR (corePage c))
  if hit ∨ crst then raise (64 + 2 * n) s else s

/-- The tickets of LSn at a reset of its core (R156): queued requests are withdrawn, tickets freed, running chains orphaned. -/
def resetTickets (n : Nat) (s : State) : State :=
  { s with alloc := { s.alloc with
      queue := s.alloc.queue.filter (fun r => decide (r.ls ≠ n)),
      tickets := Tbl.keep (fun k => !(decide (256 * n ≤ k) && decide (k < 256 * n + 256))) s.alloc.tickets,
      runs := Tbl.mapVal none (fun _ r => r.map (fun r => if r.req.ls = n then { r with orphan := true } else r)) s.alloc.runs } }

/-- The state a core reset or domain reset leaves in the core itself (R222, R292, R324, R498): handler sets, GTC, the vector buffer, the
settings in force, the breakpoints and the watchpoints stay. -/
def Core.afterReset (k : Core) : Core :=
  { Core.init with
                   released := k.released, cs := k.cs, gtc := k.gtc, splitEn := k.splitEn, det := k.det, lcEn := k.lcEn, btbEn := k.btbEn,
                   dualEn := k.dualEn, dbg := Tbl.erase DBG_RUN_CTL k.dbg, vecBuf := k.vecBuf, vecShadow := k.vecShadow, tok := k.tok, disp := k.disp }

/-- A domain reset or core reset of sequencer core `c` (R156, R188, R222, R292, R324, R349, R428). -/
def resetSeq (c : CoreId) (crst : Bool) (s : State) : State :=
  let pg := corePage c
  let s := endPieces c (withdrawCore c (fun _ => true) s)
  let s := match c with
    | .seq p => match s.lsOfSeq p with
      | some n =>
        let s := resetTickets n (resetContexts c n crst s)
        s.setTarget n { s.target n with stack := [] }
      | none => s
    | _ => s
  let s := s.setCore c (s.core c).afterReset
  let s := (s.clearFld (SEQ_EXC_STAT_NIWOVR pg)).setReg (SEQ_EXC_CNT pg) 0
  (((s.setReg (SEQ_SVW_SEL pg) 0).setReg (SEQ_CTX_SEL pg) 0).setReg (SEQ_CTX_BUD pg) 0)

end Sys2Proof.Machine
end

