-- ==== Sys2Proof/Decode.lean ====
section
/-! DEFINITION. Words: the opcode table gives no row any bits, so no word spells a command there; the 14-bit program words of Tables 7.1 to 7.22
spell the instructions of the Sprin cores, decoded and encoded here. -/

namespace Sys2Proof

/-- The command a word of the opcode table's bits spells: no row of the table has bits. -/
def decodeTableWord (_nbits _w : Nat) : Option Instr := none

/-! ### Sprin program words (chapter 07) -/

/-- An operand of `w` bits cut out of word `n` from bit `lo` on. -/
def wordField (w n lo : Nat) : BitVec w := BitVec.ofNat w (n / 2 ^ lo)

/-- Flow class (Table 7.2): operation in bits 11:10, offset in 9:0. -/
def decodeFlow (c : CoreId) (n : Nat) : Option Instr :=
  match n / 0x400 % 4 with
  | 0 => some (.br c (wordField 10 n 0))
  | 1 => some (.bz c (wordField 10 n 0))
  | 2 => some (.bnz c (wordField 10 n 0))
  | _ => some (.call c (wordField 10 n 0))

/-- Memory class (Table 7.3): register in bits 11:9, operation in 8:6, displacement in 5:0. -/
def decodeMem (c : CoreId) (n : Nat) : Option Instr :=
  match n / 0x40 % 8 with
  | 0 => some (.ld c (wordField 3 n 9) (wordField 6 n 0))
  | 1 => some (.st c (wordField 3 n 9) (wordField 6 n 0))
  | 2 => some (.ld2 c (wordField 3 n 9) (wordField 6 n 0))
  | 3 => some (.st2 c (wordField 3 n 9) (wordField 6 n 0))
  | 4 => some (.ldx c (wordField 3 n 9) (wordField 6 n 0))
  | 5 => some (.stx c (wordField 3 n 9) (wordField 6 n 0))
  | 6 => some (.ld2x c (wordField 3 n 9) (wordField 6 n 0))
  | _ => some (.st2x c (wordField 3 n 9) (wordField 6 n 0))

/-- The functions of the operate class that have no field (Tables 7.6 to 7.10, 7.12 and 7.17), by group and function. -/
def decodePlain (c : CoreId) (n : Nat) : Option Instr :=
  match n % 0x1000 with
  | 0x000 => some (.nop c)
  | 0x001 => some (.dup c)
  | 0x002 => some (.drop c)
  | 0x003 => some (.swap c)
  | 0x004 => some (.overOp c)
  | 0x005 => some (.rot c)
  | 0x006 => some (.nip c)
  | 0x007 => some (.tuck c)
  | 0x008 => some (.twoDup c)
  | 0x009 => some (.twoDrop c)
  | 0x00A => some (.twoSwap c)
  | 0x00B => some (.twoOver c)
  | 0x00C => some (.minusRot c)
  | 0x100 => some (.add c)
  | 0x101 => some (.adc c)
  | 0x102 => some (.sub c)
  | 0x103 => some (.sbc c)
  | 0x104 => some (.neg c)
  | 0x105 => some (.inc c)
  | 0x106 => some (.dec c)
  | 0x107 => some (.and c)
  | 0x108 => some (.or c)
  | 0x109 => some (.xor c)
  | 0x10A => some (.not c)
  | 0x10B => some (.shl c)
  | 0x10C => some (.shr c)
  | 0x10D => some (.sra c)
  | 0x10E => some (.rol c)
  | 0x150 => some (.min c)
  | 0x151 => some (.max c)
  | 0x152 => some (.umin c)
  | 0x153 => some (.umax c)
  | 0x154 => some (.abs c)
  | 0x158 => some (.sext8 c)
  | 0x159 => some (.zext8 c)
  | 0x15A => some (.popc c)
  | 0x15B => some (.clz c)
  | 0x200 => some (.mul c)
  | 0x201 => some (.mulu c)
  | 0x202 => some (.mull c)
  | 0x204 => some (.div c)
  | 0x205 => some (.divu c)
  | 0x206 => some (.div2u c)
  | 0x208 => some (.add2 c)
  | 0x209 => some (.sub2 c)
  | 0x20A => some (.neg2 c)
  | 0x300 => some (.eq c)
  | 0x301 => some (.ne c)
  | 0x302 => some (.lt c)
  | 0x303 => some (.le c)
  | 0x304 => some (.gt c)
  | 0x305 => some (.ge c)
  | 0x306 => some (.ult c)
  | 0x307 => some (.ule c)
  | 0x308 => some (.ugt c)
  | 0x309 => some (.uge c)
  | 0x30A => some (.zeroEq c)
  | 0x30B => some (.zeroLt c)
  | 0x30C => some (.sel c)
  | 0x400 => some (.ret c)
  | 0x401 => some (.toR c)
  | 0x402 => some (.rFrom c)
  | 0x403 => some (.rFetch c)
  | 0x404 => some (.jmps c)
  | 0x405 => some (.calls c)
  | 0x406 => some (.reti c)
  | 0x407 => some (.rett c)
  | 0x408 => some (.wait c)
  | 0x409 => some (.synci c)
  | 0x40A => some (.niwo c)
  | 0x40B => some (.niwc c)
  | 0x40C => some (.fence c)
  | 0x600 => some (.rep c)
  | 0x601 => some (.flFetch c)
  | 0x602 => some (.flStore c)
  | 0x603 => some (.lcFetch c)
  | 0x604 => some (.lcStore c)
  | 0x605 => some (.lsFetch c)
  | 0x606 => some (.lsStore c)
  | 0x607 => some (.leFetch c)
  | 0x608 => some (.leStore c)
  | 0x609 => some (.rcFetch c)
  | 0x60A => some (.depth c)
  | 0x60B => some (.rdepth c)
  | 0x60C => some (.lpush c)
  | 0x60D => some (.lpop c)
  | 0x60E => some (.leave c)
  | 0x60F => some (.ctxid c)
  | 0x908 => some (.vwait c)
  | 0x909 => some (.vresume c)
  | 0x90A => some (.vtest c)
  | 0x90B => some (.vprFetch c)
  | 0x90C => some (.vprStore c)
  | _ => none

/-- Group 0x7 (Table 7.13), by bits 7:3 of the function. -/
def decodeExtMem (c : CoreId) (n : Nat) : Option Instr :=
  match n / 8 % 32 with
  | 0 => some (.ldp c (wordField 3 n 0))
  | 1 => some (.stp c (wordField 3 n 0))
  | 2 => some (.ld2p c (wordField 3 n 0))
  | 3 => some (.st2p c (wordField 3 n 0))
  | 4 => some (.tas c (wordField 3 n 0))
  | 5 => some (.lr c (wordField 3 n 0))
  | 6 => some (.sc c (wordField 3 n 0))
  | 7 => some (.ldmStep c (wordField 3 n 0))
  | _ => none

/-- Group 0xC (Table 7.19), by bits 7:3 of the function. -/
def decodeCapField (c : CoreId) (n : Nat) : Option Instr :=
  match n / 8 % 32 with
  | 0 => some (.cbase c (wordField 3 n 0))
  | 1 => some (.clen c (wordField 3 n 0))
  | 2 => some (.cperm c (wordField 3 n 0))
  | 3 => some (.cattr c (wordField 3 n 0))
  | 4 => some (.cowner c (wordField 3 n 0))
  | 5 => some (.ctag c (wordField 3 n 0))
  | 6 => some (.cclr c (wordField 3 n 0))
  | 7 => some (.cprior c (wordField 3 n 0))
  | 8 => some (.cskey c (wordField 3 n 0))
  | _ => none

/-- Group 0x8 (Table 7.18), by bits 7:6 of the function. -/
def decodeCapPair (c : CoreId) (n : Nat) : Option Instr :=
  match n / 0x40 % 4 with
  | 0 => some (.cmov c (wordField 3 n 3) (wordField 3 n 0))
  | 1 => some (.cderive c (wordField 3 n 3) (wordField 3 n 0))
  | 2 => some (.cseal c (wordField 3 n 3) (wordField 3 n 0))
  | _ => some (.cunseal c (wordField 3 n 3) (wordField 3 n 0))

/-- Group 0xD (Tables 7.14 and 7.20). -/
def decodeCapMem (c : CoreId) (n : Nat) : Option Instr :=
  match n / 0x40 % 4 with
  | 0 => some (.cldc c (wordField 3 n 3) (wordField 3 n 0))
  | 1 => some (.cstc c (wordField 3 n 3) (wordField 3 n 0))
  | 2 => if n / 8 % 8 = 0 then some (.stmStep c (wordField 3 n 0)) else none
  | _ => none

/-- Operate class (Table 7.5): group in bits 11:8, function in 7:0. -/
def decodeOperate (c : CoreId) (n : Nat) : Option Instr :=
  match n / 0x100 % 16 with
  | 0x0 => if n / 8 % 32 = 2 then some (.pick c (wordField 3 n 0)) else decodePlain c n
  | 0x1 =>
    match n / 16 % 16 with
    | 2 => if n % 16 = 0 then none else some (.shli c (wordField 4 n 0))
    | 3 => if n % 16 = 0 then none else some (.shri c (wordField 4 n 0))
    | 4 => if n % 16 = 0 then none else some (.srai c (wordField 4 n 0))
    | _ => decodePlain c n
  | 0x5 => some (.loop c (wordField 8 n 0))
  | 0x6 => if n / 0x40 % 4 = 1 then some (.repi c (wordField 6 n 0)) else decodePlain c n
  | 0x7 => decodeExtMem c n
  | 0x8 => decodeCapPair c n
  | 0x9 => if n / 8 % 32 = 0 then some (.vissue c (wordField 3 n 0)) else decodePlain c n
  | 0xA => some (.lith c (wordField 8 n 0))
  | 0xB => if n / 0x40 % 4 = 0 then some (.sev c (wordField 6 n 0)) else none
  | 0xC => decodeCapField c n
  | 0xD => decodeCapMem c n
  | 0xE => none
  | 0xF => some (.trap c (wordField 8 n 0) [])
  | _ => decodePlain c n

/-- The instruction a 14-bit program word is on core `c` (Tables 7.1 to 7.22); none for an undefined word (R230). -/
def sprinDecode (c : CoreId) (word : BitVec 14) : Option Instr :=
  let n := word.toNat
  match n / 0x1000 with
  | 0 => some (.lit c (wordField 12 n 0))
  | 1 => decodeFlow c n
  | 2 => decodeMem c n
  | _ => decodeOperate c n

/-- The program word of an instruction of a Sprin core (Tables 7.1 to 7.22), none for a command that is no instruction. LDM and STM are one
word for all their steps; a TRAP's word has no upsets. -/
def sprinEncode : Instr → Option (BitVec 14)
  | .lit _ x => some (BitVec.ofNat 14 x.toNat)
  | .br _ off => some (BitVec.ofNat 14 (0x1000 + off.toNat))
  | .bz _ off => some (BitVec.ofNat 14 (0x1400 + off.toNat))
  | .bnz _ off => some (BitVec.ofNat 14 (0x1800 + off.toNat))
  | .call _ off => some (BitVec.ofNat 14 (0x1C00 + off.toNat))
  | .ld _ r d => some (BitVec.ofNat 14 (0x2000 + 0x200 * r.toNat + d.toNat))
  | .st _ r d => some (BitVec.ofNat 14 (0x2040 + 0x200 * r.toNat + d.toNat))
  | .ld2 _ r d => some (BitVec.ofNat 14 (0x2080 + 0x200 * r.toNat + d.toNat))
  | .st2 _ r d => some (BitVec.ofNat 14 (0x20C0 + 0x200 * r.toNat + d.toNat))
  | .ldx _ r d => some (BitVec.ofNat 14 (0x2100 + 0x200 * r.toNat + d.toNat))
  | .stx _ r d => some (BitVec.ofNat 14 (0x2140 + 0x200 * r.toNat + d.toNat))
  | .ld2x _ r d => some (BitVec.ofNat 14 (0x2180 + 0x200 * r.toNat + d.toNat))
  | .st2x _ r d => some (BitVec.ofNat 14 (0x21C0 + 0x200 * r.toNat + d.toNat))
  | .nop _ => some 0x3000
  | .dup _ => some 0x3001
  | .drop _ => some 0x3002
  | .swap _ => some 0x3003
  | .overOp _ => some 0x3004
  | .rot _ => some 0x3005
  | .nip _ => some 0x3006
  | .tuck _ => some 0x3007
  | .twoDup _ => some 0x3008
  | .twoDrop _ => some 0x3009
  | .twoSwap _ => some 0x300A
  | .twoOver _ => some 0x300B
  | .minusRot _ => some 0x300C
  | .add _ => some 0x3100
  | .adc _ => some 0x3101
  | .sub _ => some 0x3102
  | .sbc _ => some 0x3103
  | .neg _ => some 0x3104
  | .inc _ => some 0x3105
  | .dec _ => some 0x3106
  | .and _ => some 0x3107
  | .or _ => some 0x3108
  | .xor _ => some 0x3109
  | .not _ => some 0x310A
  | .shl _ => some 0x310B
  | .shr _ => some 0x310C
  | .sra _ => some 0x310D
  | .rol _ => some 0x310E
  | .min _ => some 0x3150
  | .max _ => some 0x3151
  | .umin _ => some 0x3152
  | .umax _ => some 0x3153
  | .abs _ => some 0x3154
  | .sext8 _ => some 0x3158
  | .zext8 _ => some 0x3159
  | .popc _ => some 0x315A
  | .clz _ => some 0x315B
  | .mul _ => some 0x3200
  | .mulu _ => some 0x3201
  | .mull _ => some 0x3202
  | .div _ => some 0x3204
  | .divu _ => some 0x3205
  | .div2u _ => some 0x3206
  | .add2 _ => some 0x3208
  | .sub2 _ => some 0x3209
  | .neg2 _ => some 0x320A
  | .eq _ => some 0x3300
  | .ne _ => some 0x3301
  | .lt _ => some 0x3302
  | .le _ => some 0x3303
  | .gt _ => some 0x3304
  | .ge _ => some 0x3305
  | .ult _ => some 0x3306
  | .ule _ => some 0x3307
  | .ugt _ => some 0x3308
  | .uge _ => some 0x3309
  | .zeroEq _ => some 0x330A
  | .zeroLt _ => some 0x330B
  | .sel _ => some 0x330C
  | .ret _ => some 0x3400
  | .toR _ => some 0x3401
  | .rFrom _ => some 0x3402
  | .rFetch _ => some 0x3403
  | .jmps _ => some 0x3404
  | .calls _ => some 0x3405
  | .reti _ => some 0x3406
  | .rett _ => some 0x3407
  | .wait _ => some 0x3408
  | .synci _ => some 0x3409
  | .niwo _ => some 0x340A
  | .niwc _ => some 0x340B
  | .fence _ => some 0x340C
  | .rep _ => some 0x3600
  | .flFetch _ => some 0x3601
  | .flStore _ => some 0x3602
  | .lcFetch _ => some 0x3603
  | .lcStore _ => some 0x3604
  | .lsFetch _ => some 0x3605
  | .lsStore _ => some 0x3606
  | .leFetch _ => some 0x3607
  | .leStore _ => some 0x3608
  | .rcFetch _ => some 0x3609
  | .depth _ => some 0x360A
  | .rdepth _ => some 0x360B
  | .lpush _ => some 0x360C
  | .lpop _ => some 0x360D
  | .leave _ => some 0x360E
  | .ctxid _ => some 0x360F
  | .vwait _ => some 0x3908
  | .vresume _ => some 0x3909
  | .vtest _ => some 0x390A
  | .vprFetch _ => some 0x390B
  | .vprStore _ => some 0x390C
  | .pick _ k => some (BitVec.ofNat 14 (0x3010 + k.toNat))
  | .shli _ k => some (BitVec.ofNat 14 (0x3120 + k.toNat))
  | .shri _ k => some (BitVec.ofNat 14 (0x3130 + k.toNat))
  | .srai _ k => some (BitVec.ofNat 14 (0x3140 + k.toNat))
  | .loop _ d => some (BitVec.ofNat 14 (0x3500 + d.toNat))
  | .repi _ k => some (BitVec.ofNat 14 (0x3640 + k.toNat))
  | .ldp _ r => some (BitVec.ofNat 14 (0x3700 + r.toNat))
  | .stp _ r => some (BitVec.ofNat 14 (0x3708 + r.toNat))
  | .ld2p _ r => some (BitVec.ofNat 14 (0x3710 + r.toNat))
  | .st2p _ r => some (BitVec.ofNat 14 (0x3718 + r.toNat))
  | .tas _ r => some (BitVec.ofNat 14 (0x3720 + r.toNat))
  | .lr _ r => some (BitVec.ofNat 14 (0x3728 + r.toNat))
  | .sc _ r => some (BitVec.ofNat 14 (0x3730 + r.toNat))
  | .ldmStep _ r => some (BitVec.ofNat 14 (0x3738 + r.toNat))
  | .cmov _ a b => some (BitVec.ofNat 14 (0x3800 + 8 * a.toNat + b.toNat))
  | .cderive _ a b => some (BitVec.ofNat 14 (0x3840 + 8 * a.toNat + b.toNat))
  | .cseal _ a b => some (BitVec.ofNat 14 (0x3880 + 8 * a.toNat + b.toNat))
  | .cunseal _ a b => some (BitVec.ofNat 14 (0x38C0 + 8 * a.toNat + b.toNat))
  | .vissue _ r => some (BitVec.ofNat 14 (0x3900 + r.toNat))
  | .lith _ n => some (BitVec.ofNat 14 (0x3A00 + n.toNat))
  | .sev _ n => some (BitVec.ofNat 14 (0x3B00 + n.toNat))
  | .cbase _ r => some (BitVec.ofNat 14 (0x3C00 + r.toNat))
  | .clen _ r => some (BitVec.ofNat 14 (0x3C08 + r.toNat))
  | .cperm _ r => some (BitVec.ofNat 14 (0x3C10 + r.toNat))
  | .cattr _ r => some (BitVec.ofNat 14 (0x3C18 + r.toNat))
  | .cowner _ r => some (BitVec.ofNat 14 (0x3C20 + r.toNat))
  | .ctag _ r => some (BitVec.ofNat 14 (0x3C28 + r.toNat))
  | .cclr _ r => some (BitVec.ofNat 14 (0x3C30 + r.toNat))
  | .cprior _ r => some (BitVec.ofNat 14 (0x3C38 + r.toNat))
  | .cskey _ r => some (BitVec.ofNat 14 (0x3C40 + r.toNat))
  | .cldc _ a b => some (BitVec.ofNat 14 (0x3D00 + 8 * a.toNat + b.toNat))
  | .cstc _ a b => some (BitVec.ofNat 14 (0x3D40 + 8 * a.toNat + b.toNat))
  | .stmStep _ r => some (BitVec.ofNat 14 (0x3D80 + r.toNat))
  | .trap _ n _ => some (BitVec.ofNat 14 (0x3F00 + n.toNat))
  | _ => none

/-- The core an instruction runs on. -/
def sprinCore : Instr → Option CoreId
  | .lit c _ => some c
  | .br c _ => some c
  | .bz c _ => some c
  | .bnz c _ => some c
  | .call c _ => some c
  | .ld c _ _ => some c
  | .st c _ _ => some c
  | .ld2 c _ _ => some c
  | .st2 c _ _ => some c
  | .ldx c _ _ => some c
  | .stx c _ _ => some c
  | .ld2x c _ _ => some c
  | .st2x c _ _ => some c
  | .nop c => some c
  | .dup c => some c
  | .drop c => some c
  | .swap c => some c
  | .overOp c => some c
  | .rot c => some c
  | .nip c => some c
  | .tuck c => some c
  | .twoDup c => some c
  | .twoDrop c => some c
  | .twoSwap c => some c
  | .twoOver c => some c
  | .minusRot c => some c
  | .pick c _ => some c
  | .add c => some c
  | .adc c => some c
  | .sub c => some c
  | .sbc c => some c
  | .neg c => some c
  | .inc c => some c
  | .dec c => some c
  | .and c => some c
  | .or c => some c
  | .xor c => some c
  | .not c => some c
  | .shl c => some c
  | .shr c => some c
  | .sra c => some c
  | .rol c => some c
  | .shli c _ => some c
  | .shri c _ => some c
  | .srai c _ => some c
  | .min c => some c
  | .max c => some c
  | .umin c => some c
  | .umax c => some c
  | .abs c => some c
  | .sext8 c => some c
  | .zext8 c => some c
  | .popc c => some c
  | .clz c => some c
  | .mul c => some c
  | .mulu c => some c
  | .mull c => some c
  | .div c => some c
  | .divu c => some c
  | .div2u c => some c
  | .add2 c => some c
  | .sub2 c => some c
  | .neg2 c => some c
  | .eq c => some c
  | .ne c => some c
  | .lt c => some c
  | .le c => some c
  | .gt c => some c
  | .ge c => some c
  | .ult c => some c
  | .ule c => some c
  | .ugt c => some c
  | .uge c => some c
  | .zeroEq c => some c
  | .zeroLt c => some c
  | .sel c => some c
  | .ret c => some c
  | .toR c => some c
  | .rFrom c => some c
  | .rFetch c => some c
  | .jmps c => some c
  | .calls c => some c
  | .reti c => some c
  | .rett c => some c
  | .wait c => some c
  | .synci c => some c
  | .niwo c => some c
  | .niwc c => some c
  | .fence c => some c
  | .loop c _ => some c
  | .rep c => some c
  | .repi c _ => some c
  | .flFetch c => some c
  | .flStore c => some c
  | .lcFetch c => some c
  | .lcStore c => some c
  | .lsFetch c => some c
  | .lsStore c => some c
  | .leFetch c => some c
  | .leStore c => some c
  | .rcFetch c => some c
  | .depth c => some c
  | .rdepth c => some c
  | .lpush c => some c
  | .lpop c => some c
  | .leave c => some c
  | .ctxid c => some c
  | .ldp c _ => some c
  | .stp c _ => some c
  | .ld2p c _ => some c
  | .st2p c _ => some c
  | .tas c _ => some c
  | .lr c _ => some c
  | .sc c _ => some c
  | .ldmStep c _ => some c
  | .stmStep c _ => some c
  | .cmov c _ _ => some c
  | .cderive c _ _ => some c
  | .cseal c _ _ => some c
  | .cunseal c _ _ => some c
  | .cbase c _ => some c
  | .clen c _ => some c
  | .cperm c _ => some c
  | .cattr c _ => some c
  | .cowner c _ => some c
  | .ctag c _ => some c
  | .cclr c _ => some c
  | .cprior c _ => some c
  | .cskey c _ => some c
  | .cldc c _ _ => some c
  | .cstc c _ _ => some c
  | .sev c _ => some c
  | .lith c _ => some c
  | .trap c _ _ => some c
  | .vissue c _ => some c
  | .vwait c => some c
  | .vresume c => some c
  | .vtest c => some c
  | .vprFetch c => some c
  | .vprStore c => some c
  | _ => none

end Sys2Proof
end

