-- ==== Sys2Proof/Machine/SprinAlu.lean ====
section
/-! DEFINITION. The instructions that work on cells, return entries, flags and loop state alone: literals, flow, and the groups 0x0
to 0x3, 0x5 and 0x6 (chapter 07, Tables 7.1 to 7.12 and 7.22). -/

namespace Sys2Proof.Machine

/-! ### Literals and flow -/

/-- LIT: bits 11..0 sign-extended (R227). -/
def execLit (c : CoreId) (x : BitVec 12) (s : State) : Out := push c 1 (fun _ => [x.signExtend 16]) s

/-- LITH: x' = n × 0x100 + x[7:0] (Table 7.22). -/
def execLith (c : CoreId) (n : BitVec 8) (s : State) : Out :=
  shuffle c 1 1 (fun x => [n ++ (x 0).extractLsb' 0 8]) s

/-- The target of a flow instruction at `a` (R228). -/
def flowTarget (a : PC) (off : BitVec 10) : PC := a + 1 + off.signExtend 22

/-- A flow change: cells taken, return entries pushed, and the target, none when it is not taken (R269, R270). -/
def flow (c : CoreId) (i : Shape) (f : View → View × Option PC) (s : State) : Out :=
  issue c i (fun v s => btbUpdate c v.regs.pc (f v).2 (retire c (f v).1 (f v).2 s)) s

def execBr (c : CoreId) (off : BitVec 10) (s : State) : Out :=
  flow c (eff 0 0 0 0) (fun v => (v, some (flowTarget v.regs.pc off))) s

def execBz (c : CoreId) (off : BitVec 10) (s : State) : Out :=
  flow c (eff 1 0 0 0) (fun v => (v.eff 1 [], if v.cell 0 = 0 then some (flowTarget v.regs.pc off) else none)) s

def execBnz (c : CoreId) (off : BitVec 10) (s : State) : Out :=
  flow c (eff 1 0 0 0) (fun v => (v.eff 1 [], if v.cell 0 ≠ 0 then some (flowTarget v.regs.pc off) else none)) s

def execCall (c : CoreId) (off : BitVec 10) (s : State) : Out :=
  flow c (eff 0 0 0 1) (fun v => (v.reff 0 [v.regs.pc + 1], some (flowTarget v.regs.pc off))) s

/-- The program address hi[5:0] × 2^16 + lo. -/
def pairPc (lo hi : Word) : PC := hi.extractLsb' 0 6 ++ lo

def execRet (c : CoreId) (s : State) : Out := flow c (eff 0 0 1 0) (fun v => (v.reff 1 [], some (v.ret 0))) s

def execJmps (c : CoreId) (s : State) : Out :=
  flow c (eff 2 0 0 0) (fun v => (v.eff 2 [], some (pairPc (v.cell 1) (v.cell 0)))) s

def execCalls (c : CoreId) (s : State) : Out :=
  flow c (eff 2 0 0 1) (fun v => ((v.eff 2 []).reff 0 [v.regs.pc + 1], some (pairPc (v.cell 1) (v.cell 0)))) s

/-! ### Stack (Table 7.6) -/

def execNop (c : CoreId) (s : State) : Out := shuffle c 0 0 (fun _ => []) s
def execDup (c : CoreId) (s : State) : Out := shuffle c 1 2 (fun x => [x 0, x 0]) s
def execDrop (c : CoreId) (s : State) : Out := shuffle c 1 0 (fun _ => []) s
def execSwap (c : CoreId) (s : State) : Out := shuffle c 2 2 (fun x => [x 0, x 1]) s
def execOver (c : CoreId) (s : State) : Out := shuffle c 2 3 (fun x => [x 1, x 0, x 1]) s
def execRot (c : CoreId) (s : State) : Out := shuffle c 3 3 (fun x => [x 1, x 0, x 2]) s
def execNip (c : CoreId) (s : State) : Out := shuffle c 2 1 (fun x => [x 0]) s
def execTuck (c : CoreId) (s : State) : Out := shuffle c 2 3 (fun x => [x 0, x 1, x 0]) s
def execTwoDup (c : CoreId) (s : State) : Out := shuffle c 2 4 (fun x => [x 1, x 0, x 1, x 0]) s
def execTwoDrop (c : CoreId) (s : State) : Out := shuffle c 2 0 (fun _ => []) s
def execTwoSwap (c : CoreId) (s : State) : Out := shuffle c 4 4 (fun x => [x 1, x 0, x 3, x 2]) s
def execTwoOver (c : CoreId) (s : State) : Out := shuffle c 4 6 (fun x => [x 3, x 2, x 1, x 0, x 3, x 2]) s
def execMinusRot (c : CoreId) (s : State) : Out := shuffle c 3 3 (fun x => [x 0, x 2, x 1]) s

/-- PICK k: p = k + 1, q = k + 2. -/
def execPick (c : CoreId) (k : BitVec 3) (s : State) : Out :=
  shuffle c (k.toNat + 1) (k.toNat + 2)
    (fun x => (List.range (k.toNat + 1)).reverse.map x ++ [x k.toNat]) s

/-! ### ALU (Table 7.7, R231, R232) -/

/-- Sum of `a`, `b` and a carry in, with all four flags. -/
def addFlags (a b : Word) (cin : Bool) : Word × Flags :=
  let r := addc 16 a b cin
  (r.1, Flags.all r.1 r.2.1 r.2.2)

/-- Difference of `a`, `b` and a borrow in, with all four flags. -/
def subFlags (a b : Word) (bin : Bool) : Word × Flags :=
  let r := subb 16 a b bin
  (r.1, Flags.all r.1 r.2.1 r.2.2)

def execAdd (c : CoreId) (s : State) : Out := binary c (fun a b _ => addFlags a b false) s
def execAdc (c : CoreId) (s : State) : Out := binary c (fun a b f => addFlags a b f.c) s
def execSub (c : CoreId) (s : State) : Out := binary c (fun a b _ => subFlags a b false) s
def execSbc (c : CoreId) (s : State) : Out := binary c (fun a b f => subFlags a b f.c) s
def execNeg (c : CoreId) (s : State) : Out := unary c (fun a _ => subFlags 0 a false) s
def execInc (c : CoreId) (s : State) : Out := unary c (fun a _ => addFlags a 1 false) s
def execDec (c : CoreId) (s : State) : Out := unary c (fun a _ => subFlags a 1 false) s

/-- A result that sets Z and S only. -/
def zsOf (f : Flags) (r : Word) : Word × Flags := (r, f.zs r)

def execAnd (c : CoreId) (s : State) : Out := binary c (fun a b f => zsOf f (a &&& b)) s
def execOr (c : CoreId) (s : State) : Out := binary c (fun a b f => zsOf f (a ||| b)) s
def execXor (c : CoreId) (s : State) : Out := binary c (fun a b f => zsOf f (a ^^^ b)) s
def execNot (c : CoreId) (s : State) : Out := unary c (fun a f => zsOf f (~~~a)) s

/-- A shift's result and C, with Z and S set (R232). -/
def shiftFlags (f : Flags) (r : Word × Bool) : Word × Flags := (r.1, f.zsc r.1 r.2)

def execShl (c : CoreId) (s : State) : Out := binary c (fun a n f => shiftFlags f (shlc a (n.toNat % 16) f.c)) s
def execShr (c : CoreId) (s : State) : Out := binary c (fun a n f => shiftFlags f (shrc a (n.toNat % 16) f.c)) s
def execSra (c : CoreId) (s : State) : Out := binary c (fun a n f => shiftFlags f (srac a (n.toNat % 16) f.c)) s
def execRol (c : CoreId) (s : State) : Out := binary c (fun a n f => zsOf f (a.rotateLeft (n.toNat % 16))) s

/-- The shape of an immediate shift: its count is 1 to 15, and the word of count 0 is undefined (Table 7.5, R230). -/
def shiftImm (c : CoreId) (k : BitVec 4) (f : Word → Flags → Word × Flags) (s : State) : Out :=
  plainIns c { p := 1, q := 1, rep := true, undef := decide (k = 0) }
    (fun v => let r := f (v.cell 0) v.regs.fl; ((v.eff 1 [r.1]).flags r.2, none)) s

def execShli (c : CoreId) (k : BitVec 4) (s : State) : Out :=
  shiftImm c k (fun a f => shiftFlags f (shlc a k.toNat f.c)) s
def execShri (c : CoreId) (k : BitVec 4) (s : State) : Out :=
  shiftImm c k (fun a f => shiftFlags f (shrc a k.toNat f.c)) s
def execSrai (c : CoreId) (k : BitVec 4) (s : State) : Out :=
  shiftImm c k (fun a f => shiftFlags f (srac a k.toNat f.c)) s

def execMin (c : CoreId) (s : State) : Out := binary c (fun a b f => zsOf f (if a.slt b then a else b)) s
def execMax (c : CoreId) (s : State) : Out := binary c (fun a b f => zsOf f (if a.slt b then b else a)) s
def execUmin (c : CoreId) (s : State) : Out := binary c (fun a b f => zsOf f (if a.ult b then a else b)) s
def execUmax (c : CoreId) (s : State) : Out := binary c (fun a b f => zsOf f (if a.ult b then b else a)) s

/-- ABS: |a|, and 0x8000 with V set for 0x8000; flags Z, S and V. -/
def execAbs (c : CoreId) (s : State) : Out :=
  unary c (fun a f => let r := if a.msb then 0 - a else a; (r, { f.zs r with v := decide (a = 0x8000) })) s

def execSext8 (c : CoreId) (s : State) : Out := unary c (fun a f => zsOf f ((a.extractLsb' 0 8).signExtend 16)) s
def execZext8 (c : CoreId) (s : State) : Out := unary c (fun a f => zsOf f ((a.extractLsb' 0 8).zeroExtend 16)) s

/-- The number of 1 bits. -/
def popcount (a : Word) : Nat := (List.range 16).countP (fun i => a.getLsbD i)

/-- Leading zero bits; 16 for 0. -/
def leadingZeros (a : Word) : Nat :=
  match firstBelow (fun i => a.getLsbD (15 - i)) 16 with
  | some i => i
  | none => 16

def execPopc (c : CoreId) (s : State) : Out := unary c (fun a f => zsOf f (BitVec.ofNat 16 (popcount a))) s
def execClz (c : CoreId) (s : State) : Out := unary c (fun a f => zsOf f (BitVec.ofNat 16 (leadingZeros a))) s

/-! ### Multiply, divide and pairs (Table 7.8, R233) -/

/-- A pair as 32 bits, lo in bits 15..0 (R192). -/
def pair (lo hi : Word) : BitVec 32 := hi ++ lo

/-- A product's words with its flags. -/
def product (r : BitVec 32) : Word × Word × Flags := (r.extractLsb' 0 16, r.extractLsb' 16 16, Flags.mul r)

def execMul (c : CoreId) (s : State) : Out := binary2 c (fun a b => product (a.signExtend 32 * b.signExtend 32)) s
def execMulu (c : CoreId) (s : State) : Out := binary2 c (fun a b => product (a.zeroExtend 32 * b.zeroExtend 32)) s
def execMull (c : CoreId) (s : State) : Out := binary c (fun a b _ => (a * b, Flags.mull (a * b) (a.toInt * b.toInt))) s

/-- Quotient and remainder with the divide flags. -/
def quotient (r : Word × Word × Bool) : Word × Word × Flags := (r.1, r.2.1, Flags.div r.1 r.2.2)

def execDiv (c : CoreId) (s : State) : Out := binary2 c (fun a b => quotient (divSigned a b)) s
def execDivu (c : CoreId) (s : State) : Out := binary2 c (fun a b => quotient (divUnsigned a b)) s
def execDiv2u (c : CoreId) (s : State) : Out :=
  cells c 3 2 (fun v => let r := quotient (divPair (v.cell 2) (v.cell 1) (v.cell 0)); ([r.1, r.2.1], r.2.2)) s

/-- A 32-bit result as cells with all four flags on 32 bits. -/
def pairResult (r : BitVec 32 × Bool × Bool) : List Word × Flags :=
  ([r.1.extractLsb' 0 16, r.1.extractLsb' 16 16], Flags.all32 r.1 r.2.1 r.2.2)

def execAdd2 (c : CoreId) (s : State) : Out :=
  cells c 4 2 (fun v => pairResult (addc 32 (pair (v.cell 3) (v.cell 2)) (pair (v.cell 1) (v.cell 0)) false)) s
def execSub2 (c : CoreId) (s : State) : Out :=
  cells c 4 2 (fun v => pairResult (subb 32 (pair (v.cell 3) (v.cell 2)) (pair (v.cell 1) (v.cell 0)) false)) s
def execNeg2 (c : CoreId) (s : State) : Out :=
  cells c 2 2 (fun v => pairResult (subb 32 0 (pair (v.cell 1) (v.cell 0)) false)) s

/-! ### Compare (Table 7.9, R234) -/

def execEq (c : CoreId) (s : State) : Out := compare c (fun a b => decide (a = b)) s
def execNe (c : CoreId) (s : State) : Out := compare c (fun a b => decide (a ≠ b)) s
def execLt (c : CoreId) (s : State) : Out := compare c (fun a b => a.slt b) s
def execLe (c : CoreId) (s : State) : Out := compare c (fun a b => a.sle b) s
def execGt (c : CoreId) (s : State) : Out := compare c (fun a b => b.slt a) s
def execGe (c : CoreId) (s : State) : Out := compare c (fun a b => b.sle a) s
def execUlt (c : CoreId) (s : State) : Out := compare c (fun a b => a.ult b) s
def execUle (c : CoreId) (s : State) : Out := compare c (fun a b => a.ule b) s
def execUgt (c : CoreId) (s : State) : Out := compare c (fun a b => b.ult a) s
def execUge (c : CoreId) (s : State) : Out := compare c (fun a b => b.ule a) s
def execZeroEq (c : CoreId) (s : State) : Out := shuffle c 1 1 (fun x => [truth (decide (x 0 = 0))]) s
def execZeroLt (c : CoreId) (s : State) : Out := shuffle c 1 1 (fun x => [truth (x 0).msb]) s

/-- SEL: a when f is not 0, b otherwise. -/
def execSel (c : CoreId) (s : State) : Out := shuffle c 3 1 (fun x => [if x 0 ≠ 0 then x 2 else x 1]) s

/-! ### Return-stack moves (Table 7.10) -/

def execToR (c : CoreId) (s : State) : Out :=
  plainIns c (eff 1 0 0 1) (fun v => ((v.eff 1 []).reff 0 [(v.cell 0).zeroExtend 22], none)) s

def execRFrom (c : CoreId) (s : State) : Out :=
  plainIns c (eff 0 1 1 0) (fun v => ((v.eff 0 [(v.ret 0).extractLsb' 0 16]).reff 1 [], none)) s

def execRFetch (c : CoreId) (s : State) : Out :=
  plainIns c (eff 0 1 1 1) (fun v => (v.eff 0 [(v.ret 0).extractLsb' 0 16], none)) s

/-! ### Loops, repeats and state (Tables 7.11 and 7.12) -/

/-- The loop buffer refilled with the words at LS to LS + 3, as the core fetches them (R271); the Moth core has none. -/
def fillLoop (c : CoreId) (ls : PC) (s : State) : State :=
  if c = .moth then s else s.setCore c { s.core c with loopBuf := s.fetchWords c ls 4 }

/-- LOOP d at A: LS ← A + 1, LE ← A + 1 + d, LC ← n; a count of 0 continues at LE + 1 (R212). -/
def execLoop (c : CoreId) (d : BitVec 8) (s : State) : Out :=
  issue c (eff 1 0 0 0) (fun v s =>
    let old := v.regs
    let le := old.pc + 1 + d.zeroExtend 22
    let n := v.cell 0
    let v := { v.eff 1 [] with regs := { old with ls := old.pc + 1, le := le, lc := n } }
    fillLoop c (old.pc + 1) (if n = 0 then retire c v (some (le + 1)) s else retireLoop c old true v s)) s

/-- A REP prefix latches count `n` into RC (R214); the next instruction is its target. -/
def repPrefix (c : CoreId) (v : View) (p : Nat) (n : Word) (s : State) : State :=
  let s := retire c { v.eff p [] with regs := { v.regs.advance with rc := n, pc := v.regs.advance.pc } } (some v.regs.advance.pc) s
  s.setCore c { s.core c with rep := some { regs := v.regs, bank := v.bank, count := n } }

def execRep (c : CoreId) (s : State) : Out :=
  issue c { p := 1, plain := false } (fun v s => repPrefix c v 1 (v.cell 0) s) s

def execRepi (c : CoreId) (k : BitVec 6) (s : State) : Out :=
  issue c { plain := false } (fun v s => repPrefix c v 0 (k.zeroExtend 16) s) s

/-- A push of words that the level's registers give. -/
def stateRead (c : CoreId) (q : Nat) (f : View → List Word) (s : State) : Out :=
  plainIns c (eff 0 q 0 0) (fun v => (v.eff 0 (f v), none)) s

/-- Cells taken into the level's registers; `own`: LC among them. -/
def stateWrite (c : CoreId) (p : Nat) (own : Bool) (f : View → Regs) (s : State) : Out :=
  issue c (eff p 0 0 0) (fun v s => retireLoop c v.regs own { v.eff p [] with regs := f v } s) s

/-- A program address as cells ( lo hi ). -/
def pcCells (a : PC) : List Word := [a.extractLsb' 0 16, (a.extractLsb' 16 6).zeroExtend 16]

def execFlFetch (c : CoreId) (s : State) : Out := stateRead c 1 (fun v => [v.regs.fl.word]) s
def execFlStore (c : CoreId) (s : State) : Out := stateWrite c 1 false (fun v => { v.regs with fl := Flags.ofWord (v.cell 0) }) s
def execLcFetch (c : CoreId) (s : State) : Out := stateRead c 1 (fun v => [v.regs.lc]) s
def execLcStore (c : CoreId) (s : State) : Out := stateWrite c 1 true (fun v => { v.regs with lc := v.cell 0 }) s
def execLsFetch (c : CoreId) (s : State) : Out := stateRead c 2 (fun v => pcCells v.regs.ls) s

/-- LS!, which refills the loop buffer (R271). -/
def execLsStore (c : CoreId) (s : State) : Out :=
  issue c (eff 2 0 0 0) (fun v s =>
    let a := pairPc (v.cell 1) (v.cell 0)
    fillLoop c a (retireLoop c v.regs false { v.eff 2 [] with regs := { v.regs with ls := a } } s)) s

def execLeFetch (c : CoreId) (s : State) : Out := stateRead c 2 (fun v => pcCells v.regs.le) s
def execLeStore (c : CoreId) (s : State) : Out :=
  stateWrite c 2 false (fun v => { v.regs with le := pairPc (v.cell 1) (v.cell 0) }) s
def execRcFetch (c : CoreId) (s : State) : Out := stateRead c 1 (fun v => [v.regs.rc]) s

/-- DEPTH: OPD + OSC at context level, the cells of its frame in a handler. -/
def execDepth (c : CoreId) (s : State) : Out :=
  stateRead c 1 (fun v => [if (s.core c).level = 0 then BitVec.ofNat 16 v.depth + (s.spilled c).1 else BitVec.ofNat 16 v.depth]) s

/-- RDEPTH: RTD + RSC at context level, the entries of its frame in a handler. -/
def execRdepth (c : CoreId) (s : State) : Out :=
  stateRead c 1 (fun v =>
    [if (s.core c).level = 0 then BitVec.ofNat 16 v.rdepth + (s.spilled c).2 else BitVec.ofNat 16 v.rdepth]) s

def execLpush (c : CoreId) (s : State) : Out :=
  plainIns c (eff 0 0 0 3) (fun v => (v.reff 0 [v.regs.lc.zeroExtend 22, v.regs.ls, v.regs.le], none)) s

/-- LPOP, which refills the loop buffer (R271). -/
def execLpop (c : CoreId) (s : State) : Out :=
  issue c (eff 0 0 3 0) (fun v s =>
    let v' := { v.reff 3 [] with regs := { v.regs with le := v.ret 0, ls := v.ret 1, lc := (v.ret 2).extractLsb' 0 16 } }
    fillLoop c (v.ret 1) (retireLoop c v.regs true v' s)) s

def execLeave (c : CoreId) (s : State) : Out := stateWrite c 0 true (fun v => { v.regs with lc := 0 }) s

/-- The identity CTXID pushes (R242, R561). -/
def State.ctxIdent (s : State) (c : CoreId) : Word :=
  match c with
  | .moth => 0x8001
  | .sup => BitVec.ofNat 16 (0x4000 + (s.core .sup).live.getD 0)
  | .seq n => match s.lsOfSeq n, (s.core c).live with
    | some l, some i => BitVec.ofNat 16 (l * 512 + i)
    | some l, none => BitVec.ofNat 16 (0xC000 + l)
    | none, _ => BitVec.ofNat 16 (0xC000 + n)

def execCtxid (c : CoreId) (s : State) : Out := stateRead c 1 (fun _ => [s.ctxIdent c]) s

/-- An undefined word: illegal opcode, cause UNDEF (R230), as a REP target under R215. A defined word is the instruction that it spells,
whose own command runs it: nothing happens here. -/
def execUndefinedWord (c : CoreId) (w : BitVec 14) (s : State) : Out :=
  if (Sys2Proof.sprinDecode c w).isSome then .next s else issue c { undef := true } (fun _ s => s) s

end Sys2Proof.Machine
end

