-- ==== Sys2Proof/Machine/Exc.lean ====
section
/-! DEFINITION. Handler levels (chapter 09): entry and return, faults and double faults, interrupts, traps through gates, no-interrupt
windows, debug halts (chapter 16), the save-set window and the mint path. -/

namespace Sys2Proof.Machine

/-! ### Entry and return (R308, R311, R316) -/

/-- The live-bank field of a save set (Table 9.5, R420). -/
def State.bankCode (s : State) (c : CoreId) : Nat :=
  let k := s.core c
  if k.level ≠ 0 then 5
  else match c, k.live with
    | .moth, _ => 1
    | .sup, some b => b
    | .seq _, some x => (k.bankOf x).getD 0
    | _, none => 0

/-- What a save set receives at an entry from the running level (R308). -/
def State.saved (s : State) (c : CoreId) : SaveSet :=
  let k := s.core c
  { r := match s.view c with
      | some v => v.regs
      | none => Regs.init,
    level := k.level, bank := BitVec.ofNat 3 (s.bankCode c), cpl := k.cpl,
    base := BitVec.ofNat 5 k.base, rbase := BitVec.ofNat 4 k.rbase, valid := true,
    caps := (List.range 8).foldl (fun t r => Tbl.set Cap.null r (s.capReg c r) t) [], cset := k.cset }

/-- The running level is written into save set `i`, and RSV clears (R308, R481). -/
def saveLevel (c : CoreId) (i : Nat) (s : State) : State :=
  let k := s.core c
  s.setCore c { k with sv := Tbl.set SaveSet.init i (s.saved c) k.sv, rsv := none, rep := none, need := none, vreq := none, fault := none }

/-- Entry to level `lvl` at `pc` through save set `i`, with handler set `cset` and a new frame that holds `frame` (R209, R308). Vector words
replace the line that the fetch buffer held (R309). -/
def enterLevel (c : CoreId) (lvl : BitVec 4) (i : Nat) (cpl cset : BitVec 4) (pc : PC) (frame : List Word) (s : State) : State :=
  let s := tallyCore c 11 (saveLevel c i s)
  let k := s.core c
  let vec := decide (pc.toNat / 18 ≤ 28)
  s.setCore c { k with hr := { Regs.init with pc := pc }, level := lvl, cpl := cpl, cset := cset, niw := none, waiting := false, vwait := none,
                       fresh := false, badLine := none, skipBp := false, held := if vec then none else k.held,
                       ahead := if vec then none else k.ahead, quick := none,
                       base := k.sbh.opd, rbase := k.sbh.rtd, sbh := frame.foldl Bank.push k.sbh }

/-- The level's frame is discarded (R209). -/
def dropFrame (c : CoreId) (s : State) : State :=
  let k := s.core c
  s.setCore c { k with sbh := { k.sbh with opd := k.base, rtd := k.rbase } }

/-- The state of save set `i` returns (R316, R317): level, CPL, live bank, frame bases, registers and capability registers with the tags
the save set still holds; VALID clears and an open window closes. -/
def restoreLevel (c : CoreId) (i : Nat) (s : State) : State :=
  let k := s.core c
  let x := k.saveSet i
  let live := if x.level ≠ 0 then k.live
    else match c with
      | .moth => k.live
      | .sup => if 1 ≤ x.bank.toNat ∧ x.bank.toNat ≤ 4 then some x.bank.toNat else none
      | .seq _ => if 1 ≤ x.bank.toNat ∧ x.bank.toNat ≤ 4 then Tbl.get none x.bank.toNat k.resident else none
  let s := s.setCore c { k with level := x.level, cpl := x.cpl, cset := x.cset, base := x.base.toNat, rbase := x.rbase.toNat, live := live,
                                niw := none, quick := none, sv := Tbl.set SaveSet.init i { x with valid := false } k.sv }
  let s := match s.view c with
    | some v => s.setView c { v with regs := x.r }
    | none => s
  if x.level = 0 ∧ (s.liveKey c).isNone then s
  else (List.range 8).foldl (fun s r => s.setCapReg c r (Tbl.get Cap.null r x.caps)) s

/-- The save set of a level (Table 9.4). -/
def levelSet (lvl : BitVec 4) : Nat :=
  if lvl = 8 then 0 else if lvl = 9 then 8 else if lvl = 10 then 9 else if lvl = 12 then 10 else lvl.toNat

/-- The running level ends (R316): its frame is discarded and the interrupted level returns. -/
def leaveLevel (c : CoreId) (s : State) : State := restoreLevel c (levelSet (s.core c).level) (dropFrame c s)

/-- Is a debug monitor active on any core (R486)? -/
def State.monitors (s : State) : Bool := s.cores.any (fun e => !decide (e.2.dstate = 0))

/-- The watchdog pauses while a debug monitor is active, and reloads when the last one exits (R449). -/
def updatePause (s : State) : State :=
  let p := s.monitors && !s.on MOTH_WDG_CFG_DBG
  let was := s.on MOTH_WDG_STAT_PAUSED
  let s := s.setFld MOTH_WDG_STAT_PAUSED p.toNat
  if was ∧ !p ∧ !s.monitors then wdgReload s else s

/-- RETI (R236, R316, R415; R484 at monitor level). -/
def execReti (c : CoreId) (s : State) : Out :=
  issue c { plain := false, levels := [1, 2, 3, 4, 5, 6, 7, 9, 10, 12] } (fun _ s =>
    let l := (s.core c).level
    let s := tallyCore c 7 (s.setCore c (s.core c).issued)
    let s := leaveLevel c s
    let s := s.setCore c (s.core c).settle
    if l = 12 then updatePause (s.setCore c { s.core c with dstate := 0 })
    else match c with
      | .seq n => if 1 ≤ l.toNat ∧ l.toNat ≤ 7 then
          (match s.lsOfSeq n with
           | some t => popLevel t s
           | none => s)
        else s
      | _ => s) s

/-- RETT (R235, R236, R316): ( r s ) go from the discarded frame to the restored stack. -/
def execRett (c : CoreId) (s : State) : Out :=
  issue c { p := 2, plain := false, levels := [8] } (fun v s =>
    let s := leaveLevel c (tallyCore c 7 (s.setCore c (s.core c).issued))
    let s := match s.view c with
      | some w => s.setView c (w.eff 0 [v.cell 1, v.cell 0])
      | none => s
    s.setCore c (s.core c).settle) s

/-! ### No-interrupt windows (R237, R314, R315) -/

/-- NIWO: at a handler level with no window open and a budget other than 0, a window opens. -/
def execNiwo (c : CoreId) (s : State) : Out :=
  issue c { plain := false } (fun v s =>
    let k := s.core c
    let b := if k.level = 8 then k.trapBud else s.fld (SEQ_EXC_CFG_NIW_MAX (corePage c))
    let s := if k.level ≠ 0 ∧ k.niw.isNone ∧ 0 < b then s.setCore c { k with niw := some b } else s
    retire c v none s) s

/-- NIWC: an open window closes. -/
def execNiwc (c : CoreId) (s : State) : Out :=
  issue c { plain := false } (fun v s => retire c v none (s.setCore c { s.core c with niw := none })) s

/-- The event of a window expiry on core `c` (R315, Table 13.1), and of its core reset (R306). -/
def State.coreEvent (s : State) (c : CoreId) (odd : Nat) : Option Nat :=
  match c with
  | .seq n => (s.lsOfSeq n).map (fun t => 64 + 2 * t + odd)
  | .sup => some 4
  | .moth => some 7

def raiseCore (c : CoreId) (odd : Nat) (s : State) : State :=
  match s.coreEvent c odd with
  | some e => raise e s
  | none => s

/-- NIW_EXPIRY (R315): the budget of an open window is spent. -/
def niwExpiry (c : CoreId) (s : State) : State :=
  let k := s.core c
  if k.niw = some 0 then
    let pg := corePage c
    raiseCore c 1 (((s.setCore c { k with niw := none }).raiseBit (SEQ_EXC_STAT_NIWOVR pg)).addSat (SEQ_EXC_CNT_NIWOVR pg) 1)
  else s

/-! ### Other control instructions -/

/-- SYNCI (R239, R281, R290, R309): what was fetched is discarded, the vector shadow is copied, and the settings of SUP_CS_CFG apply. -/
def execSynci (c : CoreId) (s : State) : Out :=
  issue c { plain := false } (fun v s =>
    let s := retire c v none s
    if c = .moth then s
    else
      let k := s.core c
      s.setCore c { k with held := none, ahead := none, lineReq := none, badLine := none, quick := none, btb := [], loopBuf := [], vecBuf := k.vecShadow,
                           lcEn := s.on SUP_CS_CFG_LC_EN, btbEn := s.on SUP_CS_CFG_BTB_EN, dualEn := s.on SUP_CS_CFG_DUAL_EN }) s

/-- FENCE (R240): it waits until every earlier store and atomic operation has been granted. -/
def execFence (c : CoreId) (s : State) : Out :=
  issue c {} (fun v s =>
    if (s.core c).flight.any (fun f => !f.done && match f.kind with
      | .load _ _ | .cldc _ | .ldm _ | .split _ true _ _ => false
      | _ => true) then s
    else retire c v none s) s

/-- SEV n raises E(448 + n) (R257). -/
def execSev (c : CoreId) (n : BitVec 6) (s : State) : Out :=
  issue c { plain := false } (fun v s => raise (448 + n.toNat) (retire c v none s)) s

/-! ### Faults (R306, R310, R311, R337, R485) -/

/-- The vector of a fault class (Table 9.6). -/
def faultVector (cls : Nat) : Nat :=
  if cls = 6 then 8 else if cls = 3 then 9 else if cls = 2 then 10 else if cls = 1 then 11 else cls + 8 - (if 7 ≤ cls then 1 else 0)

/-- The cells of a fault frame (R311). -/
def FaultRec.frame (f : FaultRec) : List Word :=
  [f.addr.extractLsb' 0 16, f.addr.extractLsb' 16 16, (f.addr.extractLsb' 32 8).zeroExtend 16,
   BitVec.ofNat 16 (f.cause.toNat + f.cls.toNat * 16)]

/-- Entry to the double-fault level with `frame` (R306, Table 9.6). -/
def enterDouble (c : CoreId) (frame : List Word) (s : State) : State :=
  let pg := corePage c
  let s := (s.raiseBit (SEQ_EXC_STAT_DBLF pg)).addSat (SEQ_EXC_CNT_DBLF pg) 1
  enterLevel c 10 9 8 9 (8 * 17) frame s

/-- A step that a fault or an interrupt entry ends halts the core before the handler's first instruction (R483). -/
def stepEnds (c : CoreId) (was : Bool) (s : State) : State :=
  if was then s.setCore c { s.core c with stepping := false, after := none, haltReq := some (4, 0) } else s

/-- Is the core inside a debug step? -/
def Core.inStep (k : Core) : Bool := k.stepping || decide (k.after = some (4, 0))

/-- The fault `f` of core `c` is entered (Table 9.4, R306, R311, R337, R485); one of SB0 is a double fault (R208). The Bool says that the core is
to be reset. -/
def takeFault (c : CoreId) (f : FaultRec) (s : State) : Bool × State :=
  let k := s.core c
  let step := k.inStep
  if k.level = 12 then
    let s := dropFrame c (s.setCore c { k with fault := none, rep := none })
    (false, raise 384 (s.setCore c { s.core c with dstate := 2, dcause := 6, didx := 0 }))
  else if f.cls = 7 ∧ f.cause = 4 then
    (false, stepEnds c step (enterDouble c (if 32 < k.sbh.opd + 4 then [] else f.frame) s))
  else if k.level = 0 ∧ f.cls = 4 ∧ isSeq c = true then
    (false, stepEnds c step (parkLive c (if f.cause = 0 then 2 else 3) (s.setCore c { k with fault := none, rep := none })))
  else if k.level.toNat ≤ 8 then
    if 32 < k.sbh.opd + 4 then (false, stepEnds c step (enterDouble c [] s))
    else (false, stepEnds c step (enterLevel c 9 8 k.cpl 8 (BitVec.ofNat 22 (8 * faultVector f.cls.toNat)) f.frame s))
  else if k.level = 9 then
    if 32 < k.sbh.opd + 4 then (true, s) else (false, stepEnds c step (enterDouble c f.frame s))
  else (true, s)

/-- FAULT_ENTRY: the marked fault is taken once its instruction is the oldest (R265, R318). -/
def faultEntry (c : CoreId) (s : State) : Bool × State :=
  let k := s.core c
  match k.fault with
  | some f => if k.released ∧ (k.dstate = 0 ∨ k.dstate = 3) ∧ k.flight = [] then takeFault c f s else (false, s)
  | none => (false, s)

/-- The core reset of a sequencer, or of the Moth core, that a fault at double-fault level causes (R306, R428). -/
def crashCore (c : CoreId) (s : State) : State :=
  let pg := corePage c
  match c with
  | .moth =>
    let s := endPieces c (withdrawCore c (fun _ => true) s)
    let s := s.setCore c { (s.core c).afterReset with released := true }
    let x := s.ctxAt 0x8001
    let caps := Tbl.mapVal Cap.null (fun _ c => { c with tag := false }) x.caps
    let s := s.setCtxAt 0x8001 { x with r := Regs.init, bank := Bank.init, osc := 0, rsc := 0, caps := caps }
    let s := s.setTarget 33 { s.target 33 with stack := [] }
    raise 7 (((s.setReg (SEQ_EXC_STAT pg) 0).setReg (SEQ_EXC_CNT pg) 0).raiseBit (SEQ_EXC_STAT_CRST pg))
  | _ => (resetSeq c true s).raiseBit (SEQ_EXC_STAT_CRST pg)

/-! ### Interrupts (R285, R304, R318, R413 to R415, R420) -/

/-- Every supervisor context in WAIT is released by a delivery to the supervisor (R346). -/
def wakeSup (s : State) : State :=
  { s with ctxs := Tbl.mapVal Ctx.init (fun k x =>
      if 0x4000 < k ∧ k < 0x4005 ∧ x.state = .wait then { x with state := .ready, warm := false } else x) s.ctxs }

/-- Is core `c` changing its live context: one has left it and another is READY, or one was dispatched and has not issued (R332)? -/
def State.switching (s : State) (c : CoreId) : Bool :=
  let k := s.core c
  k.fresh || (decide (k.level = 0) && match c with
    | .seq n => k.live.isNone && (match s.lsOfSeq n with
      | some l => s.readySlots l ≠ []
      | none => false)
    | .sup => !decide (k.live = s.supBank)
    | .moth => false)

/-- May core `c` recognise a request now (R285, R319, R332, R343, R480, R483)? -/
def State.canRecognise (s : State) (c : CoreId) : Bool :=
  let k := s.core c
  k.released && decide (k.dstate = 0) && k.haltReq.isNone && k.rep.isNone && k.niw.isNone && k.need.isNone && !s.switching c && !s.held c &&
    (k.fault.isNone || !k.flight.isEmpty) && (!k.inStep || decide (bitsOf (Tbl.get 0 DBG_RUN_CTL k.dbg).toNat 9 1 = 1))

/-- INTERRUPT_RECOGNISE: the completion-order fault of the supervisor first, then the request line above CPL. -/
def interruptRecognise (c : CoreId) (s : State) : State :=
  if !s.canRecognise c then s
  else
    let k := s.core c
    let step := k.inStep
    if c = .sup ∧ k.orderFault ∧ k.level.toNat < 9 then
      let s := abandon c s
      let s := s.setCore c { s.core c with orderFault := false }
      (takeFault c (mkFault 9 0 0) s).2
    else match s.targetOf c with
      | none => s
      | some t =>
        let p := s.rp t
        if p ≤ k.cpl.toNat then s
        else
          let s := abandon c s
          let s := if c = .sup then wakeSup s else s
          let l := BitVec.ofNat 4 p
          let s := enterLevel c l p l l (BitVec.ofNat 22 (8 * p)) [] s
          let s := tally 9 t 0 1 (pushLevel t (BitVec.ofNat 3 p) s)
          let s := match c with
            | .seq _ =>
              let s := autoClaim t (BitVec.ofNat 3 p) s
              if s.on (EVC_TGT_MBOX_EN t) then scrLanded (t * 8192 + (8 * s.fld (EVC_TGT_MBOX_BASE t) + p) % 8192) s else s
            | _ => s
          stepEnds c step s

/-! ### Gates and TRAP (R312, R313) -/

/-- TRAP n (R235, R305, R312, R313): the two granules of its gate are read as pieces 0 and 1, under Table 3.5 in stream memory; it waits while one
has not arrived. -/
def execTrap (c : CoreId) (n : BitVec 8) (upsets : List Upset) (s : State) : Out :=
  issue c { p := 2, plain := false, levels := [0] } (fun v s =>
    let cap := (s.core c).gtc
    let fail := fun (f : FaultRec) (s : State) => markFault c f (endPieces c s)
    match s.check c cap (16 * n.toNat) { perms := [0, 2, 4], st := false, n := 16, align := 8 } true false with
    | some f => fail f s
    | none =>
      let w := cap.base + 16 * n.toNat
      match pieceRead c cap 0 w (strikeRows upsets s) with
      | (none, s) => s
      | (some (.ok stack tag), s) =>
        (match pieceRead c cap 1 (w + 8) s with
        | (none, s) => s
        | (some (.ok g _), s) =>
          let sel := bitsOf (granWord g 1).toNat 8 4
          if (granWord g 1).getLsbD 15 = false ∨ 5 < sel then fail (capFault 2 w) s
          else
            let s := retire c (v.eff 2 []) none (endPieces c s)
            let pc := (granWord g 1).extractLsb' 0 6 ++ granWord g 0
            let s := enterLevel c 8 0 0 (BitVec.ofNat 4 (10 + sel)) pc [v.cell 1, v.cell 0] s
            let s := s.setCapReg c 7 { bits := stack, tag := tag }
            s.setCore c { s.core c with trapBud := min (granWord g 2).toNat (s.fld (SEQ_EXC_CFG_NIW_MAX (corePage c))) }
        | (some _, s) => fail (mkFault 2 1 (w + 8)) s)
      | (some _, s) => fail (mkFault 2 1 w) s) s

/-! ### Debug halts (R480 to R485) -/

/-- A halt is requested of core `c` unless one already is or the core is halted (R480). -/
def requestHalt (c : CoreId) (cause : BitVec 3) (s : State) : State :=
  let k := s.core c
  if k.haltReq.isSome ∨ k.dstate = 2 ∨ !k.released then s else s.setCore c { k with haltReq := some (cause, 0) }

/-- HALT_ENTRY (R480, R481, R484): the monitor save area is written, and the core is halted, or enters monitor level with MODE 1. -/
def haltEntry (c : CoreId) (s : State) : State :=
  let k := s.core c
  match k.haltReq with
  | none => s
  | some (cause, idx) =>
    if !k.released ∨ k.dstate ≠ 0 ∨ k.niw.isSome ∨ k.need.isSome ∨ s.held c then s
    else
      let s := abandon c s
      let k := s.core c
      let s := s.setCore c { k with haltReq := none, after := none, stepping := false, fault := none, dcause := cause, didx := idx }
      let mode := bitsOf (Tbl.get 0 DBG_RUN_CTL k.dbg).toNat 8 1
      let s := if mode = 1 ∧ c ≠ .moth then
          if k.sbh.opd < 32 then
            let s := enterLevel c 12 10 8 k.cset (8 * 19) [cause.zeroExtend 16] s
            s.setCore c { s.core c with dstate := 3 }
          else
            let s := saveLevel c 10 s
            s.setCore c { s.core c with dstate := 2, dcause := 6, didx := 0 }
        else
          let s := saveLevel c 10 s
          s.setCore c { s.core c with dstate := 2 }
      updatePause (raise 384 s)

/-- RESUME and STEP (R483, R485): the state of the monitor save area returns; E385 is raised. -/
def resumeCore (c : CoreId) (step : Bool) (s : State) : State :=
  if (s.core c).dstate = 2 then
    let s := restoreLevel c 10 s
    let s := s.setCore c { s.core c with dstate := 0, haltReq := none, after := none, stepping := step, skipBp := true, rep := none }
    updatePause (raise 385 s)
  else s

/-! ### The save-set window (Table 9.5, R317, R321) -/

/-- Index 5 of a save set. -/
def SaveSet.ctlWord (x : SaveSet) : Nat :=
  x.level.toNat + x.bank.toNat * 16 + x.cpl.toNat * 128 + x.base.toNat * 2 ^ 11 + x.rbase.toNat * 2 ^ 16 + x.valid.toNat * 2 ^ 31

/-- Word `i` of a save set. -/
def SaveSet.word (x : SaveSet) (i : Nat) : Reg :=
  BitVec.ofNat 32 (
    if i = 0 then x.r.pc.toNat
    else if i = 1 then x.r.rc.toNat + x.r.fl.word.toNat % 16 * 65536
    else if i = 2 then x.r.lc.toNat
    else if i = 3 then x.r.ls.toNat
    else if i = 4 then x.r.le.toNat
    else if i = 5 then x.ctlWord
    else if i < 38 then ((Tbl.get Cap.null ((i - 6) / 4) x.caps).word ((i - 6) % 4)).toNat
    else if i = 38 then tagBits x.caps
    else 0)

/-- A window write of word `i` of a save set. -/
def SaveSet.setWord (x : SaveSet) (i : Nat) (v : Reg) : SaveSet :=
  if i = 0 then { x with r := { x.r with pc := v.extractLsb' 0 22 } }
  else if i = 1 then { x with r := { x.r with rc := v.extractLsb' 0 16, fl := Flags.ofWord (v.extractLsb' 16 16) } }
  else if i = 2 then { x with r := { x.r with lc := v.extractLsb' 0 16 } }
  else if i = 3 then { x with r := { x.r with ls := v.extractLsb' 0 22 } }
  else if i = 4 then { x with r := { x.r with le := v.extractLsb' 0 22 } }
  else if i = 5 then { x with level := v.extractLsb' 0 4, bank := v.extractLsb' 4 3, cpl := v.extractLsb' 7 4, base := v.extractLsb' 11 5,
                              rbase := v.extractLsb' 16 4 }
  else if i < 38 then
    { x with caps := Tbl.set Cap.null ((i - 6) / 4) ((Tbl.get Cap.null ((i - 6) / 4) x.caps).overwriteWord ((i - 6) % 4) v) x.caps }
  else x

/-- SEQ_SVW_DATA of core `c`: word INDEX of set SET. -/
def State.svwData (s : State) (c : CoreId) : Reg :=
  let k := s.core c
  let set := s.fld (SEQ_SVW_SEL_SET (corePage c))
  let i := s.fld (SEQ_SVW_SEL_INDEX (corePage c))
  let cap := fun (r : Nat) => Tbl.get Cap.null (8 * (set - 16) + r) k.cs
  if set ≤ 9 then (k.saveSet set).word i
  else if set = 15 then
    if 6 ≤ i ∧ i < 10 then k.gtc.word (i - 6) else if i = 38 then BitVec.ofNat 32 k.gtc.tag.toNat else 0
  else if 16 ≤ set then
    if 6 ≤ i ∧ i < 38 then (cap ((i - 6) / 4)).word ((i - 6) % 4)
    else if i = 38 then BitVec.ofNat 32 ((List.range 8).foldl (fun a r => if (cap r).tag then a + 2 ^ r else a) 0)
    else 0
  else 0

/-- A write of SEQ_SVW_DATA of core `c` (R321). -/
def svwWrite (c : CoreId) (v : Reg) (s : State) : State :=
  let k := s.core c
  let set := s.fld (SEQ_SVW_SEL_SET (corePage c))
  let i := s.fld (SEQ_SVW_SEL_INDEX (corePage c))
  if set ≤ 9 then s.setCore c { k with sv := Tbl.set SaveSet.init set ((k.saveSet set).setWord i v) k.sv }
  else if set = 15 then
    if 6 ≤ i ∧ i < 10 then s.setCore c { k with gtc := k.gtc.overwriteWord (i - 6) v } else s
  else if 16 ≤ set ∧ 6 ≤ i ∧ i < 38 then
    let j := 8 * (set - 16) + (i - 6) / 4
    s.setCore c { k with cs := Tbl.set Cap.null j ((Tbl.get Cap.null j k.cs).overwriteWord ((i - 6) % 4) v) k.cs }
  else s

/-! ### The mint path (R299 to R302, R340) -/

/-- The target SUP_MINT_TGT names, none where it does not exist in the build or KIND is reserved (ECAUSE 5). -/
def State.mintTarget (s : State) : Option MintTarget :=
  let t := s.fld SUP_MINT_TGT_CORE
  let kind := s.fld SUP_MINT_TGT_KIND
  let slot := s.fld SUP_MINT_TGT_SLOT
  let ok := decide (kind < 3) && (decide (t < s.build.lss) || decide (t = 32) || decide (t = 33)) &&
    (!decide (kind = 0) || decide (t < 32) || (decide (t = 32) && decide (1 ≤ slot) && decide (slot ≤ 4)) || (decide (t = 33) && decide (slot = 0)))
  if ok then some { core := s.coreOfTarget t, kind := kind, reg := s.fld SUP_MINT_TGT_REG, set := s.fld SUP_MINT_TGT_SET, slot := slot }
  else none

/-- The context key of a KIND 0 target. -/
def State.mintKey (s : State) (t : MintTarget) : Nat :=
  match t.core with
  | .seq n => ctxKey ((s.lsOfSeq n).getD 0) t.slot
  | .sup => 0x4000 + t.slot
  | .moth => 0x8001

/-- Has a handler interrupted the target context, so that its registers lie in a save set (R340)? -/
def State.mintBusy (s : State) (t : MintTarget) : Bool :=
  decide (t.kind = 0) && decide ((s.core t.core).level ≠ 0) && decide (s.liveKey t.core = some (s.mintKey t))

/-- The region of the words a capability covers for the target core, none where ECAUSE 1 holds; an empty one is judged by BASE. -/
def State.mintRegion (s : State) (c : CoreId) (base len : Nat) : Option Region :=
  let r := s.region c base
  let last := base + (if len = 0 then 0 else len - 1)
  if r = .none ∨ (isSeq c = true ∧ r = .regs) ∨ s.region c last ≠ r ∨ 2 ^ 40 ≤ last then none else some r

/-- The words a target register takes (R340, R302). -/
def mintWrite (t : MintTarget) (cap : Cap) (s : State) : State :=
  let k := s.core t.core
  if t.kind = 0 then
    let i := s.mintKey t
    s.setCtxAt i { s.ctxAt i with caps := Tbl.set Cap.null t.reg cap (s.ctxAt i).caps }
  else if t.kind = 1 then s.setCore t.core { k with cs := Tbl.set Cap.null (8 * t.set + t.reg) cap k.cs }
  else s.setCore t.core { k with gtc := cap }

/-- The refusal cause of R300 and R301 for capability `cap` into target `t`; 0 when the path completes. -/
def State.mintCause (s : State) (copy : Bool) (cap : Cap) : Option MintTarget → Nat
  | none => 5
  | some t =>
    let r := s.mintRegion t.core cap.base cap.length
    let sup := decide (t.core = .sup)
    let perm := cap.perm
    let priv := decide (bitsOf perm 10 1 = 1) || decide (bitsOf perm 8 1 = 1) || decide (s.region .sup cap.base = .regs)
    if s.mintBusy t then 5
    else if copy then if priv ∧ !sup then 2 else 0
    else if r.isNone then 1
    else if priv ∧ !sup then 2
    else if 2 ^ 11 ≤ perm ∨ cap.view = 3 ∨ (cap.skey ≠ 0 ∧ !cap.has 7) then 3
    else if s.build.lss ≤ cap.owner / 512 then 4
    else 0

/-- The capability the path builds from its registers (R300). -/
def State.mintCap (s : State) : Cap :=
  { bits := capBits (s.reg64 SUP_MINT_BASE_LO SUP_MINT_BASE_HI).toNat (s.reg SUP_MINT_LEN).toNat (s.fld SUP_MINT_ATTR_PERM)
      (s.fld SUP_MINT_ATTR_GROUP) (s.fld SUP_MINT_ATTR_VIEW) 0 (s.fld SUP_MINT_OWNER_OWNER) (s.fld SUP_MINT_ATTR_SKEY), tag := true }

/-- GO of the mint path, written by the supervisor core through a capability with PERM.MINT: BUSY until MINT_DONE (R299 to R302). In copy
mode the capability is register `src` of the context that wrote GO. -/
def mintGo (copy : Bool) (src : BitVec 3) (s : State) : State :=
  if s.on SUP_MINT_STAT_BUSY then s
  else
    let cap := if copy then s.capReg .sup src.toNat else s.mintCap
    let s := ((s.setFld SUP_MINT_CTL_MODE copy.toNat).setFld SUP_MINT_CTL_SRC src.toNat).raiseBit SUP_MINT_CTL_GO
    { s.raiseBit SUP_MINT_STAT_BUSY with mint := some { copy := copy, cap := cap, target := s.mintTarget } }

/-- MINT_DONE (R302). -/
def mintDone (s : State) : State :=
  match s.mint with
  | none => s
  | some j =>
    let e := s.mintCause j.copy j.cap j.target
    let s := { (s.clearFld SUP_MINT_STAT_BUSY).clearFld SUP_MINT_CTL_GO with mint := none }
    match j.target with
    | some t => if e = 0 then
        mintWrite t j.cap (((s.raiseBit SUP_MINT_STAT_DONE).clearFld SUP_MINT_STAT_ERR).setFld SUP_MINT_STAT_ECAUSE 0)
      else ((s.clearFld SUP_MINT_STAT_DONE).raiseBit SUP_MINT_STAT_ERR).setFld SUP_MINT_STAT_ECAUSE e
    | none => ((s.clearFld SUP_MINT_STAT_DONE).raiseBit SUP_MINT_STAT_ERR).setFld SUP_MINT_STAT_ECAUSE e

end Sys2Proof.Machine
end

