-- ==== Sys2Proof/Machine/Dbg.lean ====
section
/-! DEFINITION. Debug (chapter 16): the core-selected registers, run control, freeze and cross-triggers, the virtual terminals and the start
of debug-master accesses. The accesses themselves go through the register operations of their own file. -/

namespace Sys2Proof.Machine

/-! ### The selected core -/

/-- The core DBG_CORESEL names, none when the build does not have it (R5). -/
def State.selected (s : State) : Option CoreId :=
  let t := s.fld DBG_CORESEL_CORE
  if t < 32 ∧ s.build.lss ≤ t then none else some (s.coreOfTarget t)

/-- A register of which each core has its own copy. -/
def State.coreDbg (s : State) (c : CoreId) (off : Nat) : Reg := Tbl.get 0 off (s.core c).dbg

/-- A write of such a register. -/
def setCoreDbg (c : CoreId) (off : Nat) (v : Reg) (s : State) : State :=
  s.setCore c { s.core c with dbg := Tbl.set 0 off v (s.core c).dbg }

/-- DBG_RUN_STAT of a core: a halt requested and not yet taken reads as halting (1). -/
def State.runStat (s : State) (c : CoreId) : Reg :=
  let k := s.core c
  let st := if k.dstate = 0 ∧ k.haltReq.isSome then 1 else k.dstate.toNat
  BitVec.ofNat 32 (st + k.dcause.toNat * 16 + k.didx.toNat * 256)

/-- A core-selected register as the selected core has it. -/
def State.selRead (s : State) (off : Nat) : Reg :=
  match s.selected with
  | none => 0
  | some c =>
    if off = DBG_RUN_STAT then s.runStat c
    else if off = DBG_HALT_PC then ((s.core c).saveSet 10).r.pc.setWidth 32
    else if off = DBG_MSV_DATA then ((s.core c).saveSet 10).word (s.fld DBG_MSV_SEL_INDEX)
    else s.coreDbg c off

/-- Is it one of the registers of which each core has a copy? -/
def selRegister (off : Nat) : Bool :=
  decide (off = DBG_RUN_CTL) || decide (off = DBG_RUN_STAT) || decide (off = DBG_HALT_PC) || decide (off = DBG_MSV_DATA) ||
    (decide (DBG_BP 0 ≤ off) && decide (off ≤ DBG_BP 3)) || (decide (DBG_WP_LO_LO 0 ≤ off) && decide (off ≤ DBG_WP_CTL 0)) ||
    (decide (DBG_WP_LO_LO 1 ≤ off) && decide (off ≤ DBG_WP_CTL 1))

/-! ### Run control (R480 to R486) -/

/-- A write of DBG_RUN_CTL: MODE and STEP_IRQ, then HALT, RESUME or STEP. -/
def runControl (v : Reg) (s : State) : State :=
  match s.selected with
  | none => s
  | some c =>
    let s := setCoreDbg c DBG_RUN_CTL (v &&& 0x300) s
    let s := if v.getLsbD 0 then requestHalt c 1 s else s
    let s := if v.getLsbD 1 then resumeCore c false s else s
    if v.getLsbD 2 then resumeCore c true s else s

/-- A write of DBG_MSV_DATA: it takes effect while the core is halted (R482). -/
def msvWrite (v : Reg) (s : State) : State :=
  match s.selected with
  | none => s
  | some c =>
    let k := s.core c
    if k.dstate = 2 then
      s.setCore c { k with sv := Tbl.set SaveSet.init 10 ((k.saveSet 10).setWord (s.fld DBG_MSV_SEL_INDEX) v) k.sv }
    else s

/-- The writable bits of a core's breakpoint and watchpoint registers. -/
def selMask (off : Nat) : Reg :=
  if off ≤ DBG_BP 3 then 0x803FFFFF
  else if off = DBG_WP_LO_HI 0 ∨ off = DBG_WP_LO_HI 1 ∨ off = DBG_WP_HI_HI 0 ∨ off = DBG_WP_HI_HI 1 then 0xFF
  else if off = DBG_WP_CTL 0 ∨ off = DBG_WP_CTL 1 then 7 else 0xFFFFFFFF

/-- A DAP write of a core-selected register. -/
def selWrite (off : Nat) (v : Reg) (s : State) : State :=
  if off = DBG_RUN_CTL then runControl v s
  else if off = DBG_MSV_DATA then msvWrite v s
  else if off = DBG_RUN_STAT ∨ off = DBG_HALT_PC then s
  else match s.selected with
    | none => s
    | some c => setCoreDbg c off (v &&& selMask off) s

/-! ### Freeze and cross-trigger (R489 to R491) -/

/-- POD_FREEZE: DBG_FREEZE. -/
def podFreeze (mask : BitVec 16) (s : State) : State := s.setFld DBG_FREEZE_LP mask.toNat

/-- Does the cross-trigger name core `c`? -/
def State.xtrigNames (s : State) (c : CoreId) : Bool :=
  match c with
  | .sup => s.on DBG_XTRIG_CTL_SUP
  | .moth => s.on DBG_XTRIG_CTL_MOTH
  | .seq p => match s.lsOfSeq p with
    | some n => (s.reg DBG_XTRIG_CORE).getLsbD n
    | none => false

/-- A halt or monitor entry of core `c` with what it triggers (R491). -/
def haltWithTrigger (c : CoreId) (s : State) : State :=
  let s' := haltEntry c s
  let k := s'.core c
  if (s.core c).dstate = 0 ∧ k.dstate ≠ 0 ∧ (k.dcause = 2 ∨ k.dcause = 3) ∧ s.on DBG_XTRIG_CTL_EN ∧ s.xtrigNames c then
    { s' with dbg := { s'.dbg with trig := s'.dbg.trig ++ [c] } }
  else s'

/-- The cores the cross-trigger names. -/
def State.xtrigCores (s : State) : List CoreId :=
  ((List.range s.build.lss).filter (fun n => (s.reg DBG_XTRIG_CORE).getLsbD n)).map (fun n => CoreId.seq (s.seqOfLs n)) ++
    (if s.on DBG_XTRIG_CTL_SUP then [.sup] else []) ++ (if s.on DBG_XTRIG_CTL_MOTH then [.moth] else [])

/-- CROSS_TRIGGER: 2 PCLK after the halt of core `c`, the named Pods freeze and every named core has a halt requested. -/
def crossTrigger (c : CoreId) (s : State) : State :=
  if c ∈ s.dbg.trig then
    let s := { s with dbg := { s.dbg with trig := s.dbg.trig.erase c } }
    let s := s.setReg DBG_FREEZE (s.reg DBG_FREEZE ||| s.reg DBG_XTRIG_POD)
    s.xtrigCores.foldl (fun s d => requestHalt d 5 s) s
  else s

/-! ### Virtual terminals (R494) -/

def State.vtTx (s : State) (c : Nat) : List Byte := Tbl.get [] c s.dbg.tx
def State.vtRx (s : State) (c : Nat) : List Byte := Tbl.get [] c s.dbg.rx

/-- What a read of a FIFO returns: the oldest byte with VALID, or 0. -/
def vtHead : List Byte → Reg
  | [] => 0
  | b :: _ => b.setWidth 32 ||| 0x100

/-- A write of CDATA pushes into TX. -/
def vtCoreWrite (c : Nat) (v : Reg) (s : State) : State :=
  if 64 ≤ (s.vtTx c).length then s.raiseBit (DBG_VT_STAT_TXOVR c)
  else { s with dbg := { s.dbg with tx := Tbl.set [] c (s.vtTx c ++ [v.extractLsb' 0 8]) s.dbg.tx } }

/-- A read of CDATA pops RX; a quiet one pops nothing. -/
def vtCoreRead (c : Nat) (quiet : Bool) (s : State) : Reg × State :=
  (vtHead (s.vtRx c), if quiet then s else { s with dbg := { s.dbg with rx := Tbl.set [] c (s.vtRx c).tail s.dbg.rx } })

/-- A write of DDATA pushes into RX; E(386 + c) is raised when RX becomes non-empty. -/
def vtDebugWrite (c : Nat) (v : Reg) (s : State) : State :=
  let l := s.vtRx c
  if 64 ≤ l.length then s.raiseBit (DBG_VT_STAT_RXOVR c)
  else
    let s := { s with dbg := { s.dbg with rx := Tbl.set [] c (l ++ [v.extractLsb' 0 8]) s.dbg.rx } }
    if l = [] then raise (386 + c) s else s

/-- A read of DDATA pops TX; a quiet one, or one the DAP makes before authentication, pops nothing (R474). -/
def vtDebugRead (c : Nat) (quiet : Bool) (s : State) : Reg × State :=
  (vtHead (s.vtTx c), if quiet then s else { s with dbg := { s.dbg with tx := Tbl.set [] c (s.vtTx c).tail s.dbg.tx } })

/-- DBG_VTc_STAT: the counts, and the overflow bits that are held. -/
def State.vtStat (s : State) (c : Nat) : Reg :=
  s.reg (DBG_VT_STAT c) ||| BitVec.ofNat 32 ((s.vtTx c).length + (s.vtRx c).length * 256)

/-! ### The debug bus master (R474, R476, R479) -/

/-- A master access fails with a cause of Table 16.2, or a start is refused. -/
def masterFail (cause : Nat) (s : State) : State :=
  raise 391 (((s.clearFld DBG_MSTAT_BUSY).raiseBit DBG_MSTAT_ERR).setFld DBG_MSTAT_CAUSE cause)

/-- MADDR. -/
def State.masterAddr (s : State) : BitVec 40 := (s.reg64 DBG_MADDR_LO DBG_MADDR_HI).setWidth 40

/-- A start while GRANTED is 1: BUSY until MASTER_ACCESS_DONE; ignored while BUSY. -/
def masterStart (wr : Bool) (v : Reg) (s : State) : State :=
  if s.on DBG_MSTAT_BUSY then s
  else
    let s := if wr then s.setReg DBG_MDATA v else s
    { s.raiseBit DBG_MSTAT_BUSY with
      dbg := { s.dbg with mop := some { write := wr, addr := s.masterAddr, data := v, ctl := s.reg DBG_MCTL } } }

/-- The access succeeds: DONE, and MADDR advances by 2 when INC is 1. -/
def masterOk (o : MasterOp) (s : State) : State :=
  let s := withdraw (fun d => decide (d = .master)) ((s.clearFld DBG_MSTAT_BUSY).raiseBit DBG_MSTAT_DONE)
  let s := { s with dbg := { s.dbg with mop := none } }
  if o.ctl.getLsbD 1 then
    let a := s.masterAddr + 2
    (s.setReg DBG_MADDR_LO (a.extractLsb' 0 32)).setReg DBG_MADDR_HI ((a.extractLsb' 32 8).setWidth 32)
  else s

/-- The running access ends in failure. -/
def masterEnd (cause : Nat) (s : State) : State :=
  masterFail cause (withdraw (fun d => decide (d = .master)) { s with dbg := { s.dbg with mop := none } })

/-- Warm reset (R496): halts, monitor levels, DBG_FREEZE and a running master access end; DBG_CTL, breakpoints, watchpoints, cross-trigger
registers and terminals stay. -/
def dbgWarm (s : State) : State :=
  let s := { s with dbg := { s.dbg with trig := [] } }
  let s := (List.range 38).foldl (fun s k => s.setCoreAt k { s.coreAt k with dbg := Tbl.erase DBG_RUN_CTL (s.coreAt k).dbg }) s
  let s := [DBG_CORESEL, DBG_FREEZE, DBG_MADDR_LO, DBG_MADDR_HI, DBG_MDATA, DBG_MCTL, DBG_MSTAT, DBG_MSV_SEL].foldl (fun s r => s.setReg r 0) s
  let s := (List.range 4).foldl (fun s c => s.setReg (DBG_VT_STAT c) 0) s
  match s.dbg.mop with
  | none => s
  | some _ => masterEnd 9 s

end Sys2Proof.Machine
end

