-- ==== Sys2Proof/Machine/Hif.lean ====
section
/-! DEFINITION. The host interface (chapter 11): NPX responses, submission rings and the inbox, completion records and notifications, and
mailboxes. The register region behind the NPX target is served by the register operations of their own file. -/

namespace Sys2Proof.Machine

/-! ### The NPX target (R352 to R356) -/

/-- A beat with nothing to wait for. -/
def doneBeat (resp : BitVec 2) (data : BitVec 512) : NpxSlot := { wait := [], resp := resp, data := data, stamp := (0, 0, false) }

/-- The beats at the front of a read that can be sent, and the transaction without them (R353). -/
def sendBeats (t : NpxTxn) : List NpxSlot → Nat → List NpxOut × List NpxSlot × Nat
  | [], k => ([], [], k)
  | b :: bs, k =>
    if b.wait = [] then
      let data := if b.resp = 0 then b.data else 0
      let r := sendBeats t bs (k + 1)
      (.rd t.id k b.resp data b.stamp (decide (bs = [])) :: r.1, r.2.1, r.2.2)
    else ([], b :: bs, k)

/-- The one response of a write: ERR when any beat failed, else NOMAP when any was not decoded, else OK. -/
def writeResp (bs : List NpxSlot) : BitVec 2 :=
  if bs.any (fun b => decide (b.resp = 1)) then 1 else if bs.any (fun b => decide (b.resp = 2)) then 2 else 0

/-- What the transactions, in acceptance order, can send now: same-ID transactions of one direction complete in order (R353, R354). -/
def sendAll : List NpxTxn → List (BitVec 8 × Bool) → List NpxOut × List NpxTxn
  | [], _ => ([], [])
  | t :: ts, seen =>
    let blocked := (t.id, t.write) ∈ seen
    let (outs, rest) : List NpxOut × Option NpxTxn :=
      if blocked then ([], some t)
      else if t.write then
        if t.beats.all (fun b => decide (b.wait = [])) then ([.wr t.id (writeResp t.beats)], none) else ([], some t)
      else
        let r := sendBeats t t.beats t.sent
        (r.1, if r.2.1 = [] then none else some { t with beats := r.2.1, sent := r.2.2 })
    match rest with
    | none =>
      let r := sendAll ts seen
      (outs ++ r.1, r.2)
    | some t' =>
      let r := sendAll ts ((t.id, t.write) :: seen)
      (outs ++ r.1, t' :: r.2)

/-- Every response that can be sent is sent. -/
def npxFlush (s : State) : State :=
  let r := sendAll s.hif.txns []
  { s with hif := { s.hif with txns := r.2, sent := s.hif.sent ++ r.1 } }

/-- A target transaction with its beats is outstanding from now on (R352). -/
def npxOpen (id : BitVec 8) (write : Bool) (beats : List NpxSlot) (s : State) : State :=
  npxFlush { s with hif := { s.hif with
    txns := s.hif.txns ++ [{ no := s.hif.next, id := id, write := write, beats := beats, sent := 0 }], next := s.hif.next + 1 } }

/-- Beat `b` of transaction `t` changed by `f`; what can be sent is sent. -/
def npxBeat (t b : Nat) (f : NpxSlot → NpxSlot) (s : State) : State :=
  npxFlush { s with hif := { s.hif with txns := s.hif.txns.map (fun x =>
    if x.no = t then { x with beats := x.beats.mapIdx (fun i y => if i + x.sent = b then f y else y) } else x) } }

/-- Granule `q` of a read beat returns: its data, or none for an uncorrectable row, which makes the beat ERR (R56, R356). -/
def npxReadReturn (t b q : Nat) (d : Option Gran) (s : State) : State :=
  npxBeat t b (fun y => match d with
    | some d => { y with wait := y.wait.filter (fun x => decide (x ≠ q)),
                         data := BitVec.ofNat 512 (setBitsOf y.data.toNat (128 * q) 128 d.toNat) }
    | none => { y with wait := y.wait.filter (fun x => decide (x ≠ q)), resp := 1 }) s

/-- Granule `q` of a staging write beat is granted with result `r` (Tables 3.7 and 3.9, R354). -/
def npxWriteGranted (t b q : Nat) (r : MemRes) (s : State) : State :=
  let s := match r with
    | .capacity _ => s.raiseBit EPC_STAT_HOST_CAP
    | .conflict _ => s.raiseBit EPC_STAT_HOST_CONF
    | _ => s
  let bad := match r with
    | .ok .. => false
    | _ => true
  npxBeat t b (fun y => { y with wait := y.wait.filter (fun x => decide (x ≠ q)), resp := if bad then 1 else y.resp }) s

/-! ### Rings -/

def State.ring (s : State) (n : Nat) : Ring := Tbl.get Ring.init n s.hif.rings
def State.setRing (s : State) (n : Nat) (r : Ring) : State :=
  { s with hif := { s.hif with rings := Tbl.set Ring.init n r s.hif.rings } }

/-- Entries of ring `n`'s submission and completion arrays. -/
def State.sqLen (s : State) (n : Nat) : Nat := 2 ^ s.fld (HIF_RING_CFG_SQSIZE n)
def State.cqLen (s : State) (n : Nat) : Nat := 2 ^ s.fld (HIF_RING_CFG_CQSIZE n)

/-- Initiator transactions outstanding, with the messages that wait to be sent (R357). No transfer of HIF is longer than 256 B, so none is
split. -/
def State.initOut (s : State) : Nat :=
  (s.hif.queue.countP (fun r => r.out)) +
    (s.hif.rings.foldl (fun a e => a + e.2.stale + e.2.msgs.length + e.2.due.length + (e.2.fetch.any Fetch.out).toNat) 0)

/-- An initiator transaction is sent. -/
def initSend (o : List NpxOut) (s : State) : State :=
  let n := o.countP (fun x => match x with
    | .iwrite .. => true
    | _ => false)
  let s := portBytes 3 (64 * n) (tally 7 0 2 n s)
  { s with hif := { s.hif with sent := s.hif.sent ++ o } }

/-- A ring's DB_ERR. -/
def dbErr (n : Nat) (s : State) : State := s.raiseBit (HIF_RING_STAT_DB_ERR n)

/-- A write of HIF_DB_SQTAIL (R360, R370). -/
def doorbellTail (n : Nat) (v : Reg) (s : State) : State :=
  let t := bitsOf v.toNat 0 12
  if !s.on (HIF_RING_CFG_EN n) ∨ s.on (HIF_RING_BIND_EN n) ∨ s.sqLen n ≤ t then dbErr n s else s.setFld (HIF_DB_SQTAIL_TAIL n) t

/-- A write of HIF_DB_CQHEAD (R365). -/
def doorbellHead (n : Nat) (v : Reg) (s : State) : State :=
  let h := bitsOf v.toNat 0 12
  if !s.on (HIF_RING_CFG_EN n) ∨ s.cqLen n ≤ h then dbErr n s else s.setFld (HIF_DB_CQHEAD_HEAD n) h

/-- The writable fields of HIF_RINGn_CFG below EN, reserved encodings left out of the write (R14). -/
def ringFields (n : Nat) (w : Nat) (s : State) : State :=
  let sz := fun x => 2 ≤ x ∧ x ≤ 12
  let s := if sz (bitsOf w 1 4) then s.setFld (HIF_RING_CFG_SQSIZE n) (bitsOf w 1 4) else s
  let s := if sz (bitsOf w 5 4) then s.setFld (HIF_RING_CFG_CQSIZE n) (bitsOf w 5 4) else s
  let s := s.setFld (HIF_RING_CFG_QOS n) (bitsOf w 9 4)
  let s := if bitsOf w 13 2 = 3 then s else s.setFld (HIF_RING_CFG_NMODE n) (bitsOf w 13 2)
  s.setFld (HIF_RING_CFG_IRQLINE n) (bitsOf w 15 4)

/-- HIF_RINGn_CFG.EN set from 0 to 1 (R376). -/
def ringEnable (n : Nat) (w : Nat) (s : State) : State :=
  if s.on (HIF_RING_CFG_EN n) then s
  else
    let s := (ringFields n w s).raiseBit (HIF_RING_CFG_EN n)
    let s := ((s.setReg (HIF_RING_PTR n) 0).setReg (HIF_DB_SQTAIL n) 0).setReg (HIF_DB_CQHEAD n) 0
    let s := (s.clearFld (HIF_RING_STAT_STOPPED n)).clearFld (HIF_DB_IRQ_PEND n)
    s.setRing n { s.ring n with phase := true }

/-- Pending records that satisfy `p` are removed (R366); a write of one that is outstanding completes without effect. -/
def removeRecs (p : Rec → Bool) (s : State) : State :=
  let gone := s.hif.queue.filter p
  if gone = [] then s
  else
    let s := { s with hif := { s.hif with queue := s.hif.queue.filter (fun r => !p r) } }
    let s := gone.foldl (fun s r => if r.out then s.setRing r.ring { s.ring r.ring with stale := (s.ring r.ring).stale + 1 } else s) s
    s.raiseBit HIF_STAT_CANCELLED

/-- A DISCARD of group `g` removes every pending record of it (R366). -/
def hifDiscard (g : BitVec 6) (s : State) : State := removeRecs (fun r => decide (r.group = g)) s

/-! ### Descriptors and the inbox (R359 to R362) -/

def State.inboxLen (s : State) : Nat := 2 ^ s.fld HIF_INBOX_CFG_SIZE

/-- Inbox entries that are free and not promised to an outstanding read. -/
def State.inboxFree (s : State) : Nat :=
  let l := s.inboxLen
  let free := (s.fld HIF_INBOX_PTR_HEAD + l - s.fld HIF_INBOX_PTR_TAIL % l + l - 1) % l
  let held := s.hif.rings.foldl (fun a e => a + (match e.2.fetch with
    | some f => if f.drop then 0 else f.count
    | none => 0)) 0
  free - held

/-- Does ring `n` have a descriptor HIF can read now (R360, R361)? -/
def State.ringWants (s : State) (n : Nat) : Bool :=
  s.on (HIF_RING_CFG_EN n) && !s.on (HIF_RING_BIND_EN n) && !s.on (HIF_RING_STAT_STOPPED n) && (s.ring n).fetch.isNone &&
    !decide (s.fld (HIF_RING_PTR_SQ_HEAD n) = s.fld (HIF_DB_SQTAIL_TAIL n))

/-- DESCRIPTOR_FETCH: the next ring in round-robin order has its descriptors read (R360). -/
def descriptorFetch (s : State) : State :=
  if !s.on HIF_CTL_EN ∨ s.on HIF_STAT_INBOX_ERR ∨ s.inboxFree = 0 ∨ 128 ≤ s.initOut then s
  else match firstBelow (fun i => s.ringWants ((s.hif.last + 1 + i) % 64)) 64 with
    | none => s
    | some i =>
      let n := (s.hif.last + 1 + i) % 64
      let len := s.sqLen n
      let head := s.fld (HIF_RING_PTR_SQ_HEAD n)
      let pend := (s.fld (HIF_DB_SQTAIL_TAIL n) + len - head) % len
      let k := min (min 4 pend) (min (len - head) s.inboxFree)
      let base := (s.reg64 (HIF_RING_SQBASE_LO n) (HIF_RING_SQBASE_HI n)).toNat / 64 * 64
      let qos := BitVec.ofNat 4 (s.fld (HIF_RING_CFG_QOS n))
      let s := s.setRing n { s.ring n with fetch := some { count := k, out := true, drop := false } }
      let s := { s with hif := { s.hif with last := n } }
      initSend [.iread (BitVec.ofNat 8 n) (BitVec.ofNat 64 (base + 64 * head)) (64 * k) qos] s

/-- Bytes 60 to 63 of a descriptor as HIF writes them (R359, Table 11.2). -/
def stampDesc (d : BitVec 512) (n slot : Nat) : BitVec 512 :=
  BitVec.ofNat 512 (setBitsOf d.toNat 480 32 (n % 256 + (slot % 65536) * 65536))

/-- A record joins the pending queue. -/
def queueRec (r : Rec) (s : State) : State := { s with hif := { s.hif with queue := s.hif.queue ++ [r], rels := s.hif.rels + 1 } }

/-- A record that HIF generates for a descriptor with a bad FMT (R359). -/
def hifRecord (n : Nat) (tag : BitVec 64) (s : State) : State :=
  queueRec { ring := n, group := 0, hifrec := true, tag := tag, status := 1, elems := 0, detail := 0, stamp := none,
             rel := some s.hif.rels, batch := s.hif.rels, skip := false, out := false, landed := false } s

/-- The access that writes granule `q` of the inbox entry at granule `g` (R362). -/
def inboxAccess (g q : Nat) (d : Gran) : Access :=
  { dest := .inbox q, port := 0, gran := g + q, view := 0, group := 0, owner := 0x8000, kind := .write d 0xFFFF false }

/-- The four granules of an entry written at granule `g`: whether they all landed, none while one of them waits. An entry beyond the build's
stream memory fails. -/
def depositEntry (g : Nat) (d : BitVec 512) (us : List Upset) (s : State) : Option Bool × State :=
  if s.build.granules < g + 4 then (some false, s)
  else
    match askAll ((List.range 4).map (fun q => inboxAccess g q (d.extractLsb' (128 * q) 128))) us s with
    | (none, s) => (none, s)
    | (some rs, s) => (some (rs.all MemRes.good), withdraw (fun d => match d with
        | .inbox _ => true
        | _ => false) s)

/-- The descriptors that ring `n` has read, in ring order (R359, R360, R362): those left, where an entry waits for its accesses. -/
def depositAll (n : Nat) (us : List Upset) : List (BitVec 512) → State → List (BitVec 512) × State
  | [], s => ([], s)
  | d :: ds, s =>
    let slot := s.fld (HIF_RING_PTR_SQ_HEAD n)
    let next := fun (s : State) =>
      let s := s.setFld (HIF_RING_PTR_SQ_HEAD n) ((slot + 1) % s.sqLen n)
      s.setRing n { s.ring n with fetch := (s.ring n).fetch.map (fun f => { f with count := f.count - 1 }) }
    if d.extractLsb' 64 8 ≠ 1 then depositAll n us ds (next (hifRecord n (d.extractLsb' 0 64) s))
    else
      let t := s.fld HIF_INBOX_PTR_TAIL
      let base := s.fld HIF_INBOX_CFG_BASE / 4 * 4
      match depositEntry (base + 4 * t) (stampDesc d n slot) us s with
      | (none, s) => (d :: ds, s)
      | (some true, s) => depositAll n us ds (next (tally 7 0 3 1 s |>.setFld HIF_INBOX_PTR_TAIL ((t + 1) % s.inboxLen)))
      | (some false, s) => ([], s.raiseBit HIF_STAT_INBOX_ERR)

/-- The descriptors read and not deposited yet, ring after ring: the ring whose descriptors have all gone in, or met an error, raises
E(240 + n) (R360). -/
def depositRings (us : List Upset) : List (Nat × List (BitVec 512)) → State → State
  | [], s => { s with hif := { s.hif with inbox := [] } }
  | (n, ds) :: rest, s =>
    match depositAll n us ds s with
    | ([], s) => depositRings us rest (raise (240 + n) (s.setRing n { s.ring n with fetch := none }))
    | (left, s) => { s with hif := { s.hif with inbox := (n, left) :: rest } }

/-- HIF goes on with the inbox. -/
def depositGo (us : List Upset) (s : State) : State := depositRings us s.hif.inbox s

/-- DESCRIPTOR_READ_DONE (R360, R361). -/
def descriptorReadDone (n : Nat) (beats : List RdBeat) (upsets : List Upset) (s : State) : State :=
  match (s.ring n).fetch with
  | none => s
  | some f =>
    if !f.out then s
    else if f.drop then s.setRing n { s.ring n with fetch := none }
    else if beats.length ≠ f.count then s
    else
      let s := portBytes 2 (64 * beats.length) (tally 7 0 2 beats.length s)
      if beats.any (fun b => !decide (b.resp = 0)) then
        let s := s.setRing n { s.ring n with fetch := none }
        raise (240 + n) ((s.raiseBit (HIF_RING_STAT_FETCH_ERR n)).raiseBit (HIF_RING_STAT_STOPPED n))
      else
        let s := s.setRing n { s.ring n with fetch := some { f with out := false } }
        depositGo upsets { s with hif := { s.hif with inbox := s.hif.inbox ++ [(n, beats.map RdBeat.data)] } }

/-- HIF_RINGn_CFG.EN cleared (R366, R376): what the ring has read and not deposited is lost, and the ring behind it goes on. -/
def ringDisable (n : Nat) (s : State) : State :=
  if s.on (HIF_RING_CFG_EN n) then
    let s := s.clearFld (HIF_RING_CFG_EN n)
    let first := decide (s.hif.inbox.head?.map Prod.fst = some n)
    let f := (s.ring n).fetch.bind (fun f => if f.out then some { f with drop := true } else none)
    let s := s.setRing n { s.ring n with fetch := f, due := [] }
    let s := { s with hif := { s.hif with inbox := s.hif.inbox.filter (fun x => decide (x.1 ≠ n)) } }
    let s := removeRecs (fun r => decide (r.ring = n)) s
    if first then depositGo [] (withdraw (fun d => match d with
      | .inbox _ => true
      | _ => false) s) else s
  else s

/-! ### Completion records (R363 to R367) -/

/-- A post (R363). -/
def hifPost (v : Reg) (s : State) : State :=
  let w := v.toNat
  let s := ((s.setFld HIF_POST_CTL_RING (bitsOf w 0 6)).setFld HIF_POST_CTL_GROUP (bitsOf w 8 6)).setFld HIF_POST_CTL_IMM (bitsOf w 16 1)
  let n := bitsOf w 0 6
  if 1024 ≤ s.hif.queue.length ∨ !s.on (HIF_RING_CFG_EN n) then s.raiseBit HIF_STAT_POST_FULL
  else
    let imm := bitsOf w 16 1 = 1
    queueRec { ring := n, group := BitVec.ofNat 6 (bitsOf w 8 6), hifrec := false, tag := s.reg (HIF_POST 1) ++ s.reg (HIF_POST 0),
               status := (s.reg (HIF_POST 3)).extractLsb' 16 16, elems := s.reg (HIF_POST 4), detail := s.reg (HIF_POST 5), stamp := none,
               rel := if imm then some s.hif.rels else none, batch := s.hif.rels, skip := s.epc.flip.isSome, out := false, landed := false } s

/-- The release of flip `f`: pending records of its groups, posted before its cycle 0, are released in posting order (R364, R365). -/
def hifRelease (f : Flip) (s : State) : State :=
  let q := s.hif.queue.mapIdx (fun i r =>
    if r.rel.isNone ∧ !r.skip ∧ f.set.getLsbD r.group.toNat then
      { r with rel := some (s.hif.rels + i), batch := s.hif.rels, stamp := some ((s.group r.group.toNat).gepoch, f.tb) }
    else { r with skip := false })
  { s with hif := { s.hif with queue := q, rels := s.hif.rels + s.hif.queue.length + 1 } }

/-- The record ring `n` writes next: the first released one not being written. -/
def State.nextRec (s : State) (n : Nat) : Option Rec :=
  (s.hif.queue.filter (fun r => decide (r.ring = n) && r.rel.isSome && !r.out && !r.landed)).foldl (fun w r => match w with
    | none => some r
    | some x => if r.rel.getD 0 < x.rel.getD 0 then some r else some x) none

/-- Is the completion array of ring `n` full (R365)? -/
def State.cqFull (s : State) (n : Nat) : Bool :=
  decide ((s.fld (HIF_RING_PTR_CQ_TAIL n) + 1) % s.cqLen n = s.fld (HIF_DB_CQHEAD_HEAD n))

/-- HIF_RINGn_STAT.CQ_FULL: released records are held. -/
def State.cqHeld (s : State) (n : Nat) : Bool := (s.nextRec n).isSome && s.cqFull n

/-- The bytes of a record (Table 11.3). -/
def Rec.bytes (r : Rec) (epoch : BitVec 32) (tb : BitVec 64) (phase : Bool) : BitVec 256 :=
  BitVec.ofNat 256 (r.tag.toNat + epoch.toNat * 2 ^ 64 + (r.group.toNat + r.hifrec.toNat * 64 + phase.toNat * 128) * 2 ^ 96
    + r.status.toNat * 2 ^ 112 + r.elems.toNat * 2 ^ 128 + r.detail.toNat * 2 ^ 160 + tb.toNat * 2 ^ 192)

/-- COMPLETION_RECORD_WRITE of ring `n` (R365). -/
def recordWrite (n : Nat) (s : State) : State :=
  match s.nextRec n with
  | none => s
  | some r =>
    if !s.on HIF_CTL_EN ∨ !s.on (HIF_RING_CFG_EN n) ∨ s.on (HIF_RING_STAT_STOPPED n) ∨ s.cqFull n ∨ 128 ≤ s.initOut then s
    else
      let tail := s.fld (HIF_RING_PTR_CQ_TAIL n)
      let (epoch, tb) := r.stamp.getD ((s.group r.group.toNat).gepoch, s.clk.tb)
      let base := (s.reg64 (HIF_RING_CQBASE_LO n) (HIF_RING_CQBASE_HI n)).toNat / 32 * 32
      let out : NpxOut := .iwrite (BitVec.ofNat 8 n) (BitVec.ofNat 64 (base + 32 * tail)) 32 (r.bytes epoch tb (s.ring n).phase)
        (BitVec.ofNat 4 (s.fld (HIF_RING_CFG_QOS n)))
      let t' := (tail + 1) % s.cqLen n
      let s := s.setFld (HIF_RING_PTR_CQ_TAIL n) t'
      let s := if t' = 0 then s.setRing n { s.ring n with phase := !(s.ring n).phase } else s
      let s := { s with hif := { s.hif with queue := s.hif.queue.map (fun x => if x.rel = r.rel ∧ x.ring = n then { x with out := true } else x) } }
      initSend [out] s

/-- The records of batch `k` of ring `n` that have landed leave the queue. -/
def retireBatch (n k : Nat) (s : State) : State :=
  { s with hif := { s.hif with queue := s.hif.queue.filter (fun y => !(decide (y.ring = n) && decide (y.batch = k) && y.landed)) } }

/-- Ring `n` is notified of batch `k` (R367): with NMODE MSG its records stay pending until the message returns OK. -/
def notify (n k : Nat) (s : State) : State :=
  let m := s.fld (HIF_RING_CFG_NMODE n)
  if m = 2 then
    let a := (s.reg64 (HIF_RING_MSGADDR_LO n) (HIF_RING_MSGADDR_HI n)).toNat / 4 * 4
    let s := s.setRing n { s.ring n with msgs := (s.ring n).msgs ++ [k] }
    initSend [.iwrite (BitVec.ofNat 8 (0x80 + n)) (BitVec.ofNat 64 a) 4 ((s.reg (HIF_RING_MSGDATA n)).zeroExtend 256)
      (BitVec.ofNat 4 (s.fld (HIF_RING_CFG_QOS n)))] s
  else retireBatch n k (if m = 1 then s.raiseBit (HIF_DB_IRQ_PEND n) else s)

/-- The notifications of ring `n` that wait are made, while HIF_CTL.EN is 1 (R560). -/
def notifyDue (n : Nat) (s : State) : State :=
  if s.on HIF_CTL_EN then (s.ring n).due.foldl (fun s k => notify n k s) (s.setRing n { s.ring n with due := [] }) else s

/-- HIF_CTL.EN set from 0 to 1 (R375). -/
def hifEnable (s : State) : State :=
  if s.on HIF_CTL_EN then s
  else
    let s := (s.raiseBit HIF_CTL_EN).setReg HIF_INBOX_PTR 0
    (Tbl.keys s.hif.rings).foldl (fun s n => notifyDue n s) s

/-- The ring stops: a record write or a message failed (R367). -/
def ringFails (n : Nat) (s : State) : State := (s.raiseBit (HIF_RING_STAT_WRITE_ERR n)).raiseBit (HIF_RING_STAT_STOPPED n)

/-- The oldest record of ring `n` whose write is outstanding. -/
def State.oldestOut (s : State) (n : Nat) : Option Rec :=
  (s.hif.queue.filter (fun x => decide (x.ring = n) && x.out)).foldl (fun (w : Option Rec) x => match w with
    | none => some x
    | some y => if x.rel.getD 0 < y.rel.getD 0 then some x else some y) none

/-- The record `x` of ring `n` with its write ended: landed or not. -/
def recEnds (n : Nat) (x : Rec) (ok : Bool) (s : State) : State :=
  { s with hif := { s.hif with queue := s.hif.queue.map (fun y =>
    if y.ring = n ∧ y.rel = x.rel then { y with out := false, landed := ok } else y) } }

/-- A record write of ring `n` ends with `resp`: the ring is notified once every record of the batch has landed; an error stops the ring and the
record stays pending (R367). -/
def recordEnd (n : Nat) (resp : BitVec 2) (s : State) : State :=
  let r := s.ring n
  if 0 < r.stale then s.setRing n { r with stale := r.stale - 1 }
  else match s.oldestOut n with
    | none => s
    | some x =>
      if resp ≠ 0 then ringFails n (recEnds n x false s)
      else
        let s := tally 7 0 4 1 (recEnds n x true s)
        if s.hif.queue.any (fun y => decide (y.ring = n) && decide (y.batch = x.batch) && y.rel.isSome && !y.landed) then s
        else notifyDue n (s.setRing n { s.ring n with due := (s.ring n).due ++ [x.batch] })

/-- The oldest message of ring `n` ends with `resp` (R367). -/
def messageEnd (n : Nat) (resp : BitVec 2) (s : State) : State :=
  match (s.ring n).msgs with
  | [] => s
  | k :: ks =>
    let s := s.setRing n { s.ring n with msgs := ks }
    if resp = 0 then retireBatch n k s else if s.on (HIF_RING_CFG_EN n) then ringFails n s else s

/-- RECORD_WRITE_RESPONSE to initiator ID `id`: the oldest record write of ring `id`, or the oldest message of ring `id - 0x80`, completes (R357,
R367). -/
def recordResponse (id : Nat) (resp : BitVec 2) (s : State) : State :=
  if id < 64 then recordEnd id resp s else if 0x80 ≤ id ∧ id < 0xC0 then messageEnd (id - 0x80) resp s else s

/-- HOST_IRQ[k] (R367). -/
def State.hostIrq (s : State) (k : Nat) : Bool :=
  (List.range 64).any (fun n => s.on (HIF_DB_IRQ_PEND n) && decide (s.fld (HIF_RING_CFG_IRQLINE n) = k))

/-! ### Bound rings (R368 to R370) -/

/-- A mailbox granule written whole, its tag cleared, and what waits on it woken. -/
def mailWrite (g : Nat) (d : Gran) (s : State) : State := scrLanded g (s.setScr g d 0xFFFF false)

/-- A write of one beat to HIF_DB_INLINE at page offset 0x040 (R368, R369): whether it is accepted, and the state after it. -/
def inlineBeat (n : Nat) (b : NpxBeat) (s : State) : Bool × State :=
  let ls := s.fld (HIF_RING_BIND_LS n)
  if !s.on (HIF_RING_BIND_EN n) ∨ b.be ≠ 0xFFFFFFFFFFFFFFFF ∨ b.data.extractLsb' 64 8 ≠ 1 ∨ s.build.lss ≤ ls then
    (false, s.raiseBit (HIF_RING_STAT_INLINE_ERR n))
  else
    let d := stampDesc b.data n (s.ring n).inl.toNat
    let g := ls * 8192 + s.fld (HIF_RING_BIND_MBOX n) / 4 * 4
    let put := fun (q : Nat) (s : State) => mailWrite (g + q) (d.extractLsb' (128 * q) 128) s
    let s := put 0 (put 3 (put 2 (put 1 s)))
    (true, raise (240 + n) (s.setRing n { s.ring n with inl := (s.ring n).inl + 1 }))

/-! ### Reset (R377) -/

/-- Warm reset of the host interface. -/
def hifWarm (s : State) : State :=
  let close := fun (t : NpxTxn) => { t with beats := t.beats.map (fun b => if t.write ∨ b.wait ≠ [] then { b with wait := [], resp := 1 } else b) }
  let s := npxFlush { s with hif := { s.hif with txns := s.hif.txns.map close } }
  let s := (List.range 64).foldl (fun s n =>
    let r := s.ring n
    let outs := s.hif.queue.countP (fun x => decide (x.ring = n) && x.out)
    let f := r.fetch.bind (fun f => if f.out then some { f with drop := true } else none)
    let s := s.setRing n { Ring.init with fetch := f, stale := r.stale + outs, msgs := r.msgs }
    let s := ((s.clearFld (HIF_RING_CFG_EN n)).setReg (HIF_RING_PTR n) 0).setReg (HIF_RING_STAT n) 0
    ((s.setReg (HIF_DB_SQTAIL n) 0).setReg (HIF_DB_CQHEAD n) 0).setReg (HIF_DB_IRQ n) 0) s
  let s := ((s.setReg HIF_CTL 0).setReg HIF_STAT 0).setReg HIF_INBOX_PTR 0
  let s := (List.range 8).foldl (fun s m => s.setReg (HIF_POST m) 0) (s.setReg HIF_POST_CTL 0)
  { s with hif := { s.hif with queue := [], last := 63, inbox := [], casts := [] } }

end Sys2Proof.Machine
end

