-- ==== Sys2Proof/Machine/Wian.lean ====
section
/-! DEFINITION. The Wian fabric (chapter 12): frames and the link layer, link states and authentication, discovery and routes, time
synchronisation, peer accesses and the transfer channels. -/

namespace Sys2Proof

/-! ### Frames (Tables 12.1 and 12.2) -/

def Frame.fld (f : Frame) (lo w : Nat) : Nat := bitsOf f.hdr.toNat lo w
def Frame.put (f : Frame) (lo w v : Nat) : Frame := { f with hdr := BitVec.ofNat 224 (setBitsOf f.hdr.toNat lo w v) }

def Frame.type (f : Frame) : Nat := f.fld 0 4
def Frame.vc (f : Frame) : Nat := f.fld 4 2
/-- Granules of a WR, RD or RDR frame: LEN + 1. -/
def Frame.n (f : Frame) : Nat := f.fld 8 4 + 1
def Frame.status (f : Frame) : Nat := f.fld 12 4
def Frame.dst (f : Frame) : Nat := f.fld 16 12
def Frame.src (f : Frame) : Nat := f.fld 32 12
def Frame.tag (f : Frame) : Nat := f.fld 48 8
def Frame.tick (f : Frame) : Nat := f.fld 56 8
def Frame.gran (f : Frame) : Nat := f.fld 64 23
def Frame.seq (f : Frame) : Nat := f.fld 160 16

/-- Flits of a frame: its header and two granules to a flit, with the tag flit when the link encrypts (R380, R528). -/
def Frame.flits (f : Frame) (enc : Bool) : Nat := 1 + (f.pay.length + 1) / 2 + (if enc ∧ f.type ≠ 0xC then 1 else 0)

/-- The VC of each type, none for a reserved type. -/
def vcOfType (t : Nat) : Option Nat :=
  if t = 1 ∨ t = 3 then some 0 else if t = 2 ∨ t = 4 then some 1 else if 8 ≤ t ∧ t ≤ 0xD then some 2 else none

/-- Granules in the payload of a frame: a WR or RDR carries LEN + 1, in whole flits; a CAPX of step 1 or 2 one flit. -/
def Frame.payGrans (f : Frame) : Nat :=
  if f.type = 1 ∨ f.type = 4 then (f.n + 1) / 2 * 2
  else if f.type = 0xD ∧ (f.fld 184 2 = 1 ∨ f.fld 184 2 = 2) then 2
  else 0

/-- The unused bits of a control frame's body are 0, and its fields hold no reserved value (Table 12.2, R381, R527). -/
def Frame.controlOk (f : Frame) : Bool :=
  let t := f.type
  (!decide (t = 9) || (decide (f.fld 144 16 = 0) && decide (f.fld 176 32 = 0))) &&
    (!decide (t = 0xB) || (decide (f.fld 208 8 = 0) && decide (f.fld 216 8 < 2))) &&
    (!decide (t = 0xC) || (decide (f.fld 136 24 = 0) && decide (f.fld 160 64 = 0))) &&
    (!decide (t = 0xD) || (decide (f.fld 176 2 < 3) && decide (f.fld 184 2 < 3) && decide (f.fld 186 38 = 0)))

/-- The field check of R381: TYPE, VC, reserved bits, LEN, STATUS, the payload, the 16-granule boundary and unused bits of BODY. -/
def Frame.ok (f : Frame) : Bool :=
  let t := f.type
  let data := decide (1 ≤ t) && decide (t ≤ 4)
  let resp := decide (t = 2) || decide (t = 4)
  f.controlOk && decide (vcOfType t = some f.vc) && decide (f.fld 6 2 = 0) && decide (f.fld 28 4 = 0) && decide (f.fld 44 4 = 0) &&
    (decide (t = 1) || decide (t = 3) || decide (t = 4) || decide (f.fld 8 4 = 0)) &&
    (if resp then decide (f.status < 10) else decide (f.status = 0)) &&
    decide (f.pay.length = f.payGrans) &&
    (!(decide (t = 1) || decide (t = 3)) || (decide (f.gran % 16 + f.n ≤ 16) && decide (f.fld 87 73 = 0) && decide (f.fld 176 48 = 0))) &&
    (!decide (t = 2) || (decide (f.fld 68 92 = 0) && decide (f.fld 176 48 = 0))) &&
    (!decide (t = 4) || (decide (f.fld 68 28 = 0) && decide (f.fld 135 25 = 0) && decide (f.fld 176 48 = 0))) &&
    (data || decide (t = 8) || (decide (f.tag = 0) && decide (f.tick = 0)))

end Sys2Proof

namespace Sys2Proof.Machine

/-- A header: type, LEN field, status, destination, source, tag, tick, and the body as a number from byte 8 on. -/
def mkFrame (t len status dst src tag tick body : Nat) (pay : List Gran) : Frame :=
  { hdr := BitVec.ofNat 224 (t + ((vcOfType t).getD 2) * 2 ^ 4 + len * 2 ^ 8 + status * 2 ^ 12 + dst * 2 ^ 16 + src * 2 ^ 32
      + tag * 2 ^ 48 + tick * 2 ^ 56 + body * 2 ^ 64),
    pay := pay }

/-! ### Links -/

namespace State

def wlink (s : State) (l : Nat) : WLink := Tbl.get WLink.init l s.wian.links
def setWlink (s : State) (l : Nat) (v : WLink) : State :=
  { s with wian := { s.wian with links := Tbl.set WLink.init l v s.wian.links } }
def lstate (s : State) (l : Nat) : Nat := s.fld (WIAN_LINK_STAT_STATE l)
def linkUp (s : State) (l : Nat) : Bool := decide (s.lstate l = 3)
def ownAddr (s : State) : Nat := s.fld WIAN_ID_ADDR

end State

def Flits.get (f : Flits) (vc : Nat) : Nat := if vc = 0 then f.vc0 else if vc = 1 then f.vc1 else f.vc2
def Flits.set (f : Flits) (vc n : Nat) : Flits :=
  if vc = 0 then { f with vc0 := n } else if vc = 1 then { f with vc1 := n } else { f with vc2 := n }

/-- The buffers of R382. -/
def Flits.full : Flits := ⟨8192, 8192, 64⟩

/-- A frame waits for its credits on link `l`. -/
def linkQueue (l : Nat) (f : Frame) (s : State) : State :=
  let k := s.wlink l
  s.setWlink l { k with txq := k.txq ++ [f] }

/-- The flits of a received frame leave its buffer: one credit each is returned (R382). -/
def freeFlits (l : Nat) (f : Frame) (s : State) : State :=
  let k := s.wlink l
  s.setWlink l { k with freed := k.freed.set f.vc (k.freed.get f.vc + f.flits k.enc) }

/-- A link changes STATE: E(220 + n) (Table 12.6). -/
def setLinkState (l st : Nat) (s : State) : State :=
  let s := s.setFld (WIAN_LINK_STAT_STATE l) st
  raise (220 + l) (s.setWlink l { s.wlink l with since := s.clk.tb })

/-- SYNC takes a new value; a change raises E225 (R396). -/
def setSync (v : Nat) (s : State) : State :=
  if s.fld WIAN_STAT_SYNC = v then s else raise 225 (s.setFld WIAN_STAT_SYNC v)

/-! ### Routes (R389, R390) -/

/-- The route entry of destination `d`. -/
def State.routeOf (s : State) (d : Nat) : Nat :=
  match Tbl.get none d s.wian.rt with
  | some p => p.toNat
  | none => if d < s.wian.rtN then s.wian.rtDef.toNat else 15

/-- A write of WIAN_RT_DATA. -/
def routeWrite (d : Nat) (p : Nat) (s : State) : State :=
  { s with wian := { s.wian with rt := Tbl.set none d (some (BitVec.ofNat 4 p)) s.wian.rt } }

/-- Does an entry lead anywhere (0–3 a link, 4 LOCAL)? -/
def routed (p : Nat) : Bool := decide (p ≤ 4)

/-! ### Transfer channels (R401 to R403) -/

def State.chan (s : State) (c : Nat) : TxChan := Tbl.get TxChan.init c s.wian.chans
def State.setChan (s : State) (c : Nat) (v : TxChan) : State :=
  { s with wian := { s.wian with chans := Tbl.set TxChan.init c v s.wian.chans } }

/-- LOC and REM of channel `c` move on by `n` granules, and LEN falls by `n`. -/
def txMove (c n : Nat) (s : State) : State :=
  let s := s.setFld (WIAN_TX_LOC_LOC c) (s.fld (WIAN_TX_LOC_LOC c) + n)
  let s := s.setFld (WIAN_TX_REM_REM c) (s.fld (WIAN_TX_REM_REM c) + n)
  let s := s.setFld (WIAN_TX_CMD_LEN c) (s.fld (WIAN_TX_CMD_LEN c) - n)
  s.setChan c { s.chan c with issued := (s.chan c).issued - n }

/-- The frames at the front that are confirmed whole leave the channel. -/
def txPop (c : Nat) : List TxFrame → State → State
  | [], s => s.setChan c { s.chan c with frames := [] }
  | f :: fs, s =>
    if f.res = some (f.n, 0, false) then txPop c fs (txMove c f.n s) else s.setChan c { s.chan c with frames := f :: fs }

/-- The first failure among the frames, in order of their granules. -/
def firstFail : List TxFrame → Option (Nat × Nat × Bool)
  | [] => none
  | f :: fs => match f.res with
    | some (i, c, x) => if c = 0 then firstFail fs else some (i, c, x)
    | none => firstFail fs

/-- The local reads of the frame that channel `c` was to send next are withdrawn. -/
def txWithdraw (c : Nat) (s : State) : State :=
  withdraw (fun d => match d with
    | .tx k _ => decide (k = c)
    | _ => false) s

/-- A channel ends: BUSY and GO clear, E(228 + c). -/
def txEnd (c : Nat) (s : State) : State :=
  raise (228 + c) (((txWithdraw c s).clearFld (WIAN_TX_STAT_BUSY c)).clearFld (WIAN_TX_CTL_GO c) |>.setChan c TxChan.init)

/-- A channel stops with CAUSE. -/
def txStop (c cause : Nat) (lside : Bool) (s : State) : State :=
  txEnd c (((s.raiseBit (WIAN_TX_STAT_ERR c)).setFld (WIAN_TX_STAT_CAUSE c) cause).setFld (WIAN_TX_STAT_LSIDE c) lside.toNat)

/-- What follows the end of a frame of channel `c` (R402): DONE at LEN 0; the stop once the outstanding frames have ended, with ABORTED after
an abort. -/
def txSettle (c : Nat) (s : State) : State :=
  if !s.on (WIAN_TX_STAT_BUSY c) then s
  else
    let s := txPop c (s.chan c).frames s
    let k := s.chan c
    if s.fld (WIAN_TX_CMD_LEN c) = 0 then txEnd c (s.raiseBit (WIAN_TX_STAT_DONE c))
    else if k.frames.any (fun f => f.res.isNone) then s
    else
      let done := match k.frames with
        | f :: _ => match f.res with
          | some (i, _, _) => i
          | none => 0
        | [] => 0
      if k.abort then txStop c 9 false (txMove c done s)
      else match firstFail k.frames with
        | some (_, cause, x) => txStop c cause x (txMove c done s)
        | none => s

/-- TX_GO: a write of WIAN_TXc_CTL with GO = 1 (R401, R403). -/
def txGo (c : Nat) (v : Reg) (s : State) : State :=
  if s.on (WIAN_TX_STAT_BUSY c) then s
  else
    let w := v.toNat
    let s := ((s.setFld (WIAN_TX_CTL_GROUP c) (bitsOf w 0 6)).setFld (WIAN_TX_CTL_VIEW c) (bitsOf w 8 2)).setFld (WIAN_TX_CTL_DIR c)
      (bitsOf w 12 1)
    let s := if bitsOf w 20 8 = 0 then s else s.setFld (WIAN_TX_CTL_TIMEOUT c) (bitsOf w 20 8)
    let len := s.fld (WIAN_TX_CMD_LEN c)
    let view := bitsOf w 8 2
    if s.build.granules < s.fld (WIAN_TX_LOC_LOC c) + len ∨ view = 3 ∨ (view = 1 ∧ bitsOf w 12 1 = 1) ∨
        !routed (s.routeOf (s.fld (WIAN_TX_CMD_DEV c))) then
      ((s.raiseBit (WIAN_TX_STAT_ERR c)).setFld (WIAN_TX_STAT_LSIDE c) 1).setFld (WIAN_TX_STAT_CAUSE c) 5
    else if len = 0 then raise (228 + c) (s.raiseBit (WIAN_TX_STAT_DONE c))
    else
      let s := ((s.raiseBit (WIAN_TX_STAT_BUSY c)).setFld (WIAN_TX_STAT_CAUSE c) 0).setFld (WIAN_TX_STAT_LSIDE c) 0
      (s.raiseBit (WIAN_TX_CTL_GO c)).setChan c TxChan.init

/-- TX_ABORT: a write of 1 to ABORT. -/
def txAbort (c : Nat) (s : State) : State :=
  if s.on (WIAN_TX_STAT_BUSY c) then txSettle c ((txWithdraw c s).setChan c { s.chan c with abort := true }) else s

/-- The local access of channel `c` to granule `g`, for `d` (R401, R68). -/
def State.txAccess (s : State) (c g : Nat) (d : Dest) (k : Kind) : Access :=
  { dest := d, port := 1, gran := g, view := BitVec.ofNat 2 (s.fld (WIAN_TX_CTL_VIEW c)),
    group := BitVec.ofNat 6 (s.fld (WIAN_TX_CTL_GROUP c)), owner := 0x4000, kind := k }

/-- The status code of a granule access (Table 12.5). -/
def MemRes.status : MemRes → Nat
  | .ok .. => 0
  | .ue => 4
  | .capacity _ => 2
  | .conflict _ => 3
  | .frozen => 8

/-- Index and status of the lowest granule of a frame that failed (R399). -/
def badGran (rs : List MemRes) : Option (Nat × Nat) := (firstBad rs).map (fun x => (x.1, x.2.status))

/-- The accesses of the frame of virtual channel `vc` in service on link `l` (4: this device). -/
def frameAccesses (l vc : Nat) (d : Dest) : Bool :=
  match d with
  | .frame x y _ => decide (x = l) && decide (y = vc)
  | _ => false

def State.served (s : State) (l vc : Nat) : Option (Nat × Nat) := Tbl.get none (2 * l + vc) s.wian.serving
def State.setServed (s : State) (l vc : Nat) (v : Option (Nat × Nat)) : State :=
  { s with wian := { s.wian with serving := Tbl.set none (2 * l + vc) v s.wian.serving } }

/-- The frame of virtual channel `vc` of link `l` is in service no more. -/
def endService (l vc : Nat) (s : State) : State := (withdraw (frameAccesses l vc) s).setServed l vc none

/-- The frame of channel `c` with tag `t` ends with result `r`. -/
def txResult (c : Nat) (t : Nat) (r : Nat × Nat × Bool) (s : State) : State :=
  let k := s.chan c
  txSettle c (s.setChan c { k with frames := k.frames.map (fun f => if f.tag.toNat = t ∧ f.res.isNone then { f with res := some r } else f) })

/-- The channel that waits for a response with the tag from device `dev`. -/
def State.txOwner (s : State) (t dev : Nat) : Option Nat :=
  firstBelow (fun c => s.on (WIAN_TX_STAT_BUSY c) && decide (s.fld (WIAN_TX_CMD_DEV c) = dev) &&
    (s.chan c).frames.any (fun f => decide (f.tag.toNat = t) && f.res.isNone)) 4

/-- Granules from LOC at which the unanswered frame with tag `t` of a channel begins. -/
def txOffset (t : Nat) : List TxFrame → Nat
  | [] => 0
  | f :: fs => if f.tag.toNat = t ∧ f.res.isNone then 0 else f.n + txOffset t fs

/-- The local writes of an RDR for the frame `x` of channel `c`: granules from LOC on. -/
def State.txWrites (s : State) (l c : Nat) (f : Frame) (x : TxFrame) : List Access :=
  let loc := s.fld (WIAN_TX_LOC_LOC c) + txOffset f.tag (s.chan c).frames
  let good := if f.status = 0 then x.n else min x.n (if f.status = 4 then f.fld 64 4 else 0)
  (List.range good).map (fun i => s.txAccess c (loc + i) (.frame l 1 i) (.write (f.pay.getD i 0) 0xFFFF false))

/-- A WRACK or RDR that reached its origin on link `l` (R402): the granules confirmed, and for an RDR the local writes. False while those
wait. -/
def txResponse (l : Nat) (f : Frame) (s : State) : Bool × State :=
  match s.txOwner f.tag f.src with
  | none => (true, endService l 1 s)
  | some c =>
    match (s.chan c).frames.find? (fun x => decide (x.tag.toNat = f.tag) && x.res.isNone) with
    | none => (true, endService l 1 s)
    | some x =>
      if f.type = 4 then
        match askAll (s.txWrites l c f x) [] s with
        | (none, s) => (false, s)
        | (some rs, s) =>
          let s := endService l 1 s
          match badGran rs with
          | some (i, st) => (true, txResult c f.tag (i, st, true) s)
          | none => (true, txResult c f.tag (rs.length, f.status, false) s)
      else (true, txResult c f.tag (if f.status = 0 then x.n else min x.n (f.fld 64 4), f.status, false) s)

/-! ### Peer accesses (R397 to R399) -/

/-- The fabric tick index (R397). -/
def State.fabricTick (s : State) : Nat := s.wian.tick.toNat

/-- The fabric tick index taken at a tick instant (R397). -/
def fabricInstant (s : State) : State := { s with wian := { s.wian with tick := BitVec.ofNat 8 (s.clk.tb.toNat / s.clk.per) } }

/-- Does ingress window `m` admit the frame? -/
def State.window (s : State) (f : Frame) (m : Nat) : Bool :=
  (if f.type = 1 then s.on (WIAN_INWIN_CTL_WR m) else s.on (WIAN_INWIN_CTL_RD m)) &&
    decide (s.fld (WIAN_INWIN_SRC_LO m) ≤ f.src) && decide (f.src ≤ s.fld (WIAN_INWIN_SRC_HI m)) &&
    decide (s.fld (WIAN_INWIN_BASE_BASE m) ≤ f.gran) &&
    decide (f.gran + f.n ≤ s.fld (WIAN_INWIN_BASE_BASE m) + s.fld (WIAN_INWIN_LEN_LEN m))

/-- The checks of R398 in order: the status of the first that fails. -/
def State.peerCheck (s : State) (f : Frame) : Nat :=
  if !s.on WIAN_CTL_ING_EN then 7
  else if f.type = 1 ∧ s.on EPC_STAT_FROZEN then 8
  else if s.build.granules < f.gran + f.n then 5
  else if (f.type = 3 ∧ s.on SEC_NARROW_P_RD) ∨ !(List.range 8).any (s.window f) then 1
  else 0

/-- The access of granule `i` of a peer frame on link `l` (Table 3.2). -/
def peerAccess (l : Nat) (f : Frame) (i : Nat) : Access :=
  if f.type = 1 then
    { dest := .frame l 0 i, port := 1, gran := f.gran + i, view := 2, group := 62, owner := 0xC000,
      kind := .write (f.pay.getD i 0) 0xFFFF false }
  else { dest := .frame l 0 i, port := 1, gran := f.gran + i, view := 1, group := 0, owner := 0xC000, kind := .read }

/-- The response to a WR or RD with a status, the tick index at acceptance and, for a refused or unreachable frame, no data. -/
def State.peerResponse (s : State) (f : Frame) (tick status idx : Nat) (stamp : Nat) (pay : List Gran) : Frame :=
  if f.type = 1 then mkFrame 2 0 status f.src s.ownAddr f.tag tick idx []
  else mkFrame 4 (f.n - 1) status f.src s.ownAddr f.tag tick (idx + stamp * 2 ^ 32)
    (pay ++ List.replicate ((f.n + 1) / 2 * 2 - pay.length) 0)

/-- A frame that this device sends to itself. -/
def holdOwn (f : Frame) (s : State) : State := s.setWlink 4 { s.wlink 4 with held := (s.wlink 4).held ++ [f] }

/-- A response leaves this device by the route of its destination; without a route it is discarded (R390). -/
def emitResponse (f : Frame) (s : State) : State :=
  let p := s.routeOf f.dst
  if p < 4 then linkQueue p f s else if p = 4 then holdOwn f s else s.raiseBit WIAN_STAT_BADFRM

/-- This device returned a status other than OK (R399). -/
def refusedStatus (status : Nat) (s : State) : State := if status = 0 then s else raise 226 (s.raiseBit WIAN_STAT_REFUSED)

/-- LATE (R397): a WR whose TICK is not the responder's, once the Tick Unit has started. -/
def checkLate (f : Frame) (s : State) : State :=
  if f.type = 1 ∧ s.on TBU_TICK_STAT_STARTED ∧ f.tick ≠ s.fabricTick then raise 227 (s.raiseBit WIAN_STAT_LATE) else s

/-- The flags of Table 3.7 for a granule of a peer write. -/
def peerFlag (s : State) (r : MemRes) : State :=
  match r with
  | .capacity _ => s.raiseBit EPC_STAT_PEER_CAP
  | .conflict _ => s.raiseBit EPC_STAT_PEER_CONF
  | _ => s

/-- The accesses of a peer frame in service on link `l`, and its answer once all have ended (R398, R399): false while one waits. `a` is the
stamp and the tick index of its acceptance. -/
def peerServe (l : Nat) (f : Frame) (a : Nat × Nat) (us : List Upset) (s : State) : Bool × State :=
  match askAll ((List.range f.n).map (peerAccess l f)) us s with
  | (none, s) => (false, s)
  | (some rs, s) =>
    let s := rs.foldl peerFlag (endService l 0 s)
    let (idx, st) := (badGran rs).getD (0, 0)
    (true, emitResponse (s.peerResponse f a.2 st idx a.1 (rs.map MemRes.data)) (refusedStatus st s))

/-- A WR or RD addressed to this device is served (R398, R399): the checks as it is accepted, then its accesses. False while they wait. -/
def servePeer (l : Nat) (f : Frame) (us : List Upset) (s : State) : Bool × State :=
  match s.served l 0 with
  | some a => peerServe l f a us s
  | none =>
    let st := s.peerCheck f
    if st ≠ 0 then
      let s := if st = 1 then refuse 1 f.gran s else s
      (true, emitResponse (s.peerResponse f s.fabricTick st 0 0 []) (refusedStatus st s))
    else
      let s := checkLate f s
      let g := s.stamp (f.gran / 4096)
      let a := ((s.group g.toNat).gepoch.toNat + g.toNat * 2 ^ 32, s.fabricTick)
      peerServe l f a us (s.setServed l 0 (some a))

/-! ### The router (R390, R391) -/

/-- Does discovery run, and hold VC0 and VC1 frames (R391)? -/
def State.discovering (s : State) : Bool := s.on WIAN_CTL_DISC

/-- A WR or RD without a route is answered UNREACH; a response without one is discarded (R390). -/
def unroutable (f : Frame) (s : State) : State :=
  let s := s.raiseBit WIAN_STAT_BADFRM
  if f.type = 1 ∨ f.type = 3 then emitResponse (s.peerResponse f s.fabricTick 6 0 0 []) (refusedStatus 6 s) else s

/-- May a frame leave on link `p`: a device left without an address forwards only on the links of the tree (R388)? -/
def State.mayForward (s : State) (p : Nat) : Bool := decide (s.fld WIAN_STAT_DSTATE ≠ 3) || s.on (WIAN_LINK_STAT_TREE p)

/-- The router takes a WR, RD, WRACK or RDR of link `l` (4: of this device); false while its accesses wait, and it stays where it is. -/
def routeFrame (l : Nat) (f : Frame) (us : List Upset) (s : State) : Bool × State :=
  let p := s.routeOf f.dst
  let r :=
    if p = 4 then (if f.type = 1 ∨ f.type = 3 then servePeer l f us s else txResponse l f s)
    else if p < 4 ∧ p ≠ l ∧ s.mayForward p then (true, linkQueue p f s)
    else (true, unroutable f s)
  if r.1 ∧ l < 4 then (true, freeFlits l f r.2) else r

/-- The frames held in the receive buffers of link `l`, in arrival order; those of a VC stay behind one that still waits. -/
def drainHeld (l : Nat) (us : List Upset) : List Frame → Bool → Bool → State → State
  | [], _, _, s => s
  | f :: fs, b0, b1, s =>
    let stay := fun (s : State) =>
      let s := s.setWlink l { s.wlink l with held := (s.wlink l).held ++ [f] }
      if f.vc = 0 then drainHeld l us fs true b1 s else drainHeld l us fs b0 true s
    if (if f.vc = 0 then b0 else b1) ∨ s.discovering then stay s
    else
      match routeFrame l f us s with
      | (true, s) => drainHeld l us fs b0 b1 s
      | (false, s) => stay s

/-- What waits in the receive buffers of link `l` is carried on as far as it can be. -/
def drainLink (l : Nat) (us : List Upset) (s : State) : State :=
  drainHeld l us (s.wlink l).held false false (s.setWlink l { s.wlink l with held := [] })

/-- What waits anywhere in the router is carried on: once new routes stand, and as accesses of its frames end. The responses that this
device's own frames meet are taken last. -/
def routerDrain (s : State) : State := drainLink 4 [] ((List.range 5).foldl (fun s l => drainLink l [] s) s)

/-- The router receives a data or response frame on link `l`. -/
def routerAccept (l : Nat) (f : Frame) (us : List Upset) (s : State) : State :=
  let s := drainLink l us (s.setWlink l { s.wlink l with held := (s.wlink l).held ++ [f] })
  drainLink 4 [] (drainLink 4 [] s)

/-! ### Reception (R381, R383) -/

/-- The sequence check of R383. -/
inductive SeqCheck where
  | next
  | old
  | gap
deriving DecidableEq, Repr

def WLink.check (k : WLink) (f : Frame) : SeqCheck :=
  let d : Word := BitVec.ofNat 16 f.seq - k.rxSeq
  if d = 0 then .next else if d.slt 0 then .old else .gap

/-- A NAK of the expected LSEQ will be sent. -/
def sendNak (l : Nat) (s : State) : State := s.setWlink l { s.wlink l with nakd := true, nakDue := true }

/-- The flits of a received frame are counted. -/
def arrived (l : Nat) (f : Frame) (s : State) : State :=
  let n := f.flits (s.wlink l).enc
  portBytes (16 + l) (32 * n) (tally 8 l 1 n s)

/-- A frame with a good CRC arrives on link `l`: in sequence and with good fields it takes effect as `k` says, once; a repeat is
discarded; after a gap everything is, until the expected frame comes (R381, R383). `good` is false when a field check failed. -/
def receive (l : Nat) (f : Frame) (good : Bool) (k : State → State) (s : State) : State :=
  if s.lstate l ≠ 3 ∧ ¬ (s.lstate l = 2 ∧ f.type = 0xD) then s
  else
    let s := arrived l f s
    let x := s.wlink l
    match x.check f with
    | .old => s.setWlink l { x with ackDue := true }
    | .gap => if x.nakd then s else sendNak l s
    | .next =>
      let s := s.setWlink l { x with rxSeq := x.rxSeq + 1, nakd := false, nakDue := false, ackDue := true,
                                     fcRx := if x.enc then x.fcRx + 1 else x.fcRx }
      if good ∧ f.ok then k s else freeFlits l f (s.raiseBit WIAN_STAT_BADFRM)

/-- A control frame is consumed as it takes effect. -/
def control (l : Nat) (f : Frame) (k : State → State) (s : State) : State :=
  receive l f true (fun s => k (freeFlits l f s)) s

/-- BAD_FRAME (R381, R383, R529). -/
def badFrame (l : Nat) (why : BadFrame) (f : Frame) (s : State) : State :=
  if s.lstate l ≠ 3 ∧ s.lstate l ≠ 2 then s
  else match why with
    | .crc => sendNak l (arrived l f s)
    | .tag => if (s.wlink l).enc then sendNak l (arrived l f s) else s
    | .gap => if (s.wlink l).check f = .gap then (if (s.wlink l).nakd then arrived l f s else sendNak l (arrived l f s)) else s
    | .fields => if f.ok then s else receive l f false id s

/-- LINK_FRAME (R382, R383): credits return, acknowledged frames leave the replay buffer, a NAK has the transmitter resend. -/
def dropAcked (ack : Nat) (r : List Wire) : List Wire :=
  match r.findIdx? (fun w => decide (w.frame.seq = ack)) with
  | some i => r.drop (i + 1)
  | none => r

/-! ### Link states (R384, R527) -/

/-- A discovery starts in round `r` (R386): the frames that wait for their credits wait for the new routes (R391). -/
def startDiscovery (r : Nat) (s : State) : State :=
  let own := if s.on WIAN_CTL_CAND then some s.serial else none
  let s := (((s.raiseBit WIAN_CTL_DISC).setFld WIAN_STAT_DSTATE 1).setFld WIAN_STAT_ROUND r).setFld WIAN_STAT_ERRC 0
  let s := { s with wian := { s.wian with best := own, hops := 0, parent := none, changed := s.clk.tb, lastDisc := none,
                                          lastJoin := s.clk.tb, joined := false, joins := [], rt := [], rtN := 0, rtDef := 15 } }
  (List.range 4).foldl (fun s l =>
    let q := (s.wlink l).txq
    let s := s.setWlink l { s.wlink l with heard := none, txq := q.filter (fun f => decide (f.vc = 2)) }
    s.setWlink 4 { s.wlink 4 with held := (s.wlink 4).held ++ q.filter (fun f => decide (f.vc ≠ 2)) }) s

/-- DISCOVERY_START: a write of 1 to WIAN_CTL.DISC. -/
def discoveryStart (s : State) : State :=
  if s.on WIAN_CTL_EN then startDiscovery (s.fld WIAN_STAT_ROUND) s else s

/-- The link goes DOWN (R384, R391): its receive and replay buffers are discarded; a tree link starts discovery in the next round. -/
def linkDown (l : Nat) (s : State) : State :=
  let st := s.lstate l
  if st = 0 then s
  else
    let tree := s.on (WIAN_LINK_STAT_TREE l)
    let parent := s.on (WIAN_LINK_STAT_PARENT l)
    let s := endService l 1 (endService l 0 s)
    let s := s.setWlink l { WLink.init with txq := (s.wlink l).txq.filter (fun f => decide (f.vc ≠ 2)) }
    let s := setLinkState l 0 (s.addSat (WIAN_LINK_CNT_DOWNS l) 1)
    let s := if parent then setSync 0 s else s
    if s.on WIAN_CTL_AUTO ∧ tree ∧ s.on WIAN_CTL_EN then startDiscovery (s.fld WIAN_STAT_ROUND + 1) s else s

/-- LINK_DOWN from the lanes; a link in FAIL stays there until RETRAIN (Table 12.3). -/
def linkLost (l : Nat) (s : State) : State := if s.lstate l = 4 then s else linkDown l s

/-- LINK_TRAIN_START (R384): a link DOWN for 1 ms with EN at 1; one whose spare lane is staged trains with it from the next tick instant
(R385). -/
def linkTrain (l : Nat) (s : State) : State :=
  if s.lstate l = 0 ∧ !s.on (WIAN_LINK_STAT_LANE_DEG l) ∧ s.on WIAN_CTL_EN ∧ s.on (WIAN_LINK_CTL_EN l) ∧ 1000000 ≤ (s.clk.tb - (s.wlink l).since).toNat then
    setLinkState l 1 s
  else s

/-- LINK_RETRAIN: a write of 1 to RETRAIN takes the link DOWN and trains it at once. -/
def linkRetrain (l : Nat) (s : State) : State :=
  let s := linkDown l s
  if s.on WIAN_CTL_EN ∧ s.on (WIAN_LINK_CTL_EN l) then setLinkState l 1 s else s

/-- A write of WIAN_LINKn_CTL.EN. -/
def linkEnable (l : Nat) (v : Bool) (s : State) : State :=
  let s := s.setFld (WIAN_LINK_CTL_EN l) v.toNat
  if v then s else linkDown l s

/-- Does this end require authentication (R527)? -/
def State.needAuth (s : State) : Bool := s.on SEC_CTL_LINK_AUTH || s.on SEC_CTL_LINK_ENC

/-- Byte 22 of this end's CAPX on link `l`. -/
def State.capxInfo (s : State) (l : Nat) : Nat :=
  s.build.code + (if s.fld (WIAN_LINK_STAT_SPARE l) < 5 ∧ !s.on (WIAN_LINK_STAT_LANE_DEG l) then 4 else 0)
    + (s.wlink l).enc.toNat * 8 + l * 16 + s.needAuth.toNat * 128

/-- A CAPX of a step on link `l`. -/
def sendCapx (l step : Nat) (pay : List Gran) (s : State) : State :=
  linkQueue l (mkFrame 0xD 0 0 0 0 0 0
    ((s.reg CRP_ID).toNat + s.serial.toNat * 2 ^ 32 + s.capxInfo l * 2 ^ 112 + step * 2 ^ 120) pay) s

/-- The physical lane of link `l` out of the active set as it trains: lane 4, unless a lane swap put another there (WIAN_LINKn_STAT.SPARE,
Table 17.1). -/
def State.idleLane (s : State) (l : Nat) : Nat := if s.hlt.laneUsed.getLsbD l then s.fld (WIAN_LINK_STAT_SPARE l) else 4

/-- LINK_TRAINED: once every lane of the active set aligns and FEC locks, the link moves to AUTH and sends its step-0 CAPX (R384, R527). -/
def linkTrained (l : Nat) (lanes : BitVec 5) (s : State) : State :=
  if s.lstate l = 1 ∧ (List.range 5).all (fun n => lanes.getLsbD n || decide (n = s.idleLane l)) then
    sendCapx l 0 [] (setLinkState l 2 (s.setFld (WIAN_LINK_STAT_SPARE l) (s.idleLane l)))
  else s

/-- Authentication fails (R527): FAIL, E403 and a class 3 record. -/
def authFailLink (l : Nat) (s : State) : State :=
  let ser := s.reg64 (WIAN_LINK_PART_SER_LO l) (WIAN_LINK_PART_SER_HI l)
  audit 3 2 l ser.toNat (raise 403 (setLinkState l 4 (s.setWlink l WLink.init)))

/-- The link enters UP, and sends CAPX (R384). `enc`: frames are encrypted from now on (R528). -/
def enterUp (l : Nat) (enc : Bool) (s : State) : State :=
  let s := setLinkState l 3 s
  sendCapx l 0 [] (s.setWlink l { s.wlink l with enc := enc, fcTx := 0, fcRx := 0 })

/-- Does this end hold the lower serial? -/
def State.lower (s : State) (l : Nat) : Bool :=
  decide (s.serial.toNat < (s.reg64 (WIAN_LINK_PART_SER_LO l) (WIAN_LINK_PART_SER_HI l)).toNat)

/-- The bytes of the pair (lo, hi) of this end's and the partner's value. -/
def State.ordered (s : State) (l n : Nat) (own part : Nat) : List Byte :=
  if s.lower l then bytesOf own n ++ bytesOf part n else bytesOf part n ++ bytesOf own n

/-- The tag of link number `num` under Ks over the nonces and serials (R527). -/
def State.linkTag (s : State) (l num : Nat) (own part : BitVec 256) : BitVec 128 :=
  let ser := s.ordered l 8 s.serial.toNat (s.reg64 (WIAN_LINK_PART_SER_LO l) (WIAN_LINK_PART_SER_HI l)).toNat
  let non := s.ordered l 32 own.toNat part.toNat
  let ks := (Config.hmac384 (bytesOf s.fabkey.toNat 32) (non ++ ser)).extractLsb' 0 256
  Config.gmac ks (non ++ ser ++ bytesOf num 1)

/-- The partner registers loaded from a CAPX. -/
def loadPartner (l : Nat) (f : Frame) (s : State) : State :=
  let s := s.setReg (WIAN_LINK_PART_ID l) (BitVec.ofNat 32 (f.fld 64 32))
  let s := s.setReg64 (WIAN_LINK_PART_SER_LO l) (WIAN_LINK_PART_SER_HI l) (BitVec.ofNat 64 (f.fld 96 64))
  (s.setReg (WIAN_LINK_PART_INFO l) (BitVec.ofNat 32 (f.fld 176 7))).raiseBit (WIAN_LINK_STAT_PARTV l)

/-- A CAPX takes effect (R384, R527). -/
def capxEffect (l : Nat) (f : Frame) (s : State) : State :=
  let s := loadPartner l f s
  if s.lstate l ≠ 2 then s
  else
    let step := f.fld 184 2
    let k := { s.wlink l with since := s.clk.tb }
    let s := s.setWlink l k
    if step = 0 then
      let need := decide (f.fld 183 1 = 1)
      let s := s.setWlink l { k with peerReq := some need }
      if !need ∧ !s.needAuth then enterUp l false s
      else if !s.on SEC_STAT_FABKEY then authFailLink l s
      else match draw s with
        | none => s
        | some (d, s) =>
          let n := d.extractLsb' 0 256
          sendCapx l 1 [n.extractLsb' 0 128, n.extractLsb' 128 128] (s.setWlink l { s.wlink l with nonce := some n })
    else if step = 1 then
      let p : BitVec 256 := f.pay.getD 1 0 ++ f.pay.getD 0 0
      match k.nonce with
      | none => authFailLink l s
      | some n =>
        sendCapx l 2 [s.linkTag l l n p, 0] (s.setWlink l { k with peerNon := some p, tagSent := true })
    else if step = 2 then
      match k.nonce, k.peerNon with
      | some n, some p =>
        if s.linkTag l (f.fld 180 3) n p = f.pay.getD 0 0 ∧ k.tagSent then
          enterUp l (s.on SEC_CTL_LINK_ENC || decide (f.fld 179 1 = 1)) s
        else authFailLink l s
      | _, _ => authFailLink l s
    else s

/-- LINK_AUTH_TIMEOUT: no step within 1 ms (R527). -/
def authTimeout (l : Nat) (s : State) : State :=
  if s.lstate l = 2 ∧ 1000000 ≤ (s.clk.tb - (s.wlink l).since).toNat then authFailLink l s else s

/-! ### Transmission (R382, R383) -/

/-- The LINK frame due on link `l`. -/
def State.linkFrameOut (s : State) (l : Nat) : Frame :=
  let k := s.wlink l
  mkFrame 0xC 0 0 0 0 0 0 ((k.rxSeq - 1).toNat + (if k.nakDue then (k.rxSeq.toNat % 2 ^ 15 + 2 ^ 15) else 0) * 2 ^ 16 +
    min k.freed.vc0 65535 * 2 ^ 32 + min k.freed.vc1 65535 * 2 ^ 48 + min k.freed.vc2 255 * 2 ^ 64) []

/-- TB in sixteenths of a nanosecond. -/
def State.tb16 (s : State) : BitVec 64 := s.clk.tb * 16 + BitVec.ofNat 64 (s.fld TBU_TB_STAT_FRAC)

/-- A TSYNC frame takes its t1 or t3 as it is sent (R394). -/
def stampTsync (l : Nat) (f : Frame) (s : State) : Frame × State :=
  if f.type ≠ 0xB then (f, s)
  else if f.fld 216 8 = 0 then (f.put 64 64 s.tb16.toNat, s.setWlink l { s.wlink l with t1 := some s.tb16 })
  else ((f.put 128 32 s.tb16.toNat).put 176 32 (s.tb16.toNat / 2 ^ 32), s)

/-! The frame on the wire (R380, R528). The CRC takes the bits of a byte from bit 0 on (DESIGN CHOICE: assumption 94). -/

def crcBit (c : BitVec 32) (b : Bool) : BitVec 32 := (c >>> 1) ^^^ (if c.getLsbD 0 ^^ b then 0xEDB88320 else 0)
def crcByte (c : BitVec 32) (b : Byte) : BitVec 32 := (List.range 8).foldl (fun c i => crcBit c (b.getLsbD i)) c
/-- CRC-32 with polynomial 0x04C11DB7, initial value all ones, result complemented. -/
def crc32 (l : List Byte) : BitVec 32 := ~~~ (l.foldl crcByte 0xFFFFFFFF)

/-- The bytes of a payload, and the granules that bytes form. -/
def payBytes (l : List Gran) : List Byte := l.flatMap (fun g => bytesOf g.toNat 16)
def natOfBytes (l : List Byte) : Nat := l.foldr (fun b a => b.toNat + 256 * a) 0

/-- Ks of link `l` (R527). -/
def State.linkKs (s : State) (l : Nat) : BitVec 256 :=
  let k := s.wlink l
  let ser := s.ordered l 8 s.serial.toNat (s.reg64 (WIAN_LINK_PART_SER_LO l) (WIAN_LINK_PART_SER_HI l)).toNat
  let non := s.ordered l 32 (k.nonce.getD 0).toNat (k.peerNon.getD 0).toNat
  (Config.hmac384 (bytesOf s.fabkey.toNat 32) (non ++ ser)).extractLsb' 0 256

/-- Frame `f` as it leaves on link `l`: with its CRC, and encrypted where the link encrypts and it is no LINK frame (R380, R528). -/
def State.wireOf (s : State) (l : Nat) (f : Frame) : Wire :=
  let k := s.wlink l
  let h := bytesOf f.hdr.toNat 28
  if k.enc ∧ f.type ≠ 0xC then
    let key := (Config.hmac384 (bytesOf (s.linkKs l).toNat 32) (bytesOf (k.fcTx.toNat / 2 ^ 32) 8)).extractLsb' 0 256
    let iv : BitVec 96 := BitVec.ofNat 96 (k.fcTx.toNat + (s.lower l).toNat * 2 ^ 95)
    let (c, t) := Config.aesGcm key iv (h.take 8) (h.drop 8 ++ payBytes f.pay)
    let c := c.take (20 + 16 * f.pay.length)
    let crc := crc32 (h.take 8 ++ c ++ bytesOf t.toNat 16 ++ List.replicate 16 0)
    { frame := f, hdr := crc ++ BitVec.ofNat 224 (natOfBytes (h.take 8 ++ c.take 20)), tag := some t,
      pay := (List.range f.pay.length).map (fun i => BitVec.ofNat 128 (natOfBytes ((c.drop (20 + 16 * i)).take 16))) }
  else { frame := f, hdr := crc32 (h ++ payBytes f.pay) ++ f.hdr, pay := f.pay, tag := none }

/-- The flits of a frame on the wire. -/
def Wire.flits (w : Wire) : Nat := 1 + (w.pay.length + 1) / 2 + w.tag.isSome.toNat

/-- A frame goes out on link `l`. -/
def sendOut (l : Nat) (w : Wire) (s : State) : State :=
  let s := portBytes (12 + l) (32 * w.flits) (tally 8 l 0 w.flits s)
  { s with wian := { s.wian with sent := s.wian.sent ++ [(l, w)] } }

/-- The first frame of a VC in the queue, and the queue without it. -/
def takeVc (vc : Nat) : List Frame → Option (Frame × List Frame)
  | [] => none
  | f :: fs => if f.vc = vc then some (f, fs) else
      match takeVc vc fs with
      | some (g, r) => some (g, f :: r)
      | none => none

/-- FRAME_SEND: link `l` sends its next frame on a VC (R382 to R384): on VC2 a LINK frame that is due goes first; then frames to be resent,
in order; then the VC's next frame, when its credits are held. -/
def frameSend (l vc : Nat) (s : State) : State :=
  let k := s.wlink l
  let st := s.lstate l
  if st ≠ 2 ∧ st ≠ 3 then s
  else if vc = 2 ∧ (k.ackDue ∨ k.nakDue ∨ k.freed ≠ ⟨0, 0, 0⟩) then
    let f := s.wireOf l (s.linkFrameOut l)
    let rest : Flits := ⟨k.freed.vc0 - 65535, k.freed.vc1 - 65535, k.freed.vc2 - 255⟩
    sendOut l f (s.setWlink l { k with ackDue := false, nakDue := false, freed := rest })
  else if 0 < k.resend then
    match k.replay.drop (k.replay.length - k.resend) with
    | f :: _ => if f.frame.vc = vc then
        tally 8 l 2 1 (sendOut l f ((s.setWlink l { k with resend := k.resend - 1 }).addSat (WIAN_LINK_CNT_REPLAY l) 1)) else s
    | [] => s
  else match takeVc vc k.txq with
    | none => s
    | some (f, q) =>
      let n := f.flits k.enc
      if k.credit.get vc < n ∨ (st = 2 ∧ f.type ≠ 0xD) ∨ 8192 < (k.replay.foldl (fun a x => a + x.flits) 0) + n then s
      else
        let s := s.setWlink l { k with txq := q, credit := k.credit.set vc (k.credit.get vc - n), txSeq := k.txSeq + 1 }
        let (f, s) := stampTsync l (f.put 160 16 k.txSeq.toNat) s
        let w := s.wireOf l f
        let k := s.wlink l
        sendOut l w (s.setWlink l { k with replay := k.replay ++ [w], fcTx := if k.enc then k.fcTx + 1 else k.fcTx })

/-- LINK_FRAME: the effect of a LINK frame (R382 to R384). -/
def linkFrame (l : Nat) (f : Frame) (s : State) : State :=
  if (s.lstate l ≠ 3 ∧ s.lstate l ≠ 2) ∨ f.type ≠ 0xC then s
  else if !f.ok then (arrived l f s).raiseBit WIAN_STAT_BADFRM
  else
    let s := arrived l f s
    let k := s.wlink l
    let c : Flits := ⟨min 8192 (k.credit.vc0 + f.fld 96 16), min 8192 (k.credit.vc1 + f.fld 112 16), min 64 (k.credit.vc2 + f.fld 128 8)⟩
    let replay := dropAcked (f.fld 64 16) k.replay
    let k := { k with credit := c, replay := replay, resend := min k.resend replay.length }
    let s := s.setWlink l k
    if f.fld 95 1 = 0 then s
    else match k.replay.findIdx? (fun x => decide (x.frame.seq % 2 ^ 15 = f.fld 80 15)) with
      | none => s
      | some i =>
        let seq : Word := BitVec.ofNat 16 ((k.replay[i]?.map (fun w => w.frame.seq)).getD 0)
        let fails := if k.failSeq = seq ∧ 0 < k.fails then k.fails + 1 else 1
        if 8 < fails then linkDown l s
        else s.setWlink l { k with replay := k.replay.drop i, resend := k.replay.length - i, fails := fails, failSeq := seq }

/-! ### Discovery (R386 to R389) -/

/-- A frame of this device on link `l`: control frames carry SRC and DST 0 except ASSIGN. -/
def discFrame (s : State) : Frame :=
  let best := s.wian.best.getD 0xFFFFFFFFFFFFFFFF
  let r := s.fld WIAN_STAT_ROUND
  mkFrame 8 0 0 0 0 (r % 256) (r / 256) (s.serial.toNat + (best.toNat % 2 ^ 32) * 2 ^ 64 + (best.toNat / 2 ^ 32) * 2 ^ 112
    + (s.wian.hops % 2 ^ 16) * 2 ^ 144) []

/-- DISC_SEND: every 1 µs during discovery (R386). -/
def discSend (s : State) : State :=
  let due : Bool := match s.wian.lastDisc with
    | none => true
    | some t => decide (1000 ≤ (s.clk.tb - t).toNat)
  if s.discovering ∧ due then
    let f := discFrame s
    let s := { s with wian := { s.wian with lastDisc := some s.clk.tb } }
    (List.range 4).foldl (fun s l => if s.linkUp l then linkQueue l f s else s) s
  else s

/-- BEST, HOPS and the parent link from what has been heard (R386). -/
def State.election (s : State) : Option (BitVec 64) × Nat × Option Nat :=
  let own := if s.on WIAN_CTL_CAND then some s.serial else none
  let low := fun (w : Option (BitVec 64)) (b : BitVec 64) => match w with
    | none => some b
    | some x => if b.toNat < x.toNat then some b else some x
  let best := (List.range 4).foldl (fun w l => match (s.wlink l).heard with
    | some (b, _, _) => if b = 0xFFFFFFFFFFFFFFFF then w else low w b
    | none => w) own
  match best with
  | none => (none, 0, none)
  | some b =>
    if some b = own then (best, 0, none)
    else
      let near := (List.range 4).foldl (fun (w : Option (Nat × Nat)) l => match (s.wlink l).heard with
        | some (x, h, _) => if x = b ∧ w.all (fun y => decide (h < y.2)) then some (l, h) else w
        | none => w) none
      match near with
      | some (l, h) => (best, h + 1, some l)
      | none => (best, 0, none)

/-- A DISC frame takes effect (R386): a higher round starts the device's discovery again, or for the first time with AUTO (R391). -/
def discEffect (l : Nat) (f : Frame) (s : State) : State :=
  let r := f.tag + 256 * f.tick
  let own := s.fld WIAN_STAT_ROUND
  if r < own then s
  else
    let s := if own < r ∧ (s.on WIAN_CTL_AUTO ∨ s.discovering) then startDiscovery r s else s
    if !s.discovering ∨ s.fld WIAN_STAT_ROUND < r then s
    else
      let best : BitVec 64 := BitVec.ofNat 64 (f.fld 128 32 + f.fld 176 32 * 2 ^ 32)
      let s := s.setWlink l { s.wlink l with heard := some (best, f.fld 208 16, BitVec.ofNat 64 (f.fld 64 64)) }
      let (b, h, p) := s.election
      if b = s.wian.best ∧ h = s.wian.hops then { s with wian := { s.wian with parent := p } }
      else { s with wian := { s.wian with best := b, hops := h, parent := p, changed := s.clk.tb, joined := false } }

/-- Is this device the Monarch of the running discovery? -/
def State.isBest (s : State) : Bool := s.on WIAN_CTL_CAND && decide (s.wian.best = some s.serial)

/-- QUIET µs since TB value `t`. -/
def State.quiet (s : State) (t : BitVec 64) : Bool := decide (s.fld WIAN_CTL_QUIET * 1000 ≤ (s.clk.tb - t).toNat)

/-- A JOIN to the parent. -/
def joinTo (p : Nat) (ser : BitVec 64) (depth : Nat) (s : State) : State :=
  linkQueue p (mkFrame 9 0 0 0 0 0 0 (ser.toNat + (depth % 2 ^ 16) * 2 ^ 64 + s.fld WIAN_STAT_ROUND * 2 ^ 144) []) s

/-- JOIN_SEND (R387). -/
def joinSend (s : State) : State :=
  match s.wian.parent with
  | none => s
  | some p =>
    if s.discovering ∧ !s.isBest ∧ !s.wian.joined ∧ s.quiet s.wian.changed then
      joinTo p s.serial s.wian.hops { s with wian := { s.wian with joined := true } }
    else s

/-- A JOIN frame takes effect (R387): recorded with its link, and forwarded to the parent. -/
def joinEffect (l : Nat) (f : Frame) (s : State) : State :=
  if !s.discovering ∨ f.fld 208 16 ≠ s.fld WIAN_STAT_ROUND then s
  else
    let ser : BitVec 64 := BitVec.ofNat 64 (f.fld 64 64)
    let d := f.fld 128 16
    let s := { s with wian := { s.wian with joins := s.wian.joins ++ [(ser, d, l)], lastJoin := s.clk.tb } }
    match s.wian.parent with
    | some p => if s.isBest then s else joinTo p ser d s
    | none => s

/-- The tree stands: TREE and PARENT of every link (R389). -/
def markTree (s : State) : State :=
  (List.range 4).foldl (fun s l =>
    let p := decide (s.wian.parent = some l)
    let t := p || s.wian.joins.any (fun j => decide (j.2.2 = l))
    (s.setFld (WIAN_LINK_STAT_TREE l) t.toNat).setFld (WIAN_LINK_STAT_PARENT l) p.toNat) s

/-- Discovery ends in DSTATE `st` (2 DONE, 3 ERROR): E224, and what the router held goes on (R389, R391). -/
def endDiscovery (st : Nat) (s : State) : State :=
  routerDrain (raise 224 (markTree ((s.clearFld WIAN_CTL_DISC).setFld WIAN_STAT_DSTATE st)))

/-- This device's address, N, DEPTH, PATH and Monarch (R389). -/
def takeAddress (addr n depth path madr : Nat) (s : State) : State :=
  let s := ((s.setFld WIAN_ID_ADDR addr).setFld WIAN_ID_VALID 1).setFld WIAN_ID_MADDR madr
  let s := ((s.setFld WIAN_NDEV_N n).setFld WIAN_NDEV_DEPTH depth).setFld WIAN_PATH_NS path
  routeWrite addr 4 s

/-- DELAY of link `l` rounded up to whole ns, plus 150 ns (R389). -/
def State.hopNs (s : State) (l : Nat) : Nat := (s.fld (WIAN_LINK_DELAY_DELAY l) + 15) / 16 + 150

/-- An ASSIGN sent on link `l` (R389): PATH grows by the link, and the route of ADDR names it. -/
def sendAssign (l : Nat) (ser : BitVec 64) (addr n path madr : Nat) (s : State) : State :=
  let path := path + s.hopNs l
  let s := routeWrite addr l s
  linkQueue l (mkFrame 0xA 0 0 addr madr 0 0 (ser.toNat + addr * 2 ^ 64 + (n % 2 ^ 16) * 2 ^ 80 + (path % 2 ^ 32) * 2 ^ 112
    + s.fld WIAN_STAT_ROUND * 2 ^ 144) []) s

/-- An ASSIGN frame takes effect (R389). -/
def assignEffect (f : Frame) (s : State) : State :=
  if f.fld 208 16 ≠ s.fld WIAN_STAT_ROUND then s
  else
    let ser : BitVec 64 := BitVec.ofNat 64 (f.fld 64 64)
    let addr := f.fld 128 16
    let n := f.fld 144 16
    let path := f.fld 176 32
    if ser = s.serial then
      if !s.discovering then s
      else
        let s := takeAddress addr n s.wian.hops path f.src s
        let par := match s.wian.parent with
          | some p => p
          | none => 15
        let s := { s with wian := { s.wian with rtN := n, rtDef := BitVec.ofNat 4 par } }
        endDiscovery 2 (s.clearFld WIAN_STAT_MONARCH)
    else match s.wian.joins.find? (fun j => decide (j.1 = ser)) with
      | some (_, _, l) => sendAssign l ser addr n path f.src s
      | none => s

/-- Insertion by serial. -/
def insertSerial (x : BitVec 64 × Nat) : List (BitVec 64 × Nat) → List (BitVec 64 × Nat)
  | [] => [x]
  | y :: ys => if x.1.toNat ≤ y.1.toNat then x :: y :: ys else y :: insertSerial x ys

/-- The ASSIGNs of the ranked devices, from rank `i` on. -/
def assignAll (n madr : Nat) : List (BitVec 64 × Nat) → Nat → State → State
  | [], _, s => s
  | (ser, _) :: r, i, s =>
    let s := if ser = s.serial then s else
      match s.wian.joins.find? (fun j => decide (j.1 = ser)) with
      | some (_, _, l) => sendAssign l ser i n 0 madr s
      | none => s
    assignAll n madr r (i + 1) s

/-- A device other than the Monarch, which has joined: whether the Monarch leaves it without an address, and for which cause of R388, is a free
value, 0 for neither (DESIGN CHOICE: assumption 95). -/
def leftOut (s : State) : State :=
  if s.discovering ∧ s.wian.joined then
    let (n, s) := s.takeFresh
    let errc := Config.free n % 4
    if errc = 0 then s else endDiscovery 3 (setSync 0 ((s.setFld WIAN_STAT_ERRC errc).setFld WIAN_ID_VALID 0))
  else s

/-- MONARCH_ASSIGN (R387 to R389): on the Monarch; another device may be left without an address (R388). -/
def monarchAssign (s : State) : State :=
  if !s.isBest then leftOut s
  else if !s.discovering ∨ !s.quiet s.wian.changed ∨ !s.quiet s.wian.lastJoin then s
  else
    let all := (s.serial, 0) :: s.wian.joins.map (fun j => (j.1, j.2.1))
    let deep := all.any (fun x => decide (s.fld WIAN_CTL_MAXDEPTH < x.2))
    let near := all.filter (fun x => decide (x.2 ≤ s.fld WIAN_CTL_MAXDEPTH))
    let dup := fun (x : BitVec 64 × Nat) => decide (1 < all.countP (fun y => decide (y.1 = x.1)))
    let ranked := (near.filter (fun x => !dup x)).foldl (fun l x => insertSerial x l) []
    let n := ranked.length
    let errc := if 4096 < n then 1 else if deep then 2 else if near.any dup then 3 else 0
    let s := s.setFld WIAN_STAT_ERRC errc
    match ranked.findIdx? (fun x => decide (x.1 = s.serial)) with
    | some i =>
      if 4096 < n then endDiscovery 3 (setSync 0 (s.setFld WIAN_ID_VALID 0))
      else
        let s := { s with wian := { s.wian with rtN := n, rtDef := 15 } }
        let s := takeAddress i n 0 0 i s
        endDiscovery 2 (setSync 0 ((assignAll n i ranked 0 s).raiseBit WIAN_STAT_MONARCH))
    | none => endDiscovery 3 (setSync 0 ((assignAll n 0 ranked 0 s).setFld WIAN_ID_VALID 0))

/-! ### Time synchronisation (R394 to R396) -/

/-- Is this end of link `l` the one that makes the exchange: the child end of the parent link, or the lower serial of a standby link? -/
def State.exchanges (s : State) (l : Nat) : Bool :=
  s.on (WIAN_LINK_STAT_PARENT l) || (!s.on (WIAN_LINK_STAT_TREE l) && s.lower l)

/-- TSYNC_EXCHANGE: every 2^PER µs (R394). -/
def tsyncExchange (l : Nat) (s : State) : State :=
  let k := s.wlink l
  let due : Bool := match k.lastTs with
    | none => true
    | some t => decide (2 ^ s.fld WIAN_TS_CFG_PER * 1000 ≤ (s.clk.tb - t).toNat)
  if s.linkUp l ∧ s.exchanges l ∧ due then
    linkQueue l (mkFrame 0xB 0 0 0 0 0 0 0 []) (s.setWlink l { k with lastTs := some s.clk.tb })
  else s

/-- `a ÷ b` rounded to the nearest integer, halves up. -/
def roundDiv (a : Int) (b : Nat) : Int := (2 * a + b).fdiv (2 * b)

/-- A signed number as a register field of `w` bits holds it when it is not negative: limited to the field. -/
def clampNat (v : Int) (w : Nat) : Nat := min v.toNat (2 ^ w - 1)

/-- Does TB run on TCLK alone: on the Monarch, and without an address (Table 12.4)? -/
def State.freeRun (s : State) : Bool := !s.on WIAN_ID_VALID || decide (s.fld WIAN_ID_ADDR = s.fld WIAN_ID_MADDR)

/-- SYNC after an exchange (Table 12.4): `x` is |θ| in sixteenths of a ns. -/
def State.syncOf (s : State) (x : Nat) (stepAllowed : Bool) : Nat :=
  if s.freeRun then 0
  else if x ≤ 16 then 2
  else if x ≤ s.fld WIAN_TS_CFG_STEPMAX * 16 ∨ stepAllowed then 1
  else 3

/-- TB becomes `t` sixteenths of a ns. -/
def setTb16 (t : BitVec 64) (s : State) : State :=
  setTb (t / 16) (s.setFld TBU_TB_STAT_FRAC (t.toNat % 16))

/-- A TSYNC reply on the parent link (R394 to R396): θ, the step still allowed, or the correction to slew. -/
def tsyncParent (l : Nat) (o : Int) (s : State) : State :=
  let k := s.wlink l
  let offs := (o :: k.offs).take 16
  let asym : Int := (BitVec.ofNat 16 (s.fld (WIAN_LINK_CAL_ASYM l))).toInt
  let θ := roundDiv (offs.foldl (fun a x => a + x) 0) (2 * offs.length) - asym
  let s := s.setReg WIAN_TS_OFFS (BitVec.ofInt 32 θ)
  if s.freeRun then s
  else
    let step := s.wian.stepOk && !s.on TBU_TICK_STAT_STARTED
    let s := setSync (s.syncOf θ.natAbs step) s
    let s := { s with wian := { s.wian with stepOk := false, corr := if step then 0 else -θ } }
    if step then setTb16 (s.tb16 - BitVec.ofInt 64 θ) (s.setWlink l { k with offs := [] })
    else s.setWlink l { k with offs := offs }

/-- A TSYNC frame takes effect (R394): a request is answered; a reply updates DELAY, LEN and θ. -/
def tsyncEffect (l : Nat) (f : Frame) (s : State) : State :=
  let now := s.tb16
  if f.fld 216 8 = 0 then
    linkQueue l (mkFrame 0xB 0 0 0 0 0 0 (now.toNat + 2 ^ 152) []) s
  else match (s.wlink l).t1 with
    | none => s
    | some t1 =>
      let t2 : BitVec 64 := BitVec.ofNat 64 (f.fld 64 64)
      let t3 : BitVec 64 := BitVec.ofNat 64 (f.fld 128 32 + f.fld 176 32 * 2 ^ 32)
      let d := ((now - t1) - (t3 - t2)).toInt
      let o := (t1 - t2).toInt + (now - t3).toInt
      let k := { s.wlink l with t1 := none, delays := (d :: (s.wlink l).delays).take 256 }
      let s := s.setWlink l k
      let delay := roundDiv (k.delays.foldl (fun a x => a + x) 0) (2 * k.delays.length)
      let s := s.setFld (WIAN_LINK_DELAY_DELAY l) (clampNat delay 24)
      let len := roundDiv ((delay - s.fld (WIAN_LINK_CAL_FIX l)) * s.fld (WIAN_LINK_VF_VF l)) 160000
      let s := s.setFld (WIAN_LINK_LEN_CM l) (clampNat len 24)
      if s.on (WIAN_LINK_STAT_PARENT l) then tsyncParent l o s else s

/-- SLEW_CORRECTION (R395): 1/16 ns of TB added or removed. A carry makes the update advance TB by 2, a borrow by 0. -/
def slewCorrection (s : State) : State :=
  let c := s.wian.corr
  if s.fld WIAN_STAT_SYNC = 0 ∨ c = 0 ∨ s.clk.tclk + 1 < s.wian.lastCorr + 2 ^ s.fld WIAN_TS_CFG_SLEW then s
  else
    let s := { s with clk := { s.clk with tclk := s.clk.tclk + 1 } }
    let s := { s with wian := { s.wian with lastCorr := s.clk.tclk, corr := if 0 < c then c - 1 else c + 1 } }
    let f := s.fld TBU_TB_STAT_FRAC
    if 0 < c then
      if f = 15 then setTb (s.clk.tb + 2) (s.setFld TBU_TB_STAT_FRAC 0) else setTb (s.clk.tb + 1) (s.setFld TBU_TB_STAT_FRAC (f + 1))
    else if f = 0 then s.setFld TBU_TB_STAT_FRAC 15
    else setTb (s.clk.tb + 1) (s.setFld TBU_TB_STAT_FRAC (f - 1))

/-! ### Transfer channels: frames out and timeouts -/

/-- The next tag of channel `c`, none of its unanswered frames' (R402). -/
def TxChan.nextTag (k : TxChan) (c : Nat) : Nat :=
  let free := fun (i : Nat) => !k.frames.any (fun f => decide (f.tag.toNat = c * 64 + (k.count + i) % 64) && f.res.isNone)
  c * 64 + (k.count + (firstBelow free 64).getD 0) % 64

/-- May channel `c` issue a frame now (R402, R391)? -/
def State.txReady (s : State) (c : Nat) : Bool :=
  let k := s.chan c
  s.on (WIAN_TX_STAT_BUSY c) && !k.abort && (firstFail k.frames).isNone && decide (k.issued < s.fld (WIAN_TX_CMD_LEN c)) &&
    decide (k.frames.countP (fun f => f.res.isNone) < 16) && !s.discovering

/-- The next frame of channel `c` leaves with the results `rs` of its local reads: by its route, to this device itself, or UNREACH without a
route (R390, R402). -/
def txSend (c : Nat) (rs : List MemRes) (s : State) : State :=
  let k := s.chan c
  let rem := (s.fld (WIAN_TX_REM_REM c) + k.issued) % 2 ^ 23
  let n := min (s.fld (WIAN_TX_CMD_LEN c) - k.issued) (16 - rem % 16)
  let dev := s.fld (WIAN_TX_CMD_DEV c)
  let tag := k.nextTag c
  let bad := badGran rs
  let fr : TxFrame := { tag := BitVec.ofNat 8 tag, n := n, since := s.clk.tb, res := bad.map (fun b => (0, b.2, true)) }
  let s := s.setChan c { k with frames := k.frames ++ [fr], issued := k.issued + n, count := k.count + 1 }
  if bad.isSome then txSettle c s
  else
    let f := if s.fld (WIAN_TX_CTL_DIR c) = 0 then
        mkFrame 1 (n - 1) 0 dev s.ownAddr tag s.fabricTick rem (rs.map MemRes.data ++ List.replicate ((n + 1) / 2 * 2 - n) 0)
      else mkFrame 3 (n - 1) 0 dev s.ownAddr tag s.fabricTick rem []
    let p := s.routeOf dev
    if p < 4 ∧ s.mayForward p then linkQueue p f s
    else if p = 4 then drainLink 4 [] (drainLink 4 [] (holdOwn f s))
    else txResult c tag (0, 6, false) (s.raiseBit WIAN_STAT_BADFRM)

/-- TX_FRAME_ISSUE (R402): the local reads of the next frame, then the frame once they have ended. -/
def txIssue (c : Nat) (us : List Upset) (s : State) : State :=
  if !s.txReady c then s
  else
    let k := s.chan c
    let rem := (s.fld (WIAN_TX_REM_REM c) + k.issued) % 2 ^ 23
    let loc := s.fld (WIAN_TX_LOC_LOC c) + k.issued
    let n := min (s.fld (WIAN_TX_CMD_LEN c) - k.issued) (16 - rem % 16)
    let reads := if s.fld (WIAN_TX_CTL_DIR c) = 0 then (List.range n).map (fun i => s.txAccess c (loc + i) (.tx c i) .read) else []
    match askAll reads us s with
    | (none, s) => s
    | (some rs, s) => txSend c rs (txWithdraw c s)

/-- TX_FRAME_TIMEOUT: a frame without a response after TIMEOUT × 64 µs ends with UNREACH (R402). -/
def txTimeout (c tag : Nat) (s : State) : State :=
  let k := s.chan c
  match k.frames.find? (fun f => decide (f.tag.toNat = tag) && f.res.isNone) with
  | some f =>
    if s.fld (WIAN_TX_CTL_TIMEOUT c) * 64000 ≤ (s.clk.tb - f.since).toNat then txResult c tag (0, 6, false) s else s
  | none => s

/-! ### Reset (R404) -/

/-- Warm reset of the fabric. -/
def wianWarm (s : State) : State :=
  let s := (List.range 4).foldl (fun s c =>
    let busy := s.on (WIAN_TX_STAT_BUSY c)
    let s := ((s.setReg (WIAN_TX_LOC c) 0).setReg (WIAN_TX_REM c) 0).setReg (WIAN_TX_CMD c) 0
    let s := (s.setReg (WIAN_TX_CTL c) 0x1000000).setReg (WIAN_TX_STAT c) 0
    let s := s.setChan c TxChan.init
    if busy then (s.raiseBit (WIAN_TX_STAT_ERR c)).setFld (WIAN_TX_STAT_CAUSE c) 9 else s) s
  let s := s.clearFld WIAN_CTL_ING_EN
  let s := ((s.setFld WIAN_STAT_DSTATE 0).setFld WIAN_STAT_ERRC 0).clearFld WIAN_STAT_MONARCH
  let s := { s with wian := { s.wian with serving := [] } }
  let s := ((s.clearFld WIAN_STAT_LATE).clearFld WIAN_STAT_REFUSED).clearFld WIAN_STAT_BADFRM
  let s := (s.setReg WIAN_RT_IDX 0).setReg WIAN_TS_CFG (regInit s.build WIAN_TS_CFG)
  let s := s.setReg WIAN_TS_OFFS 0
  (List.range 4).foldl (fun s l =>
    let s := (s.setReg (WIAN_LINK_CTL l) 1).setReg (WIAN_LINK_CNT l) 0
    let s := (s.setReg (WIAN_LINK_DELAY l) 0).setReg (WIAN_LINK_LEN l) 0
    let s := ((s.setReg (WIAN_LINK_PART_ID l) 0).setReg (WIAN_LINK_PART_SER_LO l) 0).setReg (WIAN_LINK_PART_SER_HI l) 0
    (s.setReg (WIAN_LINK_PART_INFO l) 0).clearFld (WIAN_LINK_STAT_PARTV l)) s

/-- Power leaves the WIAN island in SLEEP, and returns (R539): every link is DOWN, SYNC is FREE. -/
def wianSleep (s : State) : State :=
  let s := (List.range 4).foldl (fun s l =>
    (s.setFld (WIAN_LINK_STAT_STATE l) 0).setWlink l { WLink.init with since := s.clk.tb }) s
  { s.setFld WIAN_STAT_SYNC 0 with wian := { s.wian with corr := 0, stepOk := false } }

end Sys2Proof.Machine
end

