-- ==== Sys2Proof/Machine/Hlt.lean ====
section
/-! DEFINITION. Health monitoring and spare capacity (chapter 17): the error log, swaps, wear, self-tests, the rail watch, thermal sensing and
the retention image. -/

namespace Sys2Proof.Machine

/-! ### The error log (R512) -/

/-- A record of class `cls` with its CODE, UNIT and row or lane. -/
def hltLog (cls code unit row : Nat) (s : State) : State :=
  if 64 ≤ s.hlt.log.length then raise 422 (s.raiseBit HLT_LOG_STAT_OVF)
  else
    let r := BitVec.ofNat 128 (s.clk.tb.toNat + (cls + code * 2 ^ 8 + (unit % 2 ^ 16) * 2 ^ 16) * 2 ^ 64 + row * 2 ^ 96)
    let s' := { s with hlt := { s.hlt with log := s.hlt.log ++ [r] } }
    if s.hlt.log = [] then raise 421 s' else s'

/-- LOG_POP: a write of 1 to HLT_LOG_POP. -/
def logPop (s : State) : State := { s with hlt := { s.hlt with log := s.hlt.log.drop 1 } }

/-- HLT_LOG_Dm: word `m` of the oldest record. -/
def State.logWord (s : State) (m : Nat) : Reg :=
  match s.hlt.log with
  | [] => 0
  | r :: _ => r.extractLsb' (32 * m) 32

/-! ### Row spares and the retention image (R513 to R515) -/

/-- The home rows of the row spares of logical bank `b`. -/
def State.sparesOf (s : State) (b : Nat) : List Nat := Tbl.get [] b s.hlt.spares

def State.img (s : State) (k : Nat) : Reg := Tbl.get 0 k s.hlt.img
def setImg (k : Nat) (v : Reg) (s : State) : State := { s with hlt := { s.hlt with img := Tbl.set 0 k v s.hlt.img } }

/-- The row-spare words of bank `b` in the image. -/
def imageBank (b : Nat) (s : State) : State :=
  let l := s.sparesOf b
  let k := 19 + b / 2
  let s := setImg k (BitVec.ofNat 32 (setBitsOf (s.img k).toNat (16 * (b % 2)) 16 l.length)) s
  (List.range 32).foldl (fun s j =>
    setImg (1035 + 32 * b + j) (BitVec.ofNat 32 (l.getD (2 * j) 0 + l.getD (2 * j + 1) 0 * 2 ^ 16)) s) s

/-- A map change rewrites the image and counts its generation (R514); `b` is the bank whose row spares changed. -/
def imageWrite (b : Option Nat) (s : State) : State :=
  let s := setImg 0 0x5A170204 s
  let s := setImg 2 (s.reg HLT_MAP_SEQ) (setImg 1 (s.reg HLT_MAP_POD) s)
  let s := (List.range 16).foldl (fun s k => setImg (3 + k) (s.reg (HLT_MAP_BANK k)) s) s
  let s := match b with
    | some b => imageBank b s
    | none => s
  setImg 66059 (s.img 66059 + 1) s

/-- The row spares of bank `b` that the image holds. -/
def State.imgSpares (s : State) (b : Nat) : List Nat :=
  let n := min 64 (bitsOf (s.img (19 + b / 2)).toNat (16 * (b % 2)) 7)
  (List.range n).map (fun j => bitsOf (s.img (1035 + 32 * b + j / 2)).toNat (16 * (j % 2)) 12)

/-- The BORROWED entries of bank `b` become FREE. -/
def freeBorrowed (b : Nat) (s : State) : State :=
  { s with epc := { s.epc with remap := Tbl.mapVal Entry.free (fun k e => if k / 512 = b ∧ e.borrowed then Entry.free else e) s.epc.remap } }

/-- Entry 511 − `i` of bank `b` is BORROWED with HOME `h` where it is FREE: HLT sets BORROWED on no other (R88, Table 17.1). -/
def borrow (b i h : Nat) (s : State) : State :=
  if s.estateAt b (511 - i) = .free then
    s.setEntry (512 * b + (511 - i)) { home := BitVec.ofNat 12 h, group := 0, epoch := 0, owner := 0, valid := true, borrowed := true }
  else s

/-- The row spares of bank `b` as a list loads them. -/
def loadSpares (b : Nat) (l : List Nat) (s : State) : State :=
  let s := freeBorrowed b s
  let s := { s with hlt := { s.hlt with spares := Tbl.set [] b l s.hlt.spares } }
  checkLow b (l.foldl (fun (a : Nat × State) h => (a.1 + 1, borrow b a.1 h a.2)) (0, s)).2

/-- No spare in use: the maps of Table 17.1. -/
def defaultMaps (s : State) : State :=
  let s := (s.hlt.spares.map Prod.fst).foldl (fun s b => loadSpares b [] s) s
  let s := (s.setReg HLT_MAP_POD 0).setReg HLT_MAP_SEQ 0xFFFF
  (List.range 16).foldl (fun s k => s.setReg (HLT_MAP_BANK k) 0) s

/-- The banks with row spares in the image. -/
def State.imgBanks (s : State) : List Nat :=
  (s.hlt.img.filter (fun e => decide (19 ≤ e.1) && decide (e.1 < 1035))).flatMap (fun e => [2 * (e.1 - 19), 2 * (e.1 - 19) + 1])

/-- HLT loads the maps from the image, or without a valid word 0 the maps with no spare in use, IMGBAD and E423 (R515). -/
def imageLoad (s : State) : State :=
  let s := defaultMaps s
  if s.img 0 = 0x5A170204 then
    let s := (s.setReg HLT_MAP_POD (s.img 1 &&& 0x1FFFF)).setReg HLT_MAP_SEQ (s.img 2 &&& 0xFFFF)
    let s := (List.range 16).foldl (fun s k => s.setReg (HLT_MAP_BANK k) (s.img (3 + k) &&& 0x807F)) s
    s.imgBanks.foldl (fun s b => if b < 127 * s.build.slices then loadSpares b (s.imgSpares b) s else s) s
  else raise 423 (s.raiseBit HLT_STAT_IMGBAD)

/-- IMAGE_LOAD: a write of 1 to HLT_CTL.LOAD (R515). -/
def imageLoadCmd (s : State) : State := if s.on TBU_TICK_STAT_STARTED then s.raiseBit HLT_STAT_LOADERR else imageLoad s

/-- IMAGE_DATA_WRITE: a write of HLT_IMG_DATA. -/
def imageData (v : Reg) (s : State) : State :=
  let k := s.fld HLT_IMG_SEL_WORD
  if s.on TBU_TICK_STAT_STARTED ∨ 66060 ≤ k then s else setImg k v s

/-! ### Staging (R504, R506) -/

/-- The spare Pod: the working Pod beyond those that serve LP0 to LP15. -/
def State.sparePod (s : State) : Option Nat := workingPod (s.fld HLT_MAP_POD_FAILED) s.build.lps 0 s.build.pods

/-- Why a GO is refused: the ECAUSE of R504, in its order; none when it stages the swap. -/
def State.swapCause (s : State) (kind grp unit row : Nat) : Option Nat :=
  let b := grp * 127 + unit
  let noSpare :=
    if kind = 0 then s.sparePod.isNone
    else if kind = 1 then decide (grp < s.build.clusters) && decide (s.retired grp ≠ 15)
    else if kind = 2 then decide (grp < s.build.slices) && s.on (HLT_MAP_BANK_VALID grp)
    else if kind = 4 then decide (grp < 4) && s.hlt.laneUsed.getLsbD grp
    else false
  let bad :=
    if kind = 0 then decide (s.build.pods ≤ unit) || decide (s.sparePod = some unit) || decide (bitsOf (s.fld HLT_MAP_POD_FAILED) unit 1 = 1)
    else if kind = 1 then decide (s.build.lss ≤ unit) || !decide (unit / 8 = grp)
    else if kind = 2 then decide (s.build.slices ≤ grp) || decide (127 ≤ unit)
    else if kind = 3 then decide (s.build.slices ≤ grp) || decide (127 ≤ unit) || decide (row ∈ s.sparesOf b)
    else if kind = 4 then decide (4 ≤ grp) || decide (5 ≤ unit) || decide (s.fld (WIAN_LINK_STAT_SPARE grp) = unit)
    else false
  if s.on HLT_SWAP_STAT_STAGED then some 1
  else if noSpare then some 2
  else if bad then some 3
  else if kind = 3 ∧ 64 ≤ (s.sparesOf b).length then some 4
  else if 5 ≤ kind then some 5
  else none

/-- A swap is staged: E417; every kind but a memory bank is READY at once (R506). -/
def stageSwap (kind grp unit row : Nat) (s : State) : State :=
  let s := s.setReg HLT_SWAP (BitVec.ofNat 32 (kind + grp * 2 ^ 4 + unit * 2 ^ 8 + row * 2 ^ 16))
  let s := (s.raiseBit HLT_SWAP_STAT_STAGED).setFld HLT_SWAP_STAT_ROWS 0
  let s := if kind = 4 then s.raiseBit (WIAN_LINK_STAT_LANE_DEG grp) else s
  raise 417 (s.setFld HLT_SWAP_STAT_READY (if kind = 2 then 0 else 1))

/-- SWAP_STAGE: a write of HLT_SWAP with GO = 1 (R504). -/
def swapStage (v : Reg) (s : State) : State :=
  let w := v.toNat
  match s.swapCause (bitsOf w 0 3) (bitsOf w 4 4) (bitsOf w 8 7) (bitsOf w 16 12) with
  | some c => (s.raiseBit HLT_SWAP_STAT_ERR).setFld HLT_SWAP_STAT_ECAUSE c
  | none => stageSwap (bitsOf w 0 3) (bitsOf w 4 4) (bitsOf w 8 7) (bitsOf w 16 12) s

/-- An automatic swap (R501, R504): staged, or logged with class 8 and E418. -/
def autoSwap (kind grp unit row : Nat) (s : State) : State :=
  if !s.on HLT_CTL_AUTO then s
  else match s.swapCause kind grp unit row with
    | some c => raise 418 (hltLog 8 c unit row s)
    | none => stageSwap kind grp unit row s

/-- BANK_COPY_DONE: the copy walk ends (R506). -/
def bankCopyDone (s : State) : State :=
  if s.on HLT_SWAP_STAT_STAGED ∧ s.fld HLT_SWAP_KIND = 2 ∧ ¬ s.on HLT_SWAP_STAT_READY then
    (s.setFld HLT_SWAP_STAT_ROWS 4608).raiseBit HLT_SWAP_STAT_READY
  else s

/-! ### Applying a swap (R507, R508) -/

/-- Physical row `src` copied to physical row `dst`, with its tag: what its read finds to correct is corrected first (R55, R298), and an
uncorrectable row is copied with its data and check bits unchanged (R506). -/
def copyRow (src dst : Nat) (s : State) : State :=
  let s := correctTag src s
  let s := if s.rowEcc src = some .single then correctRow src s else s
  let e := s.rowEcc src
  let s := s.setRow dst (s.rowData src) (s.rowTag src)
  { s with mem := { s.mem with ecc := Tbl.set none dst e s.mem.ecc } }

/-- Every row of logical bank `b` copied into the spare bank of its slice, each to its logical place (R506). -/
def copyBank (b : Nat) (s : State) : State :=
  let from0 := s.rowKey b 0
  let to0 := ((b / 127) * 128 + 127) * 4608
  let place := fun (r : Nat) => if r < 4096 then s.homeRow b r else r
  let skip := fun (r : Nat) => decide (4096 ≤ r) && (s.entry (512 * b + (r - 4096))).borrowed
  (List.range 4608).foldl (fun t r => if skip r then t else copyRow (from0 + place r) (to0 + r) t) s

/-- Every context of LSn that was resident on core `c` is in the context store, and nothing is live (R350). The context that was live becomes READY,
as no context runs on the spare before its first dispatch (DESIGN CHOICE: assumption 98). -/
def evictAll (c : CoreId) (s : State) : State :=
  let s := depart c (fun x => if x.state = .running then { x with state := .ready } else x) (abandon c s)
  (List.range 4).foldl (fun s b => evictBank c (b + 1) s) s

/-- The registers and sets of the retired core in the spare (R220, R325, R350). -/
def takeOver (old new : Nat) (s : State) : State :=
  let po := corePage (.seq old)
  let pn := corePage (.seq new)
  let s := s.setReg (SEQ_CORE_CFG pn) (s.reg (SEQ_CORE_CFG po))
  let s := s.setReg (SEQ_EXC_CFG pn) (s.reg (SEQ_EXC_CFG po))
  let s := s.setReg (SEQ_SCHED_CFG pn) (s.reg (SEQ_SCHED_CFG po))
  let k := s.core (.seq old)
  s.setCore (.seq new) { s.core (.seq new) with cs := k.cs, gtc := k.gtc, splitEn := k.splitEn, det := k.det, disp := k.disp }

/-- Is physical Pod `p` frozen through the logical Pod it serves (R490)? -/
def State.podFrozen (s : State) (p : Nat) : Bool :=
  match s.lpOfPod p with
  | some k => decide (bitsOf (s.fld ⟨DBG_FREEZE, 0, 16⟩) k 1 = 1)
  | none => false

/-- May the staged swap be applied at this tick instant (R507)? -/
def State.swapReady (s : State) : Bool :=
  let kind := s.fld HLT_SWAP_KIND
  let unit := s.fld HLT_SWAP_UNIT
  let b := s.fld HLT_SWAP_GRP * 127 + unit
  if kind = 0 then
    (List.range s.build.pods).all (fun p => decide (p < unit) || (!s.podFrozen p && !s.on (POD_STAT_BUSY p) && (s.runOn p).isNone))
  else if kind = 1 then
    let k := s.core (.seq (s.seqOfLs unit))
    decide (k.level = 0) && k.need.isNone && decide (k.dstate = 0)
  else if kind = 3 then decide (s.estateAt b (511 - (s.sparesOf b).length) = .free)
  else true

/-- The staged swap takes effect. -/
def swapEffect (s : State) : State :=
  let kind := s.fld HLT_SWAP_KIND
  let grp := s.fld HLT_SWAP_GRP
  let unit := s.fld HLT_SWAP_UNIT
  let row := s.fld HLT_SWAP_ROW
  let b := grp * 127 + unit
  if kind = 0 then imageWrite none (s.setFld HLT_MAP_POD_FAILED (setBitsOf (s.fld HLT_MAP_POD_FAILED) unit 1 1))
  else if kind = 1 then
    let old := s.seqOfLs unit
    let new := 9 * (unit / 8) + 8
    let s := takeOver old new (evictAll (.seq old) s)
    imageWrite none (s.setFld ⟨HLT_MAP_SEQ, 4 * (unit / 8), 4⟩ (unit % 8))
  else if kind = 2 then
    let s := copyBank b s
    let s := (s.setFld (HLT_MAP_BANK_LBANK grp) unit).setFld (HLT_MAP_BANK_VALID grp) 1
    imageWrite (some b) (loadSpares b [] s)
  else if kind = 3 then
    let i := (s.sparesOf b).length
    let s := copyRow (s.rowKey b row) (s.rowKey b (4096 + (511 - i))) s
    let s := checkLow b (borrow b i row s)
    imageWrite (some b) { s with hlt := { s.hlt with spares := Tbl.set [] b (s.sparesOf b ++ [row]) s.hlt.spares } }
  else
    let s := (s.setFld (WIAN_LINK_STAT_SPARE grp) unit).clearFld (WIAN_LINK_STAT_LANE_DEG grp)
    let s := if s.lstate grp = 0 ∧ s.on WIAN_CTL_EN ∧ s.on (WIAN_LINK_CTL_EN grp) then setLinkState grp 1 s else s
    imageWrite none { s with hlt := { s.hlt with laneUsed := s.hlt.laneUsed ||| (1 <<< grp) } }

/-- SWAP_APPLY: in the window of R37, which a freeze flip and a tick flip that waited for it do not open (R110), a READY swap whose conditions
hold (R507, R508). Soft errors may strike the rows it reads. -/
def swapApply (us : List Upset) (s : State) : State :=
  if s.epc.flip.any Flip.swaps ∧ s.on HLT_SWAP_STAT_STAGED ∧ s.on HLT_SWAP_STAT_READY ∧ s.swapReady then
    let kind := s.fld HLT_SWAP_KIND
    let unit := s.fld HLT_SWAP_UNIT
    let row := s.fld HLT_SWAP_ROW
    let s := swapEffect (if kind = 2 ∨ kind = 3 then strikeRows us s else s)
    let s := ((s.raiseBit HLT_SWAP_STAT_DONE).clearFld HLT_SWAP_STAT_STAGED).clearFld HLT_SWAP_STAT_READY
    raise 416 (hltLog 7 kind unit row s)
  else s

/-! ### Wear (Table 17.2, R501 to R503) -/

/-- The logical bank that physical bank `pb` (`slice * 128 + bank`) serves. -/
def State.lbankServed (s : State) (pb : Nat) : Option Nat :=
  let sl := pb / 128
  (firstBelow (fun k => decide (s.pbankOf sl k = pb % 128)) 127).map (fun k => sl * 127 + k)

/-- A row in error that HLT handles: logged, and a row spare staged for a home row. -/
def rowFinding (k : Nat) (ue : Bool) (s : State) : State :=
  let s := hltLog (if ue then 2 else 1) (if ue then 0 else 1) (k / 4608) (k % 4608) s
  match s.lbankServed (k / 4608) with
  | some b => if k % 4608 < 4096 then autoSwap 3 (b / 127) (b % 127) (k % 4608) s else s
  | none => s

/-- The errors found since HLT last looked: an uncorrectable row, or a second corrected error of one row in a window with ROWEN. -/
def wearRows (s : State) : State :=
  let l := s.hlt.found
  l.foldl (fun s e =>
    if e.2 then rowFinding e.1 true s
    else
      let n := Tbl.get 0 e.1 s.hlt.ceRows + 1
      let s := { s with hlt := { s.hlt with ceRows := Tbl.set 0 e.1 n s.hlt.ceRows } }
      if n = 2 ∧ s.on HLT_CE_CFG_ROWEN then rowFinding e.1 false s else s) { s with hlt := { s.hlt with found := [] } }

/-- The corrected-error counters sampled once per tick (R503): a physical bank that reaches THR in the window is logged once in it, and a
bank swap staged. -/
def wearBanks (s : State) : State :=
  let s := s.mem.ceCnt.foldl (fun s e =>
    let base := Tbl.get 0 e.1 s.hlt.ceBase
    let n := if e.2 < base then e.2 else e.2 - base
    if Tbl.get false e.1 s.hlt.ceSeen = false ∧ (s.fld HLT_CE_CFG_THR ≤ n ∨ e.2 = 0xFFFF) then
      let s := { s with hlt := { s.hlt with ceSeen := Tbl.set false e.1 true s.hlt.ceSeen } }
      let s := hltLog 1 0 e.1 0 s
      match s.lbankServed e.1 with
      | some b => autoSwap 2 (b / 127) (b % 127) 0 s
      | none => s
    else s) s
  if 2 ^ s.fld HLT_CE_CFG_WIN ≤ s.hlt.ceTicks + 1 then
    { s with hlt := { s.hlt with ceBase := s.mem.ceCnt, ceTicks := 0, ceSeen := [], ceRows := [] } }
  else { s with hlt := { s.hlt with ceTicks := s.hlt.ceTicks + 1 } }

/-- HLT at a tick instant; `strobe`: the instant sent its strobe (R443). -/
def hltTick (strobe : Bool) (s : State) : State :=
  let s := wearBanks (wearRows s)
  { s with hlt := { s.hlt with spareDue := strobe, mapDue := false, turn := (s.hlt.turn + 1) % s.build.lps } }

/-- HLT at the start of the quiesce margin: a mapped Pod may be tested (Table 17.3). -/
def hltMargin (s : State) : State := { s with hlt := { s.hlt with mapDue := true } }

/-- SELFTEST_START on physical Pod `p` (R502, Table 17.3). -/
def selftestStart (p : Nat) (s : State) : State :=
  let go := fun (s : State) => (s.raiseBit (POD_STAT_SELFTEST p)).setFld (POD_RUNS_COUNT p) (s.fld (POD_RUNS_COUNT p) + 1)
  if s.on (POD_STAT_SELFTEST p) then s
  else if s.sparePod = some p ∧ s.on HLT_CTL_ST_EN ∧ s.hlt.spareDue then go { s with hlt := { s.hlt with spareDue := false } }
  else if s.hlt.mapDue ∧ s.on HLT_CTL_ST_MAPPED ∧ s.podOfLp s.hlt.turn = some p ∧ !s.on (POD_STAT_BUSY p) ∧ (s.runOn p).isNone ∧
      !s.podFrozen p then go { s with hlt := { s.hlt with mapDue := false } }
  else s

/-- SELFTEST_DONE on physical Pod `p`: a mismatch is logged and raises E(128 + 4n + 3); a spare is marked failed, a mapped Pod swapped. -/
def selftestDone (p : Nat) (ok : Bool) (s : State) : State :=
  if !s.on (POD_STAT_SELFTEST p) then s
  else
    let s := s.clearFld (POD_STAT_SELFTEST p)
    if ok then s
    else
      let s := raise (128 + 4 * p + 3) (hltLog 3 0 p 0 s)
      if s.sparePod = some p then
        imageWrite none (s.setFld HLT_MAP_POD_FAILED (setBitsOf (s.fld HLT_MAP_POD_FAILED) p 1 1))
      else autoSwap 0 0 p 0 s

/-- A supervisor lockstep mismatch is recorded (R505). -/
def lockstepFound (s : State) : State := raise 420 (hltLog 4 0 32 0 (s.raiseBit HLT_STAT_LSMIS))

/-- LANE_MARGIN_LOW (R385, R501): a lane margin below its threshold. -/
def laneMargin (l lane margin : Nat) (s : State) : State :=
  if l < 4 ∧ lane < 5 ∧ margin < s.fld HLT_LANE_CFG_THR then autoSwap 4 l lane 0 (hltLog 5 0 l lane s) else s

/-- LINK_DOWN from the lanes (R384, R385): the link goes DOWN, and for a lane that failed hard HLT stages the spare. -/
def laneFail (l : Nat) (lane : Option (BitVec 3)) (s : State) : State :=
  let s := linkLost l s
  match lane with
  | some n => autoSwap 4 l n.toNat 0 s
  | none => s

/-- The margins a training reports, held against the threshold (Table 17.2). -/
def bulkMargin (n : Nat) (rd wr : BitVec 8) (s : State) : State :=
  let t := s.fld HLT_LANE_CFG_THR
  if rd.toNat < t ∨ wr.toNat < t then hltLog 9 0 n 0 s else s

/-! ### The rail watch (R509, R510) -/

/-- The mean of the first 16 samples of a list of at least 16. -/
def mean16 (l : List (BitVec 12)) : Nat := (l.take 16).foldl (fun a x => a + x.toNat) 0 / 16

/-- The prediction of R510 from A and D. -/
def State.railFires (s : State) (a : Nat) (d : Int) : Bool :=
  let vmin := s.fld MOTH_RAIL_LIM_VMIN
  decide (a ≤ vmin) || (decide (d < 0) && decide (16 * ((a : Int) - vmin) ≤ s.fld MOTH_RAIL_CFG_TPRED * (-d)))

/-- RAIL_SAMPLE: the ADC takes a sample. -/
def railSample (code : BitVec 12) (s : State) : State :=
  if !s.on MOTH_RAIL_CFG_EN then s
  else
    let l := (code :: s.hlt.rail).take 32
    let s := { s with hlt := { s.hlt with rail := l } }
    if l.length < 16 then s
    else
      let sleep := decide (s.fld CRP_PWR_STAT_STATE = 4)
      let a := mean16 l
      let d : Int := if sleep ∨ l.length < 32 then 0 else (a : Int) - mean16 (l.drop 16)
      let vlow := s.fld MOTH_RAIL_LIM_VLOW
      let fell := decide (a < vlow) && s.hlt.railA.all (fun p => decide (vlow ≤ p))
      let s := (s.setFld MOTH_RAIL_DATA_A a).setFld MOTH_RAIL_STAT_SLOPE (BitVec.ofInt 16 d).toNat
      let s := s.setFld MOTH_RAIL_DATA_MIN (if s.hlt.minSet then min a (s.fld MOTH_RAIL_DATA_MIN) else a)
      let s := { s with hlt := { s.hlt with railA := some a, minSet := true, armed := s.hlt.armed || decide (vlow < a) } }
      let s := if fell then raise 2 (s.raiseBit MOTH_RAIL_STAT_LOW) else s
      if !sleep ∧ s.hlt.armed ∧ s.railFires a d then
        let s := raise 2 ({ s with hlt := { s.hlt with armed := false } }.raiseBit MOTH_RAIL_STAT_PRED)
        if s.on MOTH_RAIL_CFG_FREEZE_EN ∧ s.awake then
          requestFreeze (hltLog 10 0 0 0 (s.raiseBit MOTH_RAIL_STAT_FROZE))
        else s
      else s

/-- RAIL_DATA_READ: MIN is returned and cleared, unless the read is quiet. -/
def railRead (quiet : Bool) (s : State) : Reg × State :=
  let v := s.reg MOTH_RAIL_DATA
  (v, if quiet then s else { s.setFld MOTH_RAIL_DATA_MIN 0 with hlt := { s.hlt with minSet := false } })

/-! ### Thermal sensing (R511) -/

/-- THERMAL_SAMPLE: HLT reads a sensor, in RUN and DOZE. -/
def thermalSample (k : BitVec 4) (t : BitVec 12) (s : State) : State :=
  if !s.awake then s
  else
    let n := k.toNat
    let reach := fun (lim : Nat) => (BitVec.ofNat 12 lim).sle t &&
      (Tbl.get none n s.hlt.temp).all (fun p => !(BitVec.ofNat 12 lim).sle p)
    let high := reach (s.fld ⟨HLT_THERM_CFG, 0, 12⟩)
    let crit := reach (s.fld ⟨HLT_THERM_CFG, 16, 12⟩)
    let hot := match Tbl.get none n s.hlt.hot with
      | some m => if t.slt m then m else t
      | none => t
    let s := { s with hlt := { s.hlt with temp := Tbl.set none n (some t) s.hlt.temp, hot := Tbl.set none n (some hot) s.hlt.hot } }
    let s := if high then raise 3 (hltLog 6 0 n 0 (s.setFld ⟨HLT_THERM_STAT, n, 1⟩ 1)) else s
    if crit then requestFreeze (s.setFld ⟨HLT_THERM_STAT, 16 + n, 1⟩ 1) else s

/-- THERM_DATA_READ: the selected sensor; MAX is cleared, unless the read is quiet. -/
def thermRead (quiet : Bool) (s : State) : Reg × State :=
  let n := s.fld HLT_THERM_SEL_SENSOR
  let v := ((Tbl.get none n s.hlt.temp).getD 0).toNat + ((Tbl.get none n s.hlt.hot).getD 0).toNat * 2 ^ 16
  (BitVec.ofNat 32 v, if quiet then s else { s with hlt := { s.hlt with hot := Tbl.set none n none s.hlt.hot } })

/-! ### Reset (R516) -/

/-- Warm reset of HLT. -/
def hltWarm (s : State) : State :=
  let lanes := s.on HLT_SWAP_STAT_STAGED && decide (s.fld HLT_SWAP_KIND = 4)
  let s := if lanes then s.clearFld (WIAN_LINK_STAT_LANE_DEG (s.fld HLT_SWAP_GRP)) else s
  let s := ((s.setReg HLT_STAT 0).setReg HLT_SWAP 0).setReg HLT_SWAP_STAT 0
  let s := ((s.setReg HLT_ROW_SEL 0).setReg HLT_THERM_SEL 0).setReg HLT_THERM_STAT 0
  { s.setReg HLT_IMG_SEL 0 with hlt := { s.hlt with temp := [], hot := [], found := [], spareDue := false, mapDue := false } }

end Sys2Proof.Machine
end

