-- ==== Sys2Proof/Machine/Pmu.lean ====
section
/-! DEFINITION. The performance monitor (chapter 15): counters and their events, chained pairs, snapshots, the Ringlet and the port windows. -/

namespace Sys2Proof.Machine

/-! ### Event values (Table 15.1) -/

/-- Is an access of physical Pod `p` outstanding, of its load streams (`st` false) or of its store stream? -/
def State.podWaits (s : State) (p : Nat) (st : Bool) : Bool :=
  let f := fun (d : Dest) => match d with
    | .podLd q _ _ => !st && decide (q = p)
    | .podSt q _ => st && decide (q = p)
    | _ => false
  s.arb.reqs.any (fun r => f r.acc.dest) || s.arb.held.any (fun a => f a.dest) || (!st && s.arb.granted.any (fun g => f g.dest))

/-- Does a frame wait for credit on link `l`? -/
def State.creditWait (s : State) (l : Nat) : Bool :=
  let k := s.wlink l
  (List.range 3).any (fun vc => match takeVc vc k.txq with
    | some (f, _) => decide (k.credit.get vc < f.flits k.enc)
    | none => false)

/-- Is the core behind target `t` idle: no context live, at context level? -/
def State.idleCore (s : State) (t : Nat) : Bool :=
  let k := s.core (s.coreOfTarget t)
  if t = 32 then false else decide (t < s.build.lss) && k.live.isNone && decide (k.level = 0)

/-- Event values that only the pipelines fix: the slot categories of R462 but IDLE, and element operations. They are free. -/
def timingEvent (u e : Nat) : Bool := (decide (u = 2) && decide (e ≤ 5)) || (decide (u = 1) && decide (e = 6))

/-- The value event (u, i, e) delivers in a PCLK, with the state's counter of free values. -/
def State.eventValue (s : State) (u i e : Nat) : Nat :=
  let seen := Tbl.get 0 (4096 * u + 64 * i + e) s.pmu.now
  if timingEvent u e then Config.free (s.fresh + 4096 * u + 64 * i + e)
  else if u = 0 then (if e = 0 then 1 else 0)
  else if u = 1 then
    match s.podOfLp i with
    | none => 0
    | some p =>
      if e = 0 then s.fld (POD_STAT_BUSY p)
      else if e = 2 then (s.podWaits p false).toNat
      else if e = 3 then (s.podWaits p true).toNat
      else if e = 7 then s.fld (POD_STAT_PAIRED p)
      else seen
  else if u = 2 then (if e = 6 then 2 * (s.idleCore i).toNat else seen)
  else if u = 3 then
    if e = 3 then s.arb.reqs.countP (fun r => decide (sliceOf s.build r.acc.gran = i)) else seen
  else if u = 4 then (if e = 6 then s.epc.remap.countP (fun x => !decide (s.estate x.2 = .free)) else seen)
  else if u = 5 then (if e = 3 then s.alloc.queue.length else seen)
  else if u = 6 then (if e = 3 then (s.bmpOf i).reads.length else seen)
  else if u = 7 then (if e = 5 then s.hif.txns.length else seen)
  else if u = 8 then (if e = 3 then (s.creditWait i).toNat else seen)
  else seen

/-! ### Counting (R454 to R459) -/

/-- Is counter `n` the odd half of a chained pair? -/
def State.chained (s : State) (n : Nat) : Bool := decide (n % 2 = 1) && s.on (PMU_CFG_CHAIN n)

/-- Does counter `n` change (R456)? -/
def State.counting (s : State) (n : Nat) : Bool := s.on PMU_CTL_EN && s.on (PMU_CFG_EN n)

/-- `v` added to counter `n` (R458, R459): a carry out of the even half of a pair travels to its odd half; any other sets OVF. -/
def counterAdd (n v : Nat) (s : State) : State :=
  let sum := (s.reg (PMU_CNT n)).toNat + v
  let s := s.setReg (PMU_CNT n) (BitVec.ofNat 32 sum)
  if sum < 2 ^ 32 then s
  else if n % 2 = 0 ∧ s.chained (n + 1) then
    { s with pmu := { s.pmu with carry := Tbl.set false (n / 2) true s.pmu.carry } }
  else
    let s := s.setFld ⟨PMU_OVF (n / 32), n % 32, 1⟩ 1
    if s.on (PMU_CFG_OVIE n) then raise 370 s else s

/-- What the event of counter `n` adds in this PCLK under its MODE (R454). -/
def State.counterStep (s : State) (n : Nat) : Nat × Bool :=
  let v := s.eventValue (s.fld (PMU_CFG_UCLASS n)) (s.fld (PMU_CFG_INST n)) (s.fld (PMU_CFG_EVT n))
  let ge := decide (s.fld (PMU_CFG_THR n) ≤ v)
  let m := s.fld (PMU_CFG_MODE n)
  (if m = 0 then v else if m = 1 then ge.toNat else if m = 2 then (ge && !Tbl.get false n s.pmu.above).toNat else 0, ge)

/-- Counter `n` in one PCLK, all values being those of state `s0`. -/
def counterEdge (s0 : State) (n : Nat) (s : State) : State :=
  if !s0.counting n then s
  else if s0.chained n then
    if Tbl.get false (n / 2) s0.pmu.carry then
      counterAdd n 1 { s with pmu := { s.pmu with carry := Tbl.set false (n / 2) false s.pmu.carry } }
    else s
  else
    let (v, ge) := s0.counterStep n
    counterAdd n v { s with pmu := { s.pmu with above := Tbl.set false n ge s.pmu.above } }

/-- The counters whose PMU_CFGn is not at its reset value; every other has EN at 0. -/
def State.configured (s : State) : List Nat :=
  ((s.regs.filter (fun e => decide (PMU_CFG 0 ≤ e.1) && decide (e.1 < PMU_CFG 0 + 1024))).map (fun e => (e.1 - PMU_CFG 0) / 4))

/-- One PCLK edge at the PMU. Odd counters take the carries of the PCLK before it, then every counter its event. -/
def pmuEdge (s : State) : State :=
  let l := s.configured
  let odd := l.filter (fun n => s.chained n)
  let s' := (odd ++ l.filter (fun n => !s.chained n)).foldl (fun t n => counterEdge s n t) s
  let free := l.any (fun n => timingEvent (s.fld (PMU_CFG_UCLASS n)) (s.fld (PMU_CFG_EVT n)))
  { s' with pmu := { s'.pmu with now := [] }, fresh := if free then s'.fresh + 65536 else s'.fresh }

/-- PMU_COUNTER_OVERFLOW: counter `n` takes an addition `v` that carries past 0xFFFF_FFFF. -/
def counterOverflow (n : Nat) (v : BitVec 32) (s : State) : State :=
  if n < 256 ∧ s.counting n ∧ !s.chained n ∧ 2 ^ 32 ≤ (s.reg (PMU_CNT n)).toNat + v.toNat then counterAdd n v.toNat s else s

/-- PMU_CLEAR: a write of 1 to PMU_CTL.CLR. -/
def pmuClear (s : State) : State := (List.range 256).foldl (fun s n => s.setReg (PMU_CNT n) 0) s

/-! ### Reads and snapshots (R460, R461) -/

/-- Counter `n` with every carry produced so far. -/
def State.carried (s : State) (n : Nat) : Reg :=
  s.reg (PMU_CNT n) + (if s.chained n ∧ Tbl.get false (n / 2) s.pmu.carry then 1 else 0)

/-- A read of PMU_CNTn: the even counter of a pair loads PMU_CHI, unless the read is quiet. -/
def pmuRead (n : Nat) (quiet : Bool) (s : State) : Reg × State :=
  let v := s.reg (PMU_CNT n)
  if n % 2 = 0 ∧ s.chained (n + 1) ∧ !quiet then
    (v, ((s.setReg PMU_CHI (s.carried (n + 1))).setFld PMU_CHI_PAIR_K (n / 2)).raiseBit PMU_CHI_PAIR_VALID)
  else (v, s)

/-- PMU_SNAPSHOT: a write of 1 to PMU_SNAP.GO. -/
def pmuSnapshot (s : State) : State :=
  let t := (List.range 256).foldl (fun t n => t.setReg (PMU_SNP n) (s.carried n)) s
  t.setReg64 PMU_SNAP_TB_LO PMU_SNAP_TB_HI s.clk.tb

/-! ### The Ringlet (R463 to R466) -/

/-- A write of PMU_CTL other than CLR: RL_EN from 0 to 1 sets WPTR and RPTR to 0. -/
def pmuControl (v : Reg) (s : State) : State :=
  let was := s.on PMU_CTL_RL_EN
  let s := ((s.setFld PMU_CTL_EN (bitsOf v.toNat 0 1)).setFld PMU_CTL_RL_EN (bitsOf v.toNat 1 1)).setFld PMU_CTL_RL_MODE (bitsOf v.toNat 2 1)
  let s := if bitsOf v.toNat 8 1 = 1 then pmuClear s else s
  if !was ∧ s.on PMU_CTL_RL_EN then s.setReg PMU_RL_PTR 0 else s

/-- A tick strobe latches the counters, or is skipped while an entry is still being written (R463, R464). -/
def ringletStrobe (s : State) : State :=
  if !s.on PMU_CTL_RL_EN then s
  else if s.pmu.latch.isSome then
    let s := s.addSat PMU_RL_CNT_SKIP 1
    raise 369 { s with pmu := { s.pmu with skip := min (s.pmu.skip + 1) 0xFFFF } }
  else
    let ovf : Tbl Reg := (List.range 8).foldl (fun t m => Tbl.set 0 m (s.reg (PMU_OVF m)) t) []
    let cnt : Tbl Reg := (List.range 256).foldl (fun t n => Tbl.set 0 n (s.carried n) t) []
    { s.raiseBit PMU_STAT_RL_BUSY with pmu := { s.pmu with
        latch := some { tb := s.clk.tb, tseq := s.fld EPC_STAT_TSEQ, skip := s.pmu.skip, ovf := ovf, cnt := cnt },
        writing := false, ovf := false, skip := 0 } }

/-- The two words of a 32-bit value. -/
def halves (v : Nat) : List Word := [BitVec.ofNat 16 v, BitVec.ofNat 16 (v / 2 ^ 16)]

/-- Bytes 0 to 63 of an entry, as words (Table 15.3). -/
def entryHead (x : PmuLatch) (seq : BitVec 32) (flipped : BitVec 64) : List Word :=
  halves x.tb.toNat ++ halves (x.tb.toNat / 2 ^ 32) ++ halves seq.toNat ++ halves (x.tseq % 256 + x.skip * 2 ^ 16) ++
    halves flipped.toNat ++ halves (flipped.toNat / 2 ^ 32) ++
    ((List.range 8).flatMap (fun m => halves (Tbl.get 0 m x.ovf).toNat)) ++ halves 0 ++ halves 0

/-- Counter words of an entry. -/
def entryCounts (x : PmuLatch) : List Word := (List.range 256).flatMap (fun n => halves (Tbl.get 0 n x.cnt).toNat)

/-- `ws` from word address `w` on, cut at the 128-B lines of bulk memory. -/
def beatsOf (w : Nat) : Nat → List Word → List (Nat × List Word)
  | 0, _ => []
  | f + 1, ws => if ws = [] then [] else
      let n := 64 - w % 64
      (w, ws.take n) :: beatsOf (w + n) f (ws.drop n)

/-- Can every beat be written: in bulk space, on a trained port? -/
def State.beatsOk (s : State) (bs : List (Nat × List Word)) : Bool :=
  bs.all (fun b =>
    let a := 2 * (b.1 - 0x8000000000)
    decide (0x8000000000 ≤ b.1) && decide (a + 2 * b.2.length ≤ s.bulkSize) && (match s.bulkPort a with
      | some (p, _) => s.on (BMP_CTRL_EN p) && s.on (BMP_STAT_TRAINED p)
      | none => false))

/-- The dump stops (R466). -/
def ringletStop (s : State) : State :=
  let s := (((s.clearFld PMU_CTL_RL_EN).raiseBit PMU_STAT_RL_ERR).clearFld PMU_STAT_RL_BUSY)
  raise 369 { s with pmu := { s.pmu with latch := none, writing := false } }

/-- RINGLET_WRITE: after the flip's release (PCLK 96) the latched entry is written into slot WPTR (R463, R465, R466). -/
def ringletWrite (s : State) : State :=
  match s.pmu.latch with
  | none => s
  | some x =>
    if s.pmu.writing ∨ s.epc.flip.isSome then s
    else
      let size := 2 ^ s.fld PMU_RL_CFG_SIZE
      let w := s.fld PMU_RL_PTR_WPTR
      let full := decide ((w + 1) % size = s.fld PMU_RL_PTR_RPTR)
      if full ∧ s.on PMU_CTL_RL_MODE then
        let s := (s.addSat PMU_RL_CNT_LOST 1).clearFld PMU_STAT_RL_BUSY
        raise 369 { s with pmu := { s.pmu with latch := none } }
      else
        let base := (s.reg64 PMU_RL_BASE_LO PMU_RL_BASE_HI).toNat / 8 * 8 + 544 * w
        let head := entryHead x s.pmu.seq (s.reg64 EPC_FLIPPED_LO EPC_FLIPPED_HI)
        let bs := beatsOf (base + 32) 10 (entryCounts x) ++ beatsOf base 2 head
        if !s.beatsOk bs then ringletStop s
        else
          let s := bs.foldl (fun s b => match s.bulkPort (2 * (b.1 - 0x8000000000)) with
            | some (p, _) => bulkWrite p b.1 b.2 s
            | none => s) s
          { s with pmu := { s.pmu with writing := true, ovf := full } }

/-- RINGLET_WRITE_DONE: the last write response (R463, R465, R466). -/
def ringletDone (ok : Bool) (s : State) : State :=
  if !s.pmu.writing then s
  else if !ok then ringletStop s
  else
    let size := 2 ^ s.fld PMU_RL_CFG_SIZE
    let ovf := s.pmu.ovf
    let s := (s.setFld PMU_RL_PTR_WPTR ((s.fld PMU_RL_PTR_WPTR + 1) % size)).clearFld PMU_STAT_RL_BUSY
    let s := raise 368 { s with pmu := { s.pmu with latch := none, writing := false, ovf := false, seq := s.pmu.seq + 1 } }
    if ovf then raise 369 ((s.setFld PMU_RL_PTR_RPTR ((s.fld PMU_RL_PTR_RPTR + 1) % size)).addSat PMU_RL_CNT_LOST 1) else s

/-! ### Port windows (R467) -/

/-- BW_WINDOW_END: a window ends at the last TB update. -/
def windowEnd (s : State) : State :=
  if !s.clk.bwDue then s
  else
    let s := (List.range 20).foldl (fun s p =>
      let b := min (Tbl.get 0 p s.pmu.bytes) 0xFFFFFFFF
      (s.setReg (PMU_BW_LAST p) (BitVec.ofNat 32 b)).setReg (PMU_BW_MAX p) (BitVec.ofNat 32 (max b (s.reg (PMU_BW_MAX p)).toNat))) s
    { s with pmu := { s.pmu with bytes := [] }, clk := { s.clk with bwDue := false } }

/-! ### Reset (R469) -/

/-- Warm reset of the PMU. -/
def pmuWarm (s : State) : State :=
  let s := if s.pmu.latch.isSome then s.addSat PMU_RL_CNT_LOST 1 else s
  let s := ((s.setReg PMU_CHI 0).setReg PMU_CHI_PAIR 0).clearFld PMU_STAT_RL_BUSY
  let s := (List.range 20).foldl (fun s p => (s.setReg (PMU_BW_LAST p) 0).setReg (PMU_BW_MAX p) 0) s
  { s with pmu := { s.pmu with now := [], bytes := [], latch := none, writing := false, ovf := false } }

end Sys2Proof.Machine
end

