-- ==== Sys2Proof/Machine/Power.lean ====
section
/-! DEFINITION. CRP (chapters 19 and 20): warm, cold, domain and core resets, the start-up sequence, power states and the Moth wake. -/

namespace Sys2Proof.Machine

/-! ### Warm reset (R541, and the warm-reset rules of each chapter) -/

/-- The registers a warm reset keeps whole, or that the warm reset of their own unit sets. -/
def warmKeeps (off : Nat) : Bool :=
  let p := off / 0x10000
  let o := off % 0x10000
  if p = 0x03 then !(decide (off = TBU_TB_SET_LO) || decide (off = TBU_TB_SET_HI) || decide (off = TBU_GRP_CTL) || decide (off = TBU_GRP_BASE_LO) ||
    decide (off = TBU_GRP_BASE_HI) || decide (off = TBU_GRP_PER))
  else if p = 0x04 then decide (off = EVC_CTL)
  else if p = 0x05 then decide (o % 0x400 = 0x1C)
  else if p = 0x08 then decide (off = EPC_CTL) || decide (off = EPC_STAT) || decide (off = EPC_FLIPS_LO) || decide (off = EPC_FLIPS_HI)
  else if p = 0x09 then decide (off = SMEM_ERR_STAT) || decide (off = SMEM_UE_LOC)
  else if p = 0x0A then (decide (o % 0x1000 < 0x14) && !decide (o % 0x1000 = 0)) || decide (off = BMP_ILV)
  else if p = 0x10 then decide (off = SUP_CS_CFG) || decide (off = SUP_CS_STAT) || decide (off = SUP_CS_ERRLOC) || decide (o = 0x24)
  else if 0x11 ≤ p ∧ p ≤ 0x34 then false
  else if 0x40 ≤ p ∧ p ≤ 0x50 then decide (o = 0x18)
  else true

/-- EPC under a warm reset (R115). -/
def epcWarm (s : State) : State :=
  let s := { s with arb := { s.arb with reqs := [], granted := [], held := [], ended := [] },
                    epc := { s.epc with folding := [], walk := [], flip := none, freezeWait := false, tickWait := false } }
  let s := (List.range 64).foldl (fun s g =>
    let x := s.group g
    s.setGroup g { x with wepoch := x.wepoch + 1, opens := 0, deferred := false, sweep := false }) s
  let keep : Nat → Entry → Entry := fun _ e =>
    match s.estate e with
    | .work | .stale => Entry.free
    | _ => e
  let s := { s with epc := { s.epc with remap := Tbl.mapVal Entry.free keep s.epc.remap } }
  recheckLow ((s.setReg EPC_STAT (s.reg EPC_STAT &&& 0xFF00)).clearFld EPC_CTL_FREEZE)

/-- EVC under a warm reset (R427): what is routed to the Moth core stays. -/
def evcWarm (s : State) : State :=
  let src := Tbl.mapVal Source.init (fun _ x => if x.tgt = 33 then x else { Source.init with cfg := x.cfg }) s.evc.src
  let tgt := match Tbl.get Target.init 33 s.evc.tgt with
    | t => Tbl.set Target.init 33 { Target.init with stack := t.stack } []
  { s with evc := { s.evc with src := src, tgt := tgt, raised := s.evc.raised.filter (fun e => decide ((s.source e.1).tgt = 33)) } }

/-- Stream memory and the bulk ports under a warm reset (R74): a running initialiser completes its occupancy and leaves the rows up to there
zeroed. -/
def smemWarm (s : State) : State :=
  let s := match s.mem.init with
    | some j => zeroRows (2 * (j + 1)) s
    | none => s
  let s := { s with mem := { s.mem with init := none, scrubRow := 0, scrubIn := 65536 }, bmp := [] }
  (List.range 8).foldl (fun s n => s.setReg (BMP_STAT n) ((s.reg (BMP_STAT n) &&& 0x801) ||| 8)) s

/-- A Sprin-L core under a cold or warm reset (R221, R291, R322, R348); debug keeps its breakpoints and watchpoints (R496). -/
def Core.atWarm (k : Core) : Core := { Core.init with dbg := k.dbg, tok := k.tok }

/-- The Sprin cores, their contexts, the allocator and the Pods under a warm reset; the Moth core goes on, its halt or monitor level ended. -/
def coresWarm (s : State) : State :=
  let s := if (s.core .moth).dstate ≠ 0 then
      let s := restoreLevel .moth 10 (dropFrame .moth s)
      s.setCore .moth { s.core .moth with dstate := 0, haltReq := none, after := none, stepping := false }
    else s.setCore .moth { s.core .moth with haltReq := none, after := none, stepping := false }
  let s := { s with cores := Tbl.mapVal Core.init (fun k c => if k = 37 then c else c.atWarm) s.cores,
                    ctxs := Tbl.keep (fun k => decide (k = 0x8001)) s.ctxs,
                    scr := { s.scr with reqs := s.scr.reqs.filter (fun r => decide (r.core = .moth)) },
                    alloc := Alloc.init, mint := none, code := { s.code with caches := [], refills := [], invAt := none } }
  updatePause s

/-- A warm reset of everything outside the Moth domain, with its cause bit of CRP_RST_STAT. The supervisor stays in reset until
SUPERVISOR_RELEASE. -/
def warmReset (cause : Nat) (s : State) : State :=
  let asleep := decide (s.fld CRP_PWR_STAT_STATE = 4)
  let s := if asleep then wianSleep (s.clearFld TBU_TB_STAT_LF) else s
  let s := s.setFld CRP_PWR_STAT_STATE 1
  let s := audit 9 0 cause 0 s
  let s := codeWriteDone false s
  let s := dbgWarm (hltWarm (pmuWarm (wianWarm (hifWarm s))))
  let wait := s.fld SUP_CS_CFG_WAIT
  let chk := s.reg SUP_CS_STAT &&& 0xC
  let esc := s.reg (SEQ_EXC_STAT 0x100000) &&& 0x60000
  let s := coresWarm (smemWarm (evcWarm (epcWarm s)))
  let s := { s with regs := Tbl.keep warmKeeps s.regs }
  let s := ((s.setReg SUP_CS_CFG (regInit s.build SUP_CS_CFG)).setFld SUP_CS_CFG_WAIT wait).setReg SUP_CS_STAT chk
  let s := s.setReg (SEQ_EXC_STAT 0x100000) esc
  let s := s.clearFld TBU_TB_STAT_LOADERR
  let s := wdgReload (s.setFld ⟨CRP_RST_STAT, cause, 1⟩ 1)
  let s := ((s.clearFld CRP_STAT_SCR_INIT).clearFld CRP_STAT_SEQ_REL).clearFld CRP_PWR_STAT_BUSY
  let s := { s with crp := { s.crp with phase := 3, relWait := false, entry := none, srWait := [], wantRun := false, exiting := false } }
  let s := routerDrain s
  if asleep then restoreWake s else s

/-! ### Cold reset (Table 19.5) -/

/-- What a cold reset keeps of the registers while the Moth domain stays powered (R429, R453). -/
def coldKeeps (off : Nat) : Bool := decide (off / 0x10000 = 0x0B)

/-- A cold reset with the Moth domain powered, with its cause bit: retention arrays, Moth program memory, MOTH registers and TB stay; the
code store, the OTP and what has left the ports are outside the reset. EVC powers up where it had no power (R423). -/
def coldReset (cause : Nat) (s : State) : State :=
  let r := State.reset
  let t : State := { r with
    build := s.build, regs := Tbl.keep coldKeeps s.regs,
    clk := { Clk.init with tb := s.clk.tb, prev := s.clk.tb },
    scr := { r.scr with bytes := Tbl.keep (fun b => decide (131072 * 32 ≤ b)) s.scr.bytes,
                        tags := Tbl.keep (fun g => decide (mothGran0 ≤ g)) s.scr.tags,
                        odd := Tbl.keep (fun g => decide (mothGran0 ≤ g)) s.scr.odd, nextId := s.scr.nextId },
    code := { r.code with store := s.code.store, moth := s.code.moth },
    arb := { r.arb with nextId := s.arb.nextId, arbs := s.arb.arbs },
    evc := { r.evc with wlatch := s.evc.wlatch, wakes := s.evc.wakes },
    hif := { Hif.init with next := s.hif.next, sent := s.hif.sent },
    wian := { Wian.init with sent := s.wian.sent },
    sec := { Sec.init with otp := s.sec.otp, drbg := s.sec.drbg },
    hlt := { Hlt.init with img := s.hlt.img, spares := s.hlt.spares, rail := s.hlt.rail, railA := s.hlt.railA, minSet := s.hlt.minSet,
                           armed := s.hlt.armed },
    crp := { Crp.init with fromOff := false, porLow := s.crp.porLow, wrsLow := s.crp.wrsLow },
    bulkOut := s.bulkOut, replies := s.replies, fresh := s.fresh, pending := s.pending }
  let next := t.clk.nextAt t.clk.tb.toNat
  let t := t.setReg64 TBU_TICK_NEXT_LO TBU_TICK_NEXT_HI (BitVec.ofNat 64 next)
  let t := wdgReload ((t.clearFld MOTH_WDG_CFG_LOCK).clearFld MOTH_WDG_STAT_PAUSED)
  (restoreWake (loadVectors t)).setFld ⟨CRP_RST_STAT, cause, 1⟩ 1

/-- SUPPLY_LOSS: the device is OFF, and only what holds its contents without supply remains (R223). -/
def supplyLoss (s : State) : State :=
  { State.reset with
      build := s.build, regs := [], cores := [], ctxs := [], code := { State.reset.code with store := s.code.store },
      hif := { Hif.init with sent := s.hif.sent }, wian := { Wian.init with sent := s.wian.sent },
      sec := { Sec.init with otp := s.sec.otp, drbg := s.sec.drbg }, crp := { Crp.init with live := false },
      bulkOut := s.bulkOut, replies := s.replies, fresh := s.fresh, pending := s.pending }

/-- POWER_ON: the cold start from OFF (R544). -/
def powerOn (s : State) : State :=
  if s.crp.live then s
  else
    let s := supplyLoss s
    let s := { s with cores := [(37, Core.moth)], ctxs := [(0x8001, Ctx.start)], crp := Crp.init }
    (loadVectors s).setFld CRP_RST_STAT_POR_OFF 1

/-! ### Requests for resets (R540, R542, R545) -/

/-- Is a cold start in progress? -/
def Crp.cold (c : Crp) : Bool := decide (c.phase ≤ 1) || decide (c.phase = 4)

/-- A warm request with its cause bit: absorbed by a cold reset, merged with a warm one, else taken. -/
def warmRequest (cause : Nat) (s : State) : State :=
  if s.crp.cold ∨ s.crp.phase = 3 then s.setFld ⟨CRP_RST_STAT, cause, 1⟩ 1 else warmReset cause s

/-- COLD_RESET_PIN (R548): the reset starts with the low level and is held until the pin returns high. -/
def coldPin (low : Bool) (s : State) : State :=
  if low then
    if s.crp.porLow then s
    else
      let s := coldReset 1 s
      { s with crp := { s.crp with porLow := true } }
  else { s with crp := { s.crp with porLow := false } }

/-- WARM_RESET_PIN (R548). -/
def warmPin (low : Bool) (s : State) : State :=
  if low then
    if s.crp.wrsLow then s
    else
      let s := warmRequest 13 s
      { s with crp := { s.crp with wrsLow := true } }
  else { s with crp := { s.crp with wrsLow := false } }

/-- The supervisor core resets, by a fault at double-fault level (R306): the reset escalates to a warm reset. -/
def supEscalation (s : State) : State := warmRequest 9 (s.raiseBit (SEQ_EXC_STAT_CRST 0x100000))

/-- LOCKSTEP_MISMATCH (R505): recorded, and with HLT_CTL.LS_RST a warm reset follows. -/
def lockstepMismatch (s : State) : State :=
  let s := lockstepFound s
  if s.on HLT_CTL_LS_RST then warmRequest 10 s else s

/-- WDG_EXPIRE (R447). -/
def wdgExpire (s : State) : State :=
  if s.clk.expDue then
    let s := wdgReload ({ s with clk := { s.clk with expDue := false } }.raiseBit MOTH_WDG_STAT_EXPIRED)
    if s.on MOTH_WDG_CFG_ACTION then coldReset 2 s else warmRequest 8 s
  else s

/-! ### Domain resets (R155, R156, R542, R549) -/

/-- A domain reset of physical Pod `p` (R155). -/
def resetPod (p : Nat) (s : State) : State :=
  let s := match s.runOn p with
    | some r =>
      let s := cutRun r.pod s
      match s.run r.pod with
      | some r => s.setRun r.pod (some { r with reset := p :: r.reset })
      | none => s
    | none => s
  let s := s.setReg (POD_STAT p) 0
  let s := ((s.setReg (POD_INDEX p) 0).setReg (POD_FLAGS p) 0).setReg (POD_TICKET p) 0
  s.setReg64 (POD_CHAIN_LO p) (POD_CHAIN_HI p) 0

/-- A domain reset of physical sequencer core `n`. -/
def resetSeqDomain (n : Nat) (s : State) : State := updatePause (resetSeq (.seq n) false s)

/-- A write of CRP_RST_CTL.DOM with UNIT and KIND. -/
def domainReset (v : Reg) (s : State) : State :=
  let u := bitsOf v.toNat 8 6
  let seq := v.getLsbD 15
  let s := (s.setFld CRP_RST_CTL_UNIT u).setFld CRP_RST_CTL_KIND seq.toNat
  if s.crp.cold ∨ s.crp.phase = 3 then s
  else if seq then
    if u < s.build.seqs ∧ s.islandOn (33 + clusterOfSeq u) then resetSeqDomain u s else s.raiseBit CRP_RST_STAT_DOMERR
  else if u < s.build.pods ∧ s.islandOn u then resetPod u s else s.raiseBit CRP_RST_STAT_DOMERR

/-! ### Start-up (R521, R522, R543, R544, Table 19.6) -/

/-- PCLK_MHZ of the build (Table 20.12). -/
def pclkMhz : Nat := 1500

/-- STARTUP_CHECK: the checks of steps 1 and 2; when all pass, step 3 begins, and TB starts after a start from OFF. -/
def startupCheck (lfOk : Bool) (pmhz : BitVec 12) (tppm : BitVec 16) (s : State) : State :=
  if s.crp.phase ≠ 0 ∨ s.crp.porLow ∨ !s.crp.live then s
  else if !lfOk then s.clearFld CRP_STAT_LF_OK
  else
    let pok := decide (98 * pclkMhz ≤ 100 * pmhz.toNat) && decide (100 * pmhz.toNat ≤ 102 * pclkMhz)
    let tok := decide (-200 ≤ tppm.toInt) && decide (tppm.toInt ≤ 200)
    let rok : Bool := match s.hlt.railA with
      | some a => decide (s.fld MOTH_RAIL_LIM_VLOW ≤ a)
      | none => false
    let s := s.setReg CRP_CLK_MEAS (tppm ++ (0 : BitVec 4) ++ pmhz)
    let s := (s.raiseBit CRP_STAT_LF_OK).setFld CRP_STAT_PCLK_OK pok.toNat
    let s := (s.setFld CRP_STAT_TCLK_OK tok.toNat).setFld CRP_STAT_RAIL_OK rok.toNat
    if pok ∧ tok ∧ rok then { s with crp := { s.crp with phase := 1, fromOff := false } } else s

/-- The MINT capability of C0 in SB1: the register region with LD, ST, DERIVE, CODEWR and MINT (R302, R543). -/
def mintRoot : Cap := { bits := capBits 0x100000000 0x2000000 0x543 0 0 0 0 0, tag := true }

/-- The supervisor starts: SB1 at vector 0 with the MINT capability, SB2 to SB4 in WAIT (R543); RSTHALT halts it first (R497). -/
def releaseSup (s : State) : State :=
  let s := loadVectors s
  let k := s.core .sup
  let s := s.setCore .sup { k with released := true, live := some 1, haltReq := if s.on DBG_CTL_RSTHALT then some (1, 0) else none }
  let s := s.setCtxAt 0x4001 { Ctx.start with caps := [(0, mintRoot)] }
  let s := [0x4002, 0x4003, 0x4004].foldl (fun s i => s.setCtxAt i { Ctx.init with state := .wait }) s
  { s.setFld CRP_PWR_STAT_STATE 1 with crp := { s.crp with phase := 2 } }

/-- Are the reset pins high and the supply present? -/
def State.pinsHigh (s : State) : Bool := s.crp.live && !s.crp.porLow && !s.crp.wrsLow

/-- SUPERVISOR_RELEASE: step 4. A cold start has its boot checks passed or skipped and HLT's maps loaded first; local scratch is zeroed. -/
def supervisorRelease (m : BootImage) (s : State) : State :=
  if !s.pinsHigh then s
  else if s.crp.phase = 3 then releaseSup s
  else if s.crp.phase = 1 then
    let t := imageLoad (secureBoot m s)
    if t.fld SEC_STAT_BOOT = 1 ∨ t.fld SEC_STAT_BOOT = 2 then
      let t := { t with scr := { t.scr with bytes := Tbl.keep (fun b => decide (131072 * 32 ≤ b)) t.scr.bytes,
                                            tags := Tbl.keep (fun g => decide (mothGran0 ≤ g)) t.scr.tags,
                                            odd := Tbl.keep (fun g => decide (mothGran0 ≤ g)) t.scr.odd } }
      releaseSup t
    else s
  else s

/-- SECURE_BOOT_FAIL: step 3 ends with another BOOT code (R522); the supervisor stays in reset. -/
def secureBootFail (m : BootImage) (s : State) : State :=
  if s.pinsHigh ∧ s.crp.phase = 1 then
    let t := imageLoad (secureBoot m s)
    if t.fld SEC_STAT_BOOT = 1 ∨ t.fld SEC_STAT_BOOT = 2 then s else { t with crp := { t.crp with phase := 4 } }
  else s

/-- The sequencer cores leave reset, idle (step 7). -/
def releaseSeqs (s : State) : State :=
  let s := s.raiseBit CRP_STAT_SEQ_REL
  (List.range s.build.seqs).foldl (fun s n => s.setCore (.seq n) { s.core (.seq n) with released := true }) s

/-- A write of REL: held until SCR_INIT is 1; no effect once SEQ_REL is 1 (R544). -/
def seqRelease (s : State) : State :=
  if s.on CRP_STAT_SEQ_REL then s
  else if s.on CRP_STAT_SCR_INIT then releaseSeqs s
  else { s with crp := { s.crp with relWait := true } }

/-- SCRATCH_INIT_DONE: SCR_INIT, and a REL that was held. -/
def scratchInitDone (s : State) : State :=
  if s.crp.phase ≠ 2 ∨ s.on CRP_STAT_SCR_INIT then s
  else
    let s := s.raiseBit CRP_STAT_SCR_INIT
    if s.crp.relWait then releaseSeqs { s with crp := { s.crp with relWait := false } } else s

/-! ### Power states (Table 19.4, R536 to R540, R552) -/

/-- Is a logical sequencer idle: SEQ_SCHED_STAT.IDLE? -/
def State.lsIdle (s : State) (n : Nat) : Bool := (s.core (s.lsCore n)).live.isNone && (s.readySlots n).isEmpty

/-- The ECAUSE of R536, in its order; 0 when NAP, or SLEEP with `sleep`, may be entered. -/
def State.entryCause (s : State) (sleep : Bool) : Nat :=
  if !(List.range s.build.lss).all s.lsIdle then 1
  else if (List.range s.build.pods).any (fun p => s.on (POD_STAT_BUSY p) || (s.runOn p).isSome) || !s.alloc.queue.isEmpty then 2
  else if s.on WIAN_CTL_ING_EN then 3
  else if (List.range s.build.bmps).any (fun n => !s.bmpIdle n || s.on (BMP_STAT_CPY_BUSY n)) then 4
  else if s.epc.flip.isSome then 5
  else if sleep ∧ s.on HIF_CTL_EN then 7
  else 0

/-- A request is refused. -/
def pwrRefuse (cause : Nat) (s : State) : State := (s.raiseBit CRP_PWR_STAT_REQERR).setFld CRP_PWR_STAT_ECAUSE cause

/-- Entry to `st` begins: resident contexts are evicted, and the bulk controllers are asked for self-refresh. -/
def beginEntry (st : Nat) (s : State) : State :=
  let napping := decide (s.fld CRP_PWR_STAT_STATE = 3)
  let s := if napping then s else (List.range s.build.seqs).foldl (fun s n => evictAll (.seq n) s) s
  { s.raiseBit CRP_PWR_STAT_BUSY with
    crp := { s.crp with entry := some st, lfEdges := 0, wantRun := false, srWait := if napping then [] else List.range s.build.bmps } }

/-- Is sleep emulation on (R492)? -/
def State.emulated (s : State) : Bool := s.on DBG_CTL_ATTACH && s.on DBG_CTL_SLEEPEMU

/-- Exit from NAP or SLEEP begins: the islands that were off are powered, and their PWR_ACK awaited (R549). -/
def beginExit (s : State) : State :=
  let pods := List.range s.build.pods
  let cl := (List.range s.build.clusters).map (fun c => 33 + c)
  let all := if s.emulated then []
    else if s.fld CRP_PWR_STAT_STATE = 3 then pods ++ cl
    else pods ++ (List.range s.build.slices).map (fun i => 17 + i) ++ cl ++ [37, 39, 40]
  { s.raiseBit CRP_PWR_STAT_BUSY with crp := { s.crp with exiting := true, ackWait := all } }

/-- RUN is requested, by a write of REQ or by a wake with HW (R424). -/
def requestRun (s : State) : State :=
  let st := s.fld CRP_PWR_STAT_STATE
  if s.crp.entry.isSome then { s with crp := { s.crp with wantRun := true } }
  else if s.crp.exiting then s
  else if st = 2 then s.setFld CRP_PWR_STAT_STATE 1
  else if st = 3 ∨ st = 4 then beginExit s
  else s

/-- A write of CRP_PWR_CTL.REQ. -/
def powerRequest (req : Nat) (s : State) : State :=
  let st := s.fld CRP_PWR_STAT_STATE
  if req = 0 ∨ 4 < req then s
  else if req = 1 ∧ s.crp.entry.isSome then requestRun s
  else if s.crp.phase ≠ 2 ∨ s.crp.entry.isSome ∨ s.crp.exiting then pwrRefuse 6 s
  else if req = 1 then requestRun s
  else if req = 2 then (if st = 1 then s.setFld CRP_PWR_STAT_STATE 2 else s)
  else if req = 3 then
    if st = 1 ∨ st = 2 then
      if s.entryCause false = 0 then beginEntry 3 s else pwrRefuse (s.entryCause false) s
    else s
  else if st = 4 then s
  else if s.entryCause true = 0 then beginEntry 4 s else pwrRefuse (s.entryCause true) s

/-- SELF_REFRESH_ACK of port `n` (R552). -/
def selfRefreshAck (n : Nat) (s : State) : State :=
  { s with crp := { s.crp with srWait := s.crp.srWait.filter (fun x => decide (x ≠ n)) } }

/-- An entry completes, and a RUN requested meanwhile is taken (R540). -/
def endEntry (st : Nat) (s : State) : State :=
  let run := s.crp.wantRun
  let s := (s.setFld CRP_PWR_STAT_STATE st).clearFld CRP_PWR_STAT_BUSY
  let s := { s with crp := { s.crp with entry := none, wantRun := false } }
  if run then beginExit s else s

/-- NAP_ENTRY_DONE. -/
def napEntryDone (s : State) : State :=
  if s.crp.entry = some 3 ∧ s.crp.srWait = [] then endEntry 3 s else s

/-- Did an LFCLK edge fall in the last TCLK? -/
def State.atLfEdge (s : State) : Bool := decide (s.clk.lfAcc < 32768)

/-- SLEEP_ENTRY_DONE, at the second LFCLK edge: TB runs from LFCLK, ACC is cleared (R430, R431), and every link loses its power. Where the bulk
controllers answer later, it is the next LFCLK edge after that. -/
def sleepEntryDone (s : State) : State :=
  if s.crp.entry = some 4 ∧ s.crp.srWait = [] ∧ 2 ≤ s.crp.lfEdges ∧ s.atLfEdge then
    endEntry 4 (wianSleep ((s.raiseBit TBU_TB_STAT_LF).clearFld TBU_TB_STAT_ACC))
  else s

/-- ISLAND_POWER_ACK. -/
def islandAck (i : Nat) (s : State) : State :=
  { s with crp := { s.crp with ackWait := s.crp.ackWait.filter (fun x => decide (x ≠ i)),
                               islandOff := s.crp.islandOff.filter (fun x => decide (x ≠ i)) } }

/-- ISLAND_ACK_TIMEOUT: an island whose PWR_ACK is awaited is treated as off. -/
def islandTimeout (i : Nat) (s : State) : State :=
  if i ∈ s.crp.ackWait ∧ i ∉ s.crp.islandOff then { s with crp := { s.crp with islandOff := s.crp.islandOff ++ [i] } } else s

/-- NAP_EXIT (R537): every Pod and sequencer core takes the domain reset of its power-up, which raises no event. -/
def napExit (s : State) : State :=
  if s.fld CRP_PWR_STAT_STATE = 3 ∧ s.crp.exiting ∧ s.crp.ackWait = [] then
    let ev := s.evc
    let s := (List.range s.build.pods).foldl (fun s p => resetPod p s) s
    let s := (List.range s.build.seqs).foldl (fun s n => resetSeqDomain n s) s
    let s := { s with evc := { s.evc with raised := ev.raised, wakes := ev.wakes } }
    let s := (s.setFld CRP_PWR_STAT_STATE 1).clearFld CRP_PWR_STAT_BUSY
    { s with crp := { s.crp with exiting := false } }
  else s

/-- SLEEP_EXIT (R538): a warm reset with cause WAKE, or without retention a cold reset. -/
def sleepExit (s : State) : State :=
  if s.fld CRP_PWR_STAT_STATE = 4 ∧ s.crp.exiting then
    let off := (s.crp.ackWait, s.crp.islandOff)
    let s := if s.on CRP_PWR_CFG_RET then warmReset 12 s else coldReset 4 s
    { s with crp := { s.crp with ackWait := off.1, islandOff := off.2 } }
  else s

/-! ### The Moth wake (R424) -/

/-- Has the Moth core's MCLK stopped? -/
def State.mclkStopped (s : State) : Bool :=
  decide (s.fld CRP_PWR_STAT_STATE = 4) && s.on MOTH_WAKE_CFG_MSTOP && (s.core .moth).waiting

/-- MOTH_WAKE by event `k`: MOTH_WAKE_STAT holds the first one; the WAIT ends at once, or once MCLK is stable; HW requests RUN. -/
def mothWake (k : Nat) (s : State) : State :=
  if k ∈ s.evc.wakes then
    let s := { s with evc := { s.evc with wakes := s.evc.wakes.erase k } }
    let s := if s.on MOTH_WAKE_STAT_WOKE then s else (s.setFld MOTH_WAKE_STAT_SRC k).raiseBit MOTH_WAKE_STAT_WOKE
    let s := if s.mclkStopped then { s with crp := { s.crp with waking := true } }
      else endMothWait s
    if s.on MOTH_WAKE_CFG_HW then requestRun s else s
  else s

/-- MCLK_STABLE. -/
def mclkStable (s : State) : State :=
  if s.crp.waking then
    endMothWait { s with crp := { s.crp with waking := false } }
  else s

end Sys2Proof.Machine
end

