-- ==== Sys2Proof/Machine/Regs.lean ====
section
/-! DEFINITION. Register accesses (R9 to R22): what a read of each register returns and does, and what a write does, with the registers that
hold no value of their own derived from the state behind them. The ports reach these operations after their own checks. -/

namespace Sys2Proof.Machine

/-! ### Pages -/

/-- The core whose page `p` is. -/
def coreOfPage (p : Nat) : Option CoreId :=
  if p = 0x10 then some .sup else if p = 0x0B then some .moth else if 0x11 ≤ p ∧ p ≤ 0x34 then some (.seq (p - 0x11)) else none

/-- A page of a unit that is not built (R5; R412 for the targets), or of none (R15). -/
def State.unbuilt (s : State) (off : Nat) : Bool :=
  let p := off / 0x10000
  let o := off % 0x10000
  if 0x11 ≤ p ∧ p ≤ 0x34 then decide (s.build.seqs ≤ p - 0x11)
  else if 0x40 ≤ p ∧ p ≤ 0x50 then decide (s.build.pods ≤ p - 0x40)
  else if p = 0x0A then decide (s.build.bmps ≤ o / 0x1000)
  else if p = 0x05 then (decide (s.build.lss ≤ o / 0x400) && decide (o / 0x400 < 32)) || decide (34 ≤ o / 0x400)
  else false

/-- Is the offset inside the broadcast aperture? -/
def inAperture (off : Nat) : Bool := decide (0x800000 ≤ off) && decide (off < 0xC00000)

/-! ### Reads -/

/-- The core registers of core `c` (chapters 06 to 10), `o` within its page. -/
def State.coreRead (s : State) (c : CoreId) (o : Nat) : Reg :=
  let pg := corePage c
  let k := s.core c
  if o = 0x24 then
    s.reg (SEQ_EXC_STAT pg) ||| BitVec.ofNat 32 (k.level.toNat + k.cpl.toNat * 16 + (if k.niw.isSome then 256 else 0))
  else if o = 0x34 then s.svwData c
  else match c with
    | .seq q =>
      match s.lsOfSeq q with
      | none => s.reg (pg + o)
      | some n =>
        if o = 0x64 then
          let live := k.live.getD 0
          let ready := (s.readySlots n).length
          (s.reg (SEQ_SCHED_STAT pg) &&& 0x30000000) ||| BitVec.ofNat 32 (live + (if k.live.isSome then 512 else 0) +
            (if k.live.isNone ∧ ready = 0 then 1024 else 0) + ready * 65536)
        else if o = 0x70 then s.ctxData n
        else if 0x80 ≤ o ∧ o < 0xC0 then
          BitVec.ofNat 32 ((List.range 32).foldl (fun a j =>
            if (s.ctxAt (ctxKey n (32 * ((o - 0x80) / 4) + j))).state = .parked then a + 2 ^ j else a) 0)
        else s.reg (pg + o)
    | _ => s.reg (pg + o)

/-- The registers of Pod `p`. -/
def State.podRead (s : State) (p off : Nat) : Reg :=
  if off = POD_STAT p then
    (s.reg off &&& 0xFFFFFF0D) ||| BitVec.ofNat 32 (match s.lpOfPod p with
      | some k => 2 + k * 16
      | none => 0)
  else if off = POD_INDEX p then BitVec.ofNat 32 (s.podIndex p)
  else if off = POD_ALLOC_STAT then
    BitVec.ofNat 32 ((List.range s.build.lps).foldl (fun a k => if s.lpFree k then a + 2 ^ k else a) 0 + s.alloc.queue.length * 65536)
  else if off = POD_ALLOC_LIVE then
    let l := s.liveTickets (s.fld POD_ALLOC_SEL_LS)
    let n := fun (st : TicketState) => (l.filter (fun e => decide (e.2.map Ticket.st = some st))).length
    BitVec.ofNat 32 (l.length + n .queued * 256 + n .running * 65536)
  else s.reg off

/-- The registers of EPC. -/
def State.epcRead (s : State) (off : Nat) : Reg :=
  let g := s.group (s.fld EPC_GSEL_GROUP)
  let b := s.fld EPC_POOL_SEL_SLICE * 127 + s.fld EPC_POOL_SEL_LBANK
  if off = EPC_GEPOCH then g.gepoch
  else if off = EPC_WEPOCH then g.wepoch
  else if off = EPC_GSTAT then
    BitVec.ofNat 32 (g.opens.toNat + (if s.leased (s.fld EPC_GSEL_GROUP) then 65536 else 0) + (if g.deferred then 131072 else 0) +
      (if g.sweep then 262144 else 0))
  else if off = EPC_POOL_CNT0 then
    BitVec.ofNat 32 (s.countState b .free + s.countState b .work * 1024 + s.countState b .done * 1048576)
  else if off = EPC_SMAP_DATA then
    if s.fld EPC_SMAP_IDX_BLOCK * 4096 < s.build.granules then (s.stamp (s.fld EPC_SMAP_IDX_BLOCK)).setWidth 32 else 0x3F
  else s.reg off

/-- The registers of HIF, its ring pages apart. -/
def State.hifRead (s : State) (off : Nat) : Reg :=
  if off = HIF_STAT then
    let l := s.inboxLen
    let full := decide ((s.fld HIF_INBOX_PTR_TAIL + 1) % l = s.fld HIF_INBOX_PTR_HEAD % l)
    s.reg off ||| BitVec.ofNat 32 ((if full then 8 else 0) + s.hif.queue.length * 65536)
  else if HIF_RING_SQBASE_LO 0 ≤ off ∧ off < HIF_RING_SQBASE_LO 64 ∧ (off - HIF_RING_SQBASE_LO 0) % 64 = 0x20 then
    s.reg off ||| BitVec.ofNat 32 (if s.cqHeld ((off - HIF_RING_SQBASE_LO 0) / 64) then 16 else 0)
  else s.reg off

/-- The registers of WIAN. -/
def State.wianRead (s : State) (off : Nat) : Reg :=
  if off = WIAN_SERIAL_LO then s.serial.extractLsb' 0 32
  else if off = WIAN_SERIAL_HI then s.serial.extractLsb' 32 32
  else if off = WIAN_RT_DATA then BitVec.ofNat 32 (s.routeOf (s.fld WIAN_RT_IDX_DST))
  else s.reg off

/-- The registers of EVC outside the target pages. -/
def State.evcRead (s : State) (off : Nat) : Reg :=
  let x := s.source (s.fld EVC_SRC_SEL_SRC)
  if off = EVC_SRC_CFG then x.cfg
  else if off = EVC_SRC_STAT then BitVec.ofNat 32 (x.pend.toNat + x.count.toNat * 65536)
  else if off = EVC_SRC_TS_LO then x.ts.extractLsb' 0 32
  else if off = EVC_SRC_TS_HI then x.ts.extractLsb' 32 32
  else if EVC_PEND 0 ≤ off ∧ off ≤ EVC_PEND 15 then s.pendWord ((off - EVC_PEND 0) / 4)
  else s.reg off

/-- The registers of target `t`, EVC_TGT_CLAIM apart. -/
def State.tgtRead (s : State) (t off : Nat) : Reg :=
  if off = EVC_TGT_CLTS_LO t then (s.target t).clts.extractLsb' 0 32
  else if off = EVC_TGT_CLTS_HI t then (s.target t).clts.extractLsb' 32 32
  else if off = EVC_TGT_STACK t then s.stackWord t
  else if off = EVC_TGT_RQ t then BitVec.ofNat 32 (s.rp t + (if s.targetIdle t then 8 else 0))
  else s.reg off

/-- The registers of HLT and of the rail watch, whose reads have no side effect. -/
def State.hltRead (s : State) (off : Nat) : Reg :=
  if off = HLT_ROW_CNT then BitVec.ofNat 32 (s.sparesOf (s.fld HLT_ROW_SEL_SLICE * 127 + s.fld HLT_ROW_SEL_LBANK)).length
  else if off = HLT_LOG_STAT then s.reg off ||| BitVec.ofNat 32 s.hlt.log.length
  else if HLT_LOG_D 0 ≤ off ∧ off ≤ HLT_LOG_D 3 then s.logWord ((off - HLT_LOG_D 0) / 4)
  else if off = HLT_IMG_DATA then (if s.fld HLT_IMG_SEL_WORD < 66060 then s.img (s.fld HLT_IMG_SEL_WORD) else 0)
  else if off = HLT_IMG_GEN then s.img 66059
  else s.reg off

/-- The registers of DBG, the terminals apart. -/
def State.dbgRead (s : State) (off : Nat) : Reg :=
  if selRegister off then s.selRead off
  else if DBG_AUTH_RESP 0 ≤ off ∧ off ≤ DBG_AUTH_RESP 47 then 0
  else s.reg off

/-- What the register at canonical offset `off` holds (R9, R15), its read's side effect apart. -/
def State.regValue (s : State) (off : Nat) : Reg :=
  let p := off / 0x10000
  let o := off % 0x10000
  if p = 0x00 then (if off = CRP_RST_CTL then (s.reg off &&& 0xBF00) ||| BitVec.ofNat 32 (s.fld CRP_STAT_SEQ_REL * 8) else s.reg off)
  else if p = 0x01 then
    if off = SEC_AUD_STAT then s.reg off ||| BitVec.ofNat 32 s.sec.audit.length
    else if off = SEC_AUD_DATA then s.auditWord else s.reg off
  else if p = 0x02 then s.hltRead off
  else if p = 0x03 then
    if off = TBU_TB_LO then s.clk.tb.extractLsb' 0 32 else if off = TBU_TB_HI then s.clk.tb.extractLsb' 32 32 else s.reg off
  else if p = 0x04 then s.evcRead off
  else if p = 0x05 then s.tgtRead (o / 0x400) off
  else if p = 0x07 then s.dbgRead off
  else if p = 0x08 then s.epcRead off
  else if p = 0x09 then
    if off = SMEM_UE_LOC then (s.reg off &&& 0x7FFFFFFF) ||| BitVec.ofNat 32 (s.fld SMEM_ERR_STAT_UE * 0x80000000)
    else if off = SMEM_CE_CNT then
      BitVec.ofNat 32 (Tbl.get 0 (s.fld SMEM_CE_SEL_SLICE * 128 + s.fld SMEM_CE_SEL_PBANK) s.mem.ceCnt)
    else s.reg off
  else if p = 0x0A then
    if o % 0x1000 = 4 then (s.reg off &&& 0xFFFFFFF7) ||| BitVec.ofNat 32 (if s.bmpIdle (o / 0x1000) then 8 else 0) else s.reg off
  else if p = 0x0B then
    if off = MOTH_TB_LO then s.clk.tb.extractLsb' 0 32
    else if off = MOTH_TB_HI then s.clk.tb.extractLsb' 32 32
    else if 0x20 ≤ o ∧ o ≤ 0x37 then s.coreRead .moth o
    else s.reg off
  else if 0x40 ≤ p ∧ p ≤ 0x50 then s.podRead (p - 0x40) off
  else if p = 0xC0 then s.hifRead off
  else if p = 0x100 then s.wianRead off
  else match coreOfPage p with
    | some c => s.coreRead c o
    | none => s.reg off

/-- A read that clears (RC) with no further effect. -/
def clearRead (off : Nat) (s : State) : State :=
  match regRow off with
  | some r => if r.rc = 0 then s else s.setReg off (s.reg off &&& ~~~BitVec.ofNat 32 r.rc)
  | none => s

/-- A read of the register at offset `off`, side effects included unless it is quiet (R22): the value, and the state after. -/
def regRead (quiet : Bool) (off : Nat) (s : State) : Reg × State :=
  if s.unbuilt off then (0, s)
  else
    let off := regAlias off
    let p := off / 0x10000
    let o := off % 0x10000
    if off = SMEM_CE_CNT then
      (s.regValue off, if quiet then s
        else { s with mem := { s.mem with ceCnt := Tbl.set 0 (s.fld SMEM_CE_SEL_SLICE * 128 + s.fld SMEM_CE_SEL_PBANK) 0 s.mem.ceCnt } })
    else if off = EPC_POOL_CNT0 then
      let b := s.fld EPC_POOL_SEL_SLICE * 127 + s.fld EPC_POOL_SEL_LBANK
      (s.regValue off, if quiet then s
        else s.setReg EPC_POOL_CNT1 (BitVec.ofNat 32 (s.countState b .stale + s.countState b .borrowed * 1024)))
    else if p = 0x05 ∧ o % 0x400 = 0 then
      let t := o / 0x400
      if t = 32 ∨ t = 33 then (if quiet then (s.claimWord (s.claimable t), s) else claim t s) else ((s.target t).claim, s)
    else if PMU_CNT 0 ≤ off ∧ off ≤ PMU_CNT 255 then pmuRead ((off - PMU_CNT 0) / 4) quiet s
    else if off = HLT_THERM_DATA then thermRead quiet s
    else if off = MOTH_RAIL_DATA then railRead quiet s
    else if DBG_VT_CDATA 0 ≤ off ∧ off ≤ DBG_VT_DDATA 3 ∧ off % 16 = 0 then vtCoreRead ((off - DBG_VT_CDATA 0) / 16) quiet s
    else if DBG_VT_CDATA 0 ≤ off ∧ off ≤ DBG_VT_DDATA 3 ∧ off % 16 = 4 then vtDebugRead ((off - DBG_VT_CDATA 0) / 16) quiet s
    else if DBG_VT_CDATA 0 ≤ off ∧ off ≤ DBG_VT_STAT 3 ∧ off % 16 = 8 then (s.vtStat ((off - DBG_VT_CDATA 0) / 16), s)
    else if quiet then (s.regValue off, s)
    else if TBU_CAP_RISE_LO 0 ≤ off ∧ off ≤ TBU_CAP_STAT 15 then
      let j := (off - TBU_CAP_RISE_LO 0) / 32
      (s.regValue off,
        if off = TBU_CAP_RISE_HI j then s.clearFld (TBU_CAP_STAT_RV j)
        else if off = TBU_CAP_FALL_HI j then s.clearFld (TBU_CAP_STAT_FV j)
        else if off = TBU_CAP_WIDTH j then s.clearFld (TBU_CAP_STAT_WV j) else s)
    else (s.regValue off, clearRead off s)

/-! ### Writes -/

/-- The fields of `v` with reserved encodings replaced by what the register holds (R14). -/
def legalFields (chk : List (Nat × Nat × Nat × Nat)) (old v : Nat) : Nat :=
  chk.foldl (fun v f =>
    let x := bitsOf v f.1 f.2.1
    if f.2.2.1 ≤ x ∧ x ≤ f.2.2.2 then v else setBitsOf v f.1 f.2.1 (bitsOf old f.1 f.2.1)) v

/-- A write of the RW fields and of the W1C bits of a register (R13, R14, R19). -/
def plainWrite (off : Nat) (v : Reg) (s : State) : State :=
  match regRow off with
  | none => s
  | some r =>
    let old := s.reg off
    let w := BitVec.ofNat 32 (legalFields r.chk old.toNat v.toNat)
    let rw := BitVec.ofNat 32 r.rw
    s.setReg off (((old &&& ~~~rw) ||| (w &&& rw)) &&& ~~~(v &&& BitVec.ofNat 32 r.w1c))

/-- The page's CRP registers. -/
def crpWrite (off : Nat) (v : Reg) (s : State) : State :=
  if off = CRP_PWR_CTL then powerRequest (bitsOf v.toNat 0 3) s
  else if off = CRP_RST_CTL then
    let s := (s.setFld CRP_RST_CTL_UNIT (bitsOf v.toNat 8 6)).setFld CRP_RST_CTL_KIND (bitsOf v.toNat 15 1)
    let s := if v.getLsbD 3 then seqRelease s else s
    let s := if v.getLsbD 1 then coldReset 3 s else s
    let s := if v.getLsbD 0 then warmRequest 11 s else s
    if v.getLsbD 2 then domainReset v s else s
  else plainWrite off v s

/-- SEC: the key and lock registers and the audit log (R524, R531). -/
def secWrite (a : Agent) (off : Nat) (v : Reg) (s : State) : State :=
  if off = SEC_CTL then secConfig a off 3 v s
  else if off = SEC_NARROW then secConfig a off 0x3F v s
  else if off = SEC_LOCK then (if v.getLsbD 0 then secLock a s else s)
  else if off = SEC_VERADV then (if v.getLsbD 0 then versionAdvance a s else s)
  else if off = SEC_AUD_POP then (if v.getLsbD 0 ∧ a ≠ .mgmt then auditPop s else s)
  else plainWrite off v s

def hltWrite (off : Nat) (v : Reg) (s : State) : State :=
  if off = HLT_CTL then
    let s := plainWrite off v s
    if v.getLsbD 4 then imageLoadCmd s else s
  else if off = HLT_SWAP then
    if v.getLsbD 31 then swapStage v s else if s.on HLT_SWAP_STAT_STAGED then s else plainWrite off v s
  else if off = HLT_LOG_POP then (if v.getLsbD 0 then logPop s else s)
  else if off = HLT_IMG_DATA then imageData v s
  else plainWrite off v s

def tbuWrite (off : Nat) (v : Reg) (s : State) : State :=
  if off = TBU_TB_STAT then
    let s := plainWrite off v s
    if v.getLsbD 0 then tbLoad s else s
  else if off = TBU_TICK_CTL then
    if v.getLsbD 0 then (if s.on TBU_TICK_CTL_EN then s else tickArm s) else s.clearFld TBU_TICK_CTL_EN
  else if off = TBU_TICK_PER then tickPeriod v s
  else if off = TBU_GRP_CTL then groupWrite v s
  else if TBU_CMP_LO 0 ≤ off ∧ off ≤ TBU_CMP_STAT 31 then
    let k := (off - TBU_CMP_LO 0) / 32
    if off = TBU_CMP_LO k then cmpStage k v s
    else if off = TBU_CMP_HI k then cmpCommit k v s
    else if off = TBU_CMP_CFG k then cmpConfig k v s
    else plainWrite off v s
  else plainWrite off v s

/-- A write of EVC_SRC_CFG: TGT 34 to 63, or a sequencer not built, keeps the target (R14). -/
def srcConfig (v : Reg) (s : State) : State :=
  let e := s.fld EVC_SRC_SEL_SRC
  let x := s.source e
  let w := v &&& 0x0FFFF3FF
  let t := bitsOf w.toNat 4 6
  let w := if 33 < t ∨ (t < 32 ∧ s.build.lss ≤ t) then (w &&& 0xFFFFFC0F) ||| (x.cfg &&& 0x3F0) else w
  s.setSource e { x with cfg := w }

/-- A write of EVC_SWEV raises a software event. -/
def softEvent (e : Nat) (s : State) : State := if 448 ≤ e ∧ e < 512 then raise e s else s

def evcWrite (off : Nat) (v : Reg) (s : State) : State :=
  if off = EVC_SRC_CFG then srcConfig v s
  else if off = EVC_SRC_CMD then (if v.getLsbD 0 then clearPending (s.fld EVC_SRC_SEL_SRC) s else s)
  else if off = EVC_SWEV then softEvent (bitsOf v.toNat 0 9) s
  else plainWrite off v s

/-- How a DONE or PUSH of agent `a` ends for the target's own core (R307, R417, R419). -/
def stackFault (a : Agent) (t : Nat) (r : StackRes × State) : State :=
  let s := r.2
  let own := decide (a = .core (if t = 32 then .sup else .moth))
  let c : CoreId := if t = 32 then .sup else .moth
  match r.1 with
  | .ok => s
  | .order => if own ∧ t = 32 then s.setCore c { s.core c with orderFault := true } else s
  | .pstk x => if own then s.setCore c { s.core c with pstkFault := some (BitVec.ofNat 4 x) } else s

def tgtWrite (a : Agent) (t off : Nat) (v : Reg) (s : State) : State :=
  if off = EVC_TGT_DONE t then stackFault a t (evcDone t (v.extractLsb' 0 3) s)
  else if off = EVC_TGT_PUSH t then stackFault a t (evcPush t (v.extractLsb' 0 3) s)
  else plainWrite off v s

/-- The last EVT of a unit class (Table 15.1). -/
def lastEvent (u : Nat) : Nat :=
  [0, 7, 12, 3, 6, 3, 3, 5, 3, 1].getD u 0

/-- A write of PMU_CFGn: a reserved UCLASS or EVT keeps the field, and CHAIN of an even counter reads 0 (R14, R459). -/
def pmuConfig (n : Nat) (v : Reg) (s : State) : State :=
  let old := (s.reg (PMU_CFG n)).toNat
  let w := v.toNat
  let w := if 9 < bitsOf w 6 4 then setBitsOf w 6 4 (bitsOf old 6 4) else w
  let w := if lastEvent (bitsOf w 6 4) < bitsOf w 0 6 then setBitsOf w 0 6 (bitsOf old 0 6) else w
  let w := if n % 2 = 0 then setBitsOf w 18 1 0 else w
  s.setReg (PMU_CFG n) (BitVec.ofNat 32 w &&& 0xFF1FFFFF)

def pmuWrite (off : Nat) (v : Reg) (s : State) : State :=
  if off = PMU_CTL then pmuControl v s
  else if off = PMU_SNAP then (if v.getLsbD 0 then pmuSnapshot s else s)
  else if (off = PMU_RL_BASE_LO ∨ off = PMU_RL_BASE_HI ∨ off = PMU_RL_CFG) ∧ s.on PMU_CTL_RL_EN then s
  else if PMU_CFG 0 ≤ off ∧ off ≤ PMU_CFG 255 then pmuConfig ((off - PMU_CFG 0) / 4) v s
  else plainWrite off v s

/-- A write to DBG_MCTL: its fields, and RD starts a read (R476). -/
def mctlWrite (v : Reg) (s : State) : State :=
  let s := plainWrite DBG_MCTL v s
  if v.getLsbD 0 then masterStart false 0 s else s

/-- DBG registers as the authenticated DAP writes them (R475), or any DAP in the authentication range. -/
def dbgWrite (off : Nat) (v : Reg) (s : State) : State :=
  if selRegister off then selWrite off v s
  else if off = DBG_MDATA then masterStart true v s
  else if off = DBG_MCTL then mctlWrite v s
  else if DBG_VT_CDATA 0 ≤ off ∧ off ≤ DBG_VT_DDATA 3 ∧ off % 16 = 0 then vtCoreWrite ((off - DBG_VT_CDATA 0) / 16) v s
  else if DBG_VT_CDATA 0 ≤ off ∧ off ≤ DBG_VT_DDATA 3 ∧ off % 16 = 4 then vtDebugWrite ((off - DBG_VT_CDATA 0) / 16) v s
  else if DBG_AUTH_RESP 0 ≤ off ∧ off ≤ DBG_AUTH_RESP 47 then s.setReg off v
  else if off = DBG_AUTH_CTL then
    let s := s.setFld DBG_AUTH_CTL_LEVEL (bitsOf v.toNat 8 1)
    let s := if v.getLsbD 0 then authNew s else s
    let s := if v.getLsbD 1 then authVerify (v.getLsbD 8) s else s
    if v.getLsbD 2 then authDrop s else s
  else plainWrite off v s

/-- EPC_LEASEn_CTL (R104, R106). -/
def leaseWrite (n : Nat) (v : Reg) (s : State) : State :=
  let held := s.on (EPC_LEASE_CTL_HELD n)
  let taking := s.on (EPC_LEASE_CTL_TAKE n)
  let s := if v.getLsbD 10 then s.clearFld (EPC_LEASE_CTL_EXPIRED n) else s
  if held then (if v.getLsbD 11 then releaseLease n s else s)
  else if taking then s
  else if v.getLsbD 8 then takeLease n (v.extractLsb' 0 6) s
  else s.setFld (EPC_LEASE_CTL_GROUP n) (bitsOf v.toNat 0 6)

/-- EPC_GCMD (R83, R84). A refused DISCARD removes no records (R366). -/
def gcmdWrite (op : Nat) (g : BitVec 6) (s : State) : State :=
  if op = 1 then gcmdAdmit g s
  else if op = 2 then gcmdDone g s
  else if op = 3 then (if s.discardOk g then hifDiscard g (gcmdDiscard g s) else gcmdDiscard g s)
  else s

/-- EPC_SMAP_DATA (R113). -/
def smapWrite (v : Reg) (s : State) : State :=
  let k := s.fld EPC_SMAP_IDX_BLOCK
  if k * 4096 < s.build.granules then { s with epc := { s.epc with smap := Tbl.set 63 k (v.extractLsb' 0 6) s.epc.smap } } else s

def epcWrite (off : Nat) (v : Reg) (s : State) : State :=
  if off = EPC_CTL then
    let s := recheckLow (plainWrite off v s)
    if v.getLsbD 1 then requestFreeze s else s
  else if off = EPC_STAT then recheckLow (plainWrite off v s)
  else if off = EPC_GCMD then gcmdWrite (bitsOf v.toNat 8 2) (v.extractLsb' 0 6) s
  else if off = EPC_SMAP_DATA then smapWrite v s
  else if off = EPC_LEASE_CTL 0 ∨ off = EPC_LEASE_CTL 1 ∨ off = EPC_LEASE_CTL 2 ∨ off = EPC_LEASE_CTL 3 then
    leaseWrite ((off - EPC_LEASE_CTL 0) / 8) v s
  else plainWrite off v s

def smemWrite (off : Nat) (v : Reg) (s : State) : State :=
  if off = SMEM_CFG then
    let t := plainWrite off v s
    let t := if t.fld SMEM_CFG_SCRUB_SHIFT ≠ s.fld SMEM_CFG_SCRUB_SHIFT ∨ (t.on SMEM_CFG_SCRUB_EN ∧ ¬ s.on SMEM_CFG_SCRUB_EN) then
      { t with mem := { t.mem with scrubIn := 2 ^ t.fld SMEM_CFG_SCRUB_SHIFT } } else t
    if v.getLsbD 1 then startInit t else t
  else plainWrite off v s

/-- The registers of BMPn and BMP_ILV (R66 to R73). -/
def bmpWrite (off : Nat) (v : Reg) (s : State) : State :=
  let n := off % 0x10000 / 0x1000
  let o := off % 0x1000
  if off = BMP_ILV then bmpIlvWrite v s
  else if o = 0 then
    let s := plainWrite off v s
    let s := if v.getLsbD 1 then bmpTrain n s else s
    if v.getLsbD 16 then cpyAbort n s else s
  else if 0x14 ≤ o ∧ s.on (BMP_STAT_CPY_BUSY n) then s
  else if o = 0x28 ∧ v.getLsbD 16 then bmpCpyGo n v s
  else plainWrite off v s

def mothWrite (a : Agent) (off : Nat) (v : Reg) (s : State) : State :=
  if off = MOTH_MGMT_IN then (if a = .mgmt then raise 6 (s.setReg off v) else s)
  else if off = MOTH_WDG_CFG then wdgConfig v s
  else if off = MOTH_WDG_PER then (if s.on MOTH_WDG_CFG_LOCK then s else plainWrite off v s)
  else if off = MOTH_WDG_SVC then wdgService v s
  else plainWrite off v s

/-- SEQ_SVW_SEL: SET 10 to 14 keeps the field (R14). -/
def svwSelect (pg : Nat) (v : Reg) (s : State) : State :=
  let x := bitsOf v.toNat 0 5
  let s := if 10 ≤ x ∧ x ≤ 14 then s else s.setFld (SEQ_SVW_SEL_SET pg) x
  s.setFld (SEQ_SVW_SEL_INDEX pg) (bitsOf v.toNat 8 6)

/-- SEQ_CTX_CMD of LSn (Table 10.5). -/
def ctxCmdWrite (n x op : Nat) (s : State) : State :=
  if op = 0 then s
  else if op = 1 then ctxCommand n x ctxLoadCmd s
  else if op = 2 then ctxCommand n x ctxWakeCmd s
  else if op = 3 then ctxPark n x s
  else if op = 4 then ctxCommand n x ctxFreeCmd s
  else if op = 5 then ctxCommand n x (ctxSetbudCmd (s.reg (SEQ_CTX_BUD (corePage (s.lsCore n))))) s
  else cmdErr n s

/-- The core registers of core `c`. -/
def coreWrite (c : CoreId) (off : Nat) (v : Reg) (s : State) : State :=
  let pg := corePage c
  let o := off - pg
  if o = 0x30 then svwSelect pg v s
  else if o = 0x34 then svwWrite c v s
  else match c with
    | .seq q =>
      match s.lsOfSeq q with
      | some n =>
        if o = 0x68 then ctxCmdWrite n (bitsOf v.toNat 0 9) (bitsOf v.toNat 12 4) s
        else if o = 0x70 then ctxDataWrite n v s
        else plainWrite off v s
      | none => plainWrite off v s
    | _ => plainWrite off v s

/-- SUP_MINT_CTL (R299). -/
def mintCtl (v : Reg) (s : State) : State :=
  if v.getLsbD 0 then mintGo (v.getLsbD 1) (v.extractLsb' 2 3) s
  else (s.setFld SUP_MINT_CTL_MODE (bitsOf v.toNat 1 1)).setFld SUP_MINT_CTL_SRC (bitsOf v.toNat 2 3)

/-- May agent `a`, through a capability with permissions `perm`, write the code-store write registers (R278)? -/
def State.mayCode (s : State) (a : Agent) (perm : Nat) : Bool :=
  match a with
  | .core c => decide (c = .sup) && decide (bitsOf perm 8 1 = 1)
  | .master => s.on DBG_AUTH_STAT_CODEWR
  | _ => false

/-- The supervisor page (chapters 06 to 09). -/
def supWrite (a : Agent) (perm : Nat) (off : Nat) (v : Reg) (s : State) : State :=
  if SUP_MINT_BASE_LO ≤ off ∧ off ≤ SUP_MINT_STAT then
    if a = .core .sup ∧ bitsOf perm 10 1 = 1 then (if off = SUP_MINT_CTL then mintCtl v s else
      let s := plainWrite off v s
      if off = SUP_MINT_STAT ∧ v.getLsbD 2 then s.clearFld SUP_MINT_STAT_ECAUSE else s) else s
  else if SUP_CSW_ADDR ≤ off ∧ off ≤ SUP_CSW_CTL then
    if s.mayCode a perm ∧ !s.on SUP_CS_STAT_BUSY then
      (if off = SUP_CSW_CTL then (if v.getLsbD 0 then codeLineWrite s else s) else plainWrite off v s)
    else s
  else if off = SUP_CS_CFG then
    let s := plainWrite off v s
    if v.getLsbD 16 then lcInvalidate s else s
  else coreWrite .sup off v s

/-- The registers of Pod `p` (R152). -/
def podWrite (p off : Nat) (v : Reg) (s : State) : State :=
  if off = POD_CTL p then (if v.getLsbD 0 ∧ s.on (POD_STAT_BUSY p) then (match s.runOn p with
      | some r => cutRun r.pod s
      | none => s) else s) else plainWrite off v s

/-- HIF_RINGn_CFG (R366, R376). -/
def ringWrite (n : Nat) (v : Reg) (s : State) : State :=
  if s.on (HIF_RING_CFG_EN n) then (if v.getLsbD 0 then s else ringDisable n s)
  else if v.getLsbD 0 then ringEnable n v.toNat s else ringFields n v.toNat s

def hifWrite (off : Nat) (v : Reg) (s : State) : State :=
  if off = HIF_CTL then (if v.getLsbD 0 then hifEnable s else s.clearFld HIF_CTL_EN)
  else if off = HIF_INBOX_CFG ∧ s.on HIF_CTL_EN then s
  else if off = HIF_POST_CTL then (if v.getLsbD 24 then hifPost v s else plainWrite off v s)
  else if HIF_RING_SQBASE_LO 0 ≤ off ∧ off < HIF_RING_SQBASE_LO 64 then
    let n := (off - HIF_RING_SQBASE_LO 0) / 64
    if off = HIF_RING_CFG n then ringWrite n v s
    else if off = HIF_RING_BIND n ∧ s.on (HIF_RING_CFG_EN n) then s
    else plainWrite off v s
  else plainWrite off v s

/-- A doorbell page (R360, R365, R367, R368): true is an ERR answer. -/
def dbWrite (off : Nat) (v : Reg) (s : State) : Bool × State :=
  let n := (off - HIF_DB_SQTAIL 0) / 4096
  if off = HIF_DB_SQTAIL n then (false, doorbellTail n v s)
  else if off = HIF_DB_CQHEAD n then (false, doorbellHead n v s)
  else if HIF_DB_INLINE n 0 ≤ off ∧ off ≤ HIF_DB_INLINE n 15 then (true, s.raiseBit (HIF_RING_STAT_INLINE_ERR n))
  else (false, plainWrite off v s)

def wianWrite (off : Nat) (v : Reg) (s : State) : State :=
  if off = WIAN_CTL then
    let s := plainWrite off v s
    if v.getLsbD 1 then discoveryStart s else s
  else if off = WIAN_RT_DATA then routeWrite (s.fld WIAN_RT_IDX_DST) (bitsOf v.toNat 0 4) s
  else if WIAN_TX_LOC 0 ≤ off ∧ off ≤ WIAN_TX_STAT 3 then
    let c := (off - WIAN_TX_LOC 0) / 32
    if off = WIAN_TX_STAT c then plainWrite off v s
    else if off = WIAN_TX_CTL c then
      let s := if v.getLsbD 17 then txAbort c s else s
      if v.getLsbD 16 then txGo c v s else if s.on (WIAN_TX_STAT_BUSY c) then s else plainWrite off v s
    else if s.on (WIAN_TX_STAT_BUSY c) then s else plainWrite off v s
  else if off = WIAN_LINK_CTL 0 ∨ off = WIAN_LINK_CTL 1 ∨ off = WIAN_LINK_CTL 2 ∨ off = WIAN_LINK_CTL 3 then
    let l := (off - WIAN_LINK_CTL 0) / 64
    let s := linkEnable l (v.getLsbD 0) s
    if v.getLsbD 1 then linkRetrain l s else s
  else plainWrite off v s

/-- A write of the register at offset `off` outside the aperture by agent `a`, through a capability with permissions `perm`: whether it is
answered with ERR, and the state after. -/
def pageWrite (a : Agent) (perm : Nat) (off : Nat) (v : Reg) (s : State) : Bool × State :=
  if s.unbuilt off then (false, s)
  else
    let off := regAlias off
    let p := off / 0x10000
    if 0xC1 ≤ p ∧ p ≤ 0xC4 then dbWrite off v s
    else
      (false,
        if p = 0x00 then crpWrite off v s
        else if p = 0x01 then secWrite a off v s
        else if p = 0x02 then hltWrite off v s
        else if p = 0x03 then tbuWrite off v s
        else if p = 0x04 then evcWrite off v s
        else if p = 0x05 then tgtWrite a (off % 0x10000 / 0x400) off v s
        else if p = 0x06 then pmuWrite off v s
        else if p = 0x07 then
          (if a = .dap ∨ (DBG_VT_CDATA 0 ≤ off ∧ off ≤ DBG_VT_CDATA 3 ∧ off % 16 = 0) then dbgWrite off v s else s)
        else if p = 0x08 then epcWrite off v s
        else if p = 0x09 then smemWrite off v s
        else if p = 0x0A then bmpWrite off v s
        else if p = 0x0B then (if 0x20 ≤ off % 0x10000 ∧ off % 0x10000 ≤ 0x37 then coreWrite .moth off v s else mothWrite a off v s)
        else if p = 0x10 then supWrite a perm off v s
        else if 0x40 ≤ p ∧ p ≤ 0x50 then podWrite (p - 0x40) off v s
        else if p = 0xC0 then hifWrite off v s
        else if p = 0x100 then wianWrite off v s
        else match coreOfPage p with
          | some c => coreWrite c off v s
          | none => plainWrite off v s)

/-- May a broadcast write be applied now, or does it wait for the swap window to end (R37, R373)? -/
def State.castWaits (s : State) : Bool := s.epc.flip.any Flip.swaps

/-- A write to the broadcast aperture at offset `o` in it (R372): the write reaches the page of every selected unit in ascending logical
order; a POD-window write to the allocator registers reaches them once. -/
def broadcast (a : Agent) (perm : Nat) (o : Nat) (v : Reg) (s : State) : State :=
  let g := o / 0x100000
  let x := o % 0x100000
  if x < 0x10000 then
    (List.range s.build.lss).foldl (fun t n =>
      if (s.reg (HIF_BCAST_SEQ g)).getLsbD n then (pageWrite a perm (0x110000 + s.seqOfLs n * 0x10000 + x) v t).2 else t) s
  else if x < 0x20000 then
    let y := x - 0x10000
    let ps := ((List.range s.build.lps).filter (fun k => (s.reg (HIF_BCAST_POD g)).getLsbD k)).filterMap (fun k => s.podOfLp k)
    if 0xF000 ≤ y then (if ps = [] then s else (pageWrite a perm (0x400000 + y) v s).2)
    else ps.foldl (fun t p => (pageWrite a perm (0x400000 + p * 0x10000 + y) v t).2) s
  else s

/-- A write of the register at REG offset `off` by agent `a`. -/
def regWrite (a : Agent) (perm : Nat) (off : Nat) (v : Reg) (s : State) : Bool × State :=
  if inAperture off then (false, broadcast a perm (off - 0x800000) v s) else pageWrite a perm off v s

end Sys2Proof.Machine
end

