-- ==== Sys2Proof/Machine/Ports.lean ====
section
/-! DEFINITION. The ports through which agents reach registers and memory (Table 9.3): power and authority checks, the NPX target (chapter
11), the management port, the debug access port and the accesses of the debug bus master (chapter 16), and the accesses of the single-register
commands. -/

namespace Sys2Proof.Machine

/-! ### Power -/

/-- The island whose registers page `p` of the REG region holds (Table 19.3): 0 to 16 Pods, 17 to 32 slices, 33 to 36 clusters, 37 supervisor
and EPC, 38 Moth, 39 WIAN, 40 host and bulk ports. -/
def islandOfPage (p : Nat) : Nat :=
  if p = 0x00 ∨ p = 0x03 ∨ p = 0x07 ∨ p = 0x0B then 38
  else if p = 0x09 then 17
  else if p = 0x0A then 40
  else if 0x11 ≤ p ∧ p ≤ 0x34 then 33 + clusterOfSeq (p - 0x11)
  else if 0x40 ≤ p ∧ p ≤ 0x50 then p - 0x40
  else if 0x80 ≤ p ∧ p ≤ 0xC4 then 40
  else if p = 0x100 then 39
  else 37

/-- Is the unit of the register at `off` powered and clocked? BMP_STAT, BMP_CAP, BMP_MARGIN and BMP_ILV lie in the Moth island (R534). -/
def State.pageOn (s : State) (off : Nat) : Bool :=
  let p := off / 0x10000
  let o := off % 0x1000
  (decide (p = 0x0A) && (decide (o = 4) || decide (o = 8) || decide (o = 0xC) || decide (off = BMP_ILV)) && s.crp.live) ||
    s.islandOn (islandOfPage p)

/-! ### Single accesses -/

/-- What a port outside NPX receives. -/
def reply (a : Agent) (off : Nat) (d : Option Reg) (s : State) : State :=
  { s with replies := s.replies ++ [{ agent := a, off := off, data := d }] }

/-- How the checks of a port answer an access: it passes, it is refused by SEC and counted for its class (R303, R524), or it takes an error
because nothing answers there. -/
inductive Gate where
  | pass
  | refused (cls : Nat)
  | error
deriving DecidableEq, Repr

/-- The NPX target while the supervisor is not released, and in NAP and SLEEP (R560, R534): 0 accepts nothing, 1 the CRP stub, 2 open. -/
def State.npxMode (s : State) : Nat :=
  if !s.crp.live ∨ s.crp.phase = 0 then 0
  else if s.crp.phase = 2 ∧ s.fld CRP_PWR_STAT_STATE ≠ 3 ∧ s.fld CRP_PWR_STAT_STATE ≠ 4 then 2
  else 1

/-- A HOST access to the register at `off` (Table 9.3, R524, R374). -/
def State.hostGate (s : State) (wr : Bool) (off : Nat) : Gate :=
  let p := off / 0x10000
  if s.npxMode ≠ 2 then (if s.npxMode = 1 ∧ p = 0 then .pass else .error)
  else if off = SEC_CTL ∨ off = SEC_LOCK ∨ off = SEC_NARROW ∨ off = SEC_VERADV then .refused 0
  else if s.on SEC_NARROW_H_CORE ∧ (0x10 ≤ p ∧ p ≤ 0x34 ∨ inAperture off ∧ off % 0x100000 < 0x10000) then .refused 0
  else if s.on SEC_NARROW_H_DBG ∧ p = 0x07 then .refused 0
  else if !wr ∧ inAperture off then .error
  else .pass

/-- A MGMT access: the CRP, HLT and MOTH blocks and, to read, the audit log (Table 9.3, R555). -/
def State.mgmtGate (s : State) (wr : Bool) (off : Nat) : Gate :=
  let p := off / 0x10000
  if p = 0x01 ∧ SEC_AUD_STAT ≤ off ∧ off ≤ SEC_AUD_SEQ then
    if wr ∧ off ≠ SEC_AUD_POP then .refused 2 else if s.pageOn off then .pass else .error
  else if p = 0x0B ∨ p = 0x02 then (if s.pageOn off then .pass else .error)
  else if p = 0x00 then (if wr ∧ s.on SEC_NARROW_M_CRP then .refused 2 else .pass)
  else .refused 2

/-- The registers of other units that the Moth core reaches, through the mirror in its own page. -/
def mothMirror (off : Nat) : Bool :=
  decide (off = CRP_PWR_CTL) || decide (off = CRP_PWR_STAT) || decide (off = CRP_STAT) || decide (off = CRP_RST_STAT) ||
    (decide (EVC_TGT_CLAIM 33 ≤ off) && decide (off < EVC_TGT_CLAIM 34))

/-- An access by agent `a` as the single-register commands make it. A core makes one only while it runs, inside its regions (Table 1.4, Table
6.3); the bus master and the DAP only once authenticated (R474). -/
def State.gate (s : State) (a : Agent) (wr : Bool) (off : Nat) : Gate :=
  match a with
  | .host => if regHole off then .error else s.hostGate wr off
  | .mgmt => s.mgmtGate wr off
  | .dap => if off / 0x10000 = 0x07 then .pass else .error
  | .master =>
    if !s.on DBG_AUTH_STAT_GRANTED then .refused 3
    else if regHole off ∨ !s.pageOn off ∨ (!wr ∧ inAperture off) then .error else .pass
  | .core .moth => if (off / 0x10000 = 0x0B ∨ mothMirror off) ∧ s.pageOn (regAlias off) then .pass else .error
  | .core _ => if regHole off ∨ !s.pageOn off ∨ (!wr ∧ inAperture off) then .error else .pass

/-- Does a Moth access reach, through the mirror, a register of a unit that has no power? -/
def State.mirrorDead (s : State) (a : Agent) (off : Nat) : Bool :=
  decide (a = .core .moth) && (decide (off / 0x10000 = 0x0B) || mothMirror off) && !s.pageOn (regAlias off)

/-- A fault marked for the agent's own core: the priority-stack fault of R419. -/
def ownFault (a : Agent) (s : State) : State :=
  match a with
  | .core c =>
    match (s.core c).pstkFault with
    | some x => markFault c (mkFault 8 x.toNat 0) (s.setCore c { s.core c with pstkFault := none })
    | none => s
  | _ => s

/-- A DAP write (R474): whether it is ignored, and the state after. `off` lies in the DBG block. -/
def dapWrite (off : Nat) (v : Reg) (s : State) : Bool × State :=
  let o := off % 0x10000
  if !s.on DBG_AUTH_STAT_GRANTED ∧ !(decide (0xE00 ≤ o) && decide (o < 0xF00)) then
    if off = DBG_MDATA ∨ (off = DBG_MCTL ∧ v.getLsbD 0) then (true, refuse 3 off (masterFail 1 s)) else (true, s)
  else (false, (pageWrite .dap 0 off v s).2)

/-- A DAP read of a DBG register: never quiet; DDATA returns 0 and pops nothing before authentication (R474, R478). -/
def dapRead (off : Nat) (s : State) : Reg × State :=
  if !s.on DBG_AUTH_STAT_GRANTED ∧ DBG_VT_DDATA 0 ≤ off ∧ off ≤ DBG_VT_DDATA 3 ∧ off % 16 = 4 then (0, s)
  else regRead false off s

/-- A read by agent `a`, with what it receives; a unit without power answers the Moth core a free value. -/
def agentRead (a : Agent) (off : Nat) (s : State) : State :=
  match s.gate a false off with
  | .error =>
    if s.mirrorDead a off then
      let (n, s) := s.takeFresh
      reply a off (some (BitVec.ofNat 32 (Config.free n))) s
    else reply a off none s
  | .refused k => reply a off none (refuse k off s)
  | .pass =>
    let quiet := decide (a = .master) && s.on DBG_MCTL_QUIET
    let r := if a = .dap then dapRead off s else regRead quiet off s
    reply a off (some r.1) r.2

/-- A write by agent `a` that its port lets pass. -/
def agentApply (a : Agent) (off : Nat) (v : Reg) (s : State) : State :=
  let r := if a = .dap then dapWrite off v s else regWrite a 0x7FF off v s
  ownFault a (if r.1 then reply a off none r.2 else r.2)

/-- A broadcast write waits for the swap window to end (R373). -/
def holdCast (c : Cast) (s : State) : State := { s with hif := { s.hif with casts := s.hif.casts ++ [c] } }

/-- A write by agent `a`; a refused one answers so. -/
def agentWrite (a : Agent) (off : Nat) (v : Reg) (s : State) : State :=
  match s.gate a true off with
  | .error => if s.mirrorDead a off then s else reply a off none s
  | .refused k => reply a off none (refuse k off s)
  | .pass => if inAperture off ∧ s.castWaits then holdCast (.reg a off v) s else agentApply a off v s

/-! ### The NPX target -/

/-- The region a beat lies in is not there (R16, R26, Table 1.3). -/
def State.npxHole (s : State) (smem : Bool) (a : Nat) : Bool :=
  if smem then decide (s.build.granules * 16 ≤ a % 0x8000000) else regHole a

/-- Register `j` of a REG read beat at `a`: the beat's data so far, whether it takes ERR, and the state. -/
def npxRegRead (a : Nat) (j : Nat) (x : Nat × Bool × State) : Nat × Bool × State :=
  let (d, err, s) := x
  match s.hostGate false (a + 4 * j) with
  | .pass =>
    let r := regRead false (a + 4 * j) s
    (setBitsOf d (32 * j) 32 r.1.toNat, err, r.2)
  | .refused k => (d, true, if err then s else refuse k (a + 4 * j) s)
  | .error => (d, true, s)

/-- Register `j` of a REG write beat (R10, R11). -/
def npxRegWrite (a : Nat) (w : NpxBeat) (j : Nat) (x : Bool × State) : Bool × State :=
  let (err, s) := x
  let be := bitsOf w.be.toNat (4 * j) 4
  if be = 0 then x
  else if be ≠ 15 then (true, s)
  else match s.hostGate true (a + 4 * j) with
    | .pass =>
      let r := regWrite .host 0 (a + 4 * j) (w.data.extractLsb' (32 * j) 32) s
      (err || r.1, r.2)
    | .refused k => (true, if err then s else refuse k (a + 4 * j) s)
    | .error => (true, s)

/-- A REG read beat (R10, R356). -/
def npxRegBeatR (a : Nat) (s : State) : NpxSlot × State :=
  let r := (List.range 16).foldl (fun x j => npxRegRead a j x) (0, false, s)
  (if r.2.1 then doneBeat 1 0 else doneBeat 0 (BitVec.ofNat 512 r.1), r.2.2)

/-- Is `a` the inline slot of a doorbell page, and of which ring? -/
def inlineSlot (a : Nat) : Option Nat :=
  if HIF_DB_SQTAIL 0 ≤ a ∧ a < HIF_DB_SQTAIL 63 + 0x1000 ∧ a % 0x1000 = 0x40 then some ((a - HIF_DB_SQTAIL 0) / 0x1000) else none

/-- A REG write beat: the inline slot takes it whole (R368); elsewhere register by register. -/
def npxRegBeatW (a : Nat) (w : NpxBeat) (s : State) : NpxSlot × State :=
  let r :=
    match (if s.npxMode = 2 then inlineSlot a else none) with
    | some n => let x := inlineBeat n w s; (!x.1, x.2)
    | none => (List.range 16).foldl (fun x j => npxRegWrite a w j x) (false, s)
  (doneBeat (if r.1 then 1 else 0) 0, r.2)

/-- The access of the NPX target to granule `q` of beat `b` of transaction `t` at SMEM offset `a` (R24, Table 3.2). -/
def State.npxAccess (s : State) (write : Bool) (t b q a : Nat) (kind : Kind) : Access :=
  let g := a % 0x8000000 / 16 + q
  let staging := decide (0x8000000 ≤ a)
  { dest := if write then .npxWr t b q else .npxRd t b q, port := 0, gran := g, view := if staging then 2 else 1,
    group := if staging then 63 else s.stamp (g / 4096), owner := 0x8000, kind := kind }

/-- The stamp of a read beat (R101, R355). -/
def State.npxStamp (s : State) (a : Nat) : BitVec 6 × BitVec 32 × Bool :=
  if 0x8000000 ≤ a then (63, (s.group 63).wepoch, true)
  else
    let m := s.stamp (a / 65536)
    (m, (s.group m.toNat).gepoch, false)

/-- Beat `b` of a SMEM read at `a`: its slot, and its accesses presented. -/
def npxSmemR (t b a : Nat) (s : State) : NpxSlot × State :=
  if s.npxHole true a then (doneBeat 2 0, s)
  else if a < 0x8000000 ∧ s.on SEC_NARROW_H_CMT then ({ doneBeat 1 0 with stamp := s.npxStamp a }, refuse 0 a s)
  else
    ({ wait := [0, 1, 2, 3], resp := 0, data := 0, stamp := s.npxStamp a },
      (List.range 4).foldl (fun s q => present (s.npxAccess false t b q a .read) s) s)

/-- Beat `b` of a SMEM write at `a` (R25, R62): granules with no byte enabled are not accessed. -/
def npxSmemW (t b a : Nat) (w : NpxBeat) (s : State) : NpxSlot × State :=
  if s.npxHole true a then (doneBeat 2 0, s)
  else if a < 0x8000000 then (doneBeat 1 0, s)
  else if s.on SEC_NARROW_H_STG then (doneBeat 1 0, refuse 0 a s)
  else
    let qs := (List.range 4).filter (fun q => decide (bitsOf w.be.toNat (16 * q) 16 ≠ 0))
    ({ wait := qs, resp := 0, data := 0, stamp := (0, 0, false) },
      qs.foldl (fun s q => present (s.npxAccess true t b q a
        (.write (w.data.extractLsb' (128 * q) 128) (w.be.extractLsb' (16 * q) 16) false)) s) s)

/-- May the target accept a request now: not before step 2, and with fewer than 128 outstanding (R352, R560)? -/
def State.npxAccepts (s : State) : Bool := decide (s.npxMode ≠ 0) && decide (s.hif.txns.length < 128)

/-- The beats of a request, each by `f` with its number and offset. -/
def npxBeats (f : Nat → Nat → State → NpxSlot × State) (a n : Nat) (s : State) : List NpxSlot × State :=
  (List.range n).foldl (fun x b =>
    let r := f b (a + 64 * b) x.2
    (x.1 ++ [r.1], r.2)) ([], s)

/-- The ERR beats of a refused request of `n` beats at `a`: those of the SMEM region carry its stamp (R355). -/
def State.errBeats (s : State) (write smem : Bool) (a n : Nat) : List NpxSlot :=
  (List.range n).map (fun b => if smem ∧ !write then { doneBeat 1 0 with stamp := s.npxStamp (a + 64 * b) } else doneBeat 1 0)

/-- A refused write of `n` beats at REG offset `a` forwards nothing to a ring's inline slot that it covers, and sets its INLINE_ERR (R368). -/
def inlineErrors (a n : Nat) (s : State) : State :=
  (List.range n).foldl (fun s b => match inlineSlot (a + 64 * b) with
    | some r => s.raiseBit (HIF_RING_STAT_INLINE_ERR r)
    | none => s) s

/-- A request of `n` beats at `a`, before and after the checks on the whole request (R351, R358, R534, R560). -/
def npxRequest (id : BitVec 8) (write smem : Bool) (a n : Nat) (f : Nat → Nat → State → NpxSlot × State) (s : State) : State :=
  if a / 4096 ≠ (a + 64 * n - 1) / 4096 ∨ (!smem ∧ 1 < n) ∨ (s.npxMode = 1 ∧ (smem ∨ 0x10000 ≤ a)) then
    npxOpen id write (s.errBeats write smem a n) (if write ∧ !smem ∧ s.npxMode = 2 then inlineErrors a n s else s)
  else
    let r := npxBeats (fun b x s => if s.npxHole smem x then (doneBeat 2 0, s) else f b x s) a n s
    npxOpen id write r.1 r.2

/-- An NPX read accepted. -/
def npxRead (id : BitVec 8) (smem : Bool) (addr : BitVec 28) (len : BitVec 6) (s : State) : State :=
  if !s.npxAccepts then s
  else
    let n := len.toNat + 1
    let t := s.hif.next
    let s := portBytes 0 (64 * n) (tally 7 0 0 n s)
    npxRequest id false smem (addr.toNat / 64 * 64) n (fun b a s => if smem then npxSmemR t b a s else npxRegBeatR a s) s

/-- An NPX write accepted with its beats. -/
def npxWrite (id : BitVec 8) (smem : Bool) (addr : BitVec 28) (len : BitVec 6) (beats : List NpxBeat) (s : State) : State :=
  if !s.npxAccepts then s
  else
    let n := len.toNat + 1
    let t := s.hif.next
    let s := portBytes 1 (64 * n) (tally 7 0 1 n s)
    npxRequest id true smem (addr.toNat / 64 * 64) n (fun b a s =>
      let w := beats.getD b { data := 0, be := 0 }
      if smem then npxSmemW t b a w s
      else if inAperture a ∧ s.castWaits then ({ doneBeat 0 0 with wait := [0] }, holdCast (.npx t a w) s)
      else npxRegBeatW a w s) s

/-- The broadcast writes that waited are applied in order, and those of NPX answered (R373, R354). -/
def applyCasts (s : State) : State :=
  s.hif.casts.foldl (fun s c => match c with
    | .reg a off v => agentApply a off v s
    | .npx t off w =>
      let r := npxRegBeatW off w s
      npxBeat t 0 (fun _ => r.1) r.2) { s with hif := { s.hif with casts := [] } }

/-! ### The debug access port -/

/-- The REG offset that offset bits [15:2] of a DBG access name. -/
def dbgOff (o : BitVec 14) : Nat := 0x70000 + 4 * o.toNat

/-- A DBGREG read (R472): offset, data and STATUS of the access. -/
def dbgregRead (o : BitVec 14) (s : State) : State :=
  if s.dbg.ir ≠ 6 then s
  else
    let r := dapRead (dbgOff o) s
    { r.2 with dbg := { r.2.dbg with off := o, data := r.1, stat := 0 } }

/-- A DBGREG write: STATUS 2 when it was ignored. -/
def dbgregWrite (o : BitVec 14) (v : Reg) (s : State) : State :=
  if s.dbg.ir ≠ 6 then s
  else
    let r := dapWrite (dbgOff o) v s
    { r.2 with dbg := { r.2.dbg with off := o, stat := if r.1 then 2 else 0 } }

/-- Capture-DR of DBGREG: data of the last read, offset and STATUS of the last access. -/
def dbgregCapture (s : State) : State :=
  if s.dbg.ir ≠ 6 then s
  else { s with dbg := { s.dbg with scan := (s.dbg.stat ++ s.dbg.off ++ s.dbg.data : BitVec 48) } }

/-- A register-port transfer (R473). -/
def daprAccess (wr : Bool) (o : BitVec 14) (v : Reg) (s : State) : State :=
  if wr then
    let r := dapWrite (dbgOff o) v s
    reply .dap (dbgOff o) (if r.1 then none else some 0) r.2
  else
    let r := dapRead (dbgOff o) s
    reply .dap (dbgOff o) (some r.1) r.2

/-! ### The debug bus master (R476 to R479, Table 16.2) -/

/-- The cause where the unit is not running: 8 when sleep emulation stopped it, else 2. -/
def State.stopCause (s : State) : Nat := if s.emulated then 8 else 2

/-- The word pair at word `w` of a granule. -/
def granPair (d : Gran) (w : Nat) : Reg := granWord d (w + 1) ++ granWord d w

/-- A granule's bytes and enables for a word pair at word `w`. -/
def pairData (w : Nat) (v : Reg) : Gran := BitVec.ofNat 128 (v.toNat * 2 ^ (16 * (w % 8)))
def pairBe (w : Nat) : BitVec 16 := BitVec.ofNat 16 (15 * 2 ^ (2 * (w % 8)))

/-- The master's access to stream memory at word `w` (R477). -/
def MasterOp.access (o : MasterOp) (w : Nat) : Access :=
  { dest := .master, port := 67, gran := w / 8, view := o.ctl.extractLsb' 8 2, group := o.ctl.extractLsb' 16 6, owner := 0x4000,
    kind := if o.write then .write (pairData w o.data) (pairBe w) false else .read }

/-- The running master access goes on where its stream-memory access has ended. -/
def masterGo (s : State) : State :=
  match s.dbg.mop, s.endedOf .master with
  | some o, some (.ok d _) => masterOk o (if o.write then s else s.setReg DBG_MDATA (granPair d o.addr.toNat))
  | some _, some .ue => masterEnd 4 s
  | some _, some (.capacity _) => masterEnd 5 s
  | some _, some (.conflict _) => masterEnd 6 s
  | some _, some .frozen => masterEnd 10 s
  | _, _ => s

/-- A master access to stream memory: its view is checked, then its request goes to its arbiter. -/
def masterStream (o : MasterOp) (w : Nat) (upsets : List Upset) (s : State) : State :=
  let v := o.ctl.extractLsb' 8 2
  if s.underway .master then s
  else if v = 3 ∨ (o.write ∧ v = 1) then masterEnd 7 s
  else masterGo (ask upsets s (o.access w))

/-- The end of a master access to local scratch. -/
def masterScratch (o : MasterOp) (w : Nat) (s : State) : State :=
  let g := scrGranOfWord w
  if o.write then masterOk o (scrLanded g (s.setScr g (pairData w o.data) (pairBe w) false))
  else
    let (r, s) := fetchScr g s
    masterOk o (s.setReg DBG_MDATA (granPair r.data w))

/-- The end of a master access to bulk memory: the controller's data and status for a read. -/
def masterBulk (o : MasterOp) (w : Nat) (data : Reg) (stat : BitVec 2) (s : State) : State :=
  match s.bulkPort (2 * (w - 0x8000000000)) with
  | none => masterEnd 2 s
  | some (n, a) =>
    if !s.bulkOk w then masterEnd 2 s
    else if o.write then masterOk o (bulkWrite n w [o.data.extractLsb' 0 16, o.data.extractLsb' 16 16] s)
    else
      let r := bmpStatus n a stat s
      if r.1 then masterOk o (r.2.setReg DBG_MDATA data) else masterEnd 4 r.2

/-- The end of a master access to the register region; a reset it caused has ended it (R496). -/
def masterReg (o : MasterOp) (off : Nat) (s : State) : State :=
  if regHole off ∨ (!o.write ∧ inAperture off) then masterEnd 2 s
  else if !s.pageOn off then masterEnd s.stopCause s
  else if o.write then
    if inAperture off ∧ s.castWaits then s
    else
      let r := regWrite .master 0 off o.data s
      if r.2.dbg.mop.isNone then r.2 else if r.1 then masterEnd 2 r.2 else masterOk o r.2
  else
    let r := regRead (o.ctl.getLsbD 2) off s
    masterOk o (r.2.setReg DBG_MDATA r.1)

/-- The running master access ends. -/
def masterDone (data : Reg) (stat : BitVec 2) (upsets : List Upset) (s : State) : State :=
  match s.dbg.mop with
  | none => s
  | some o =>
    let w := o.addr.toNat
    if w % 2 = 1 then masterEnd 3 s
    else match s.region .sup w with
      | .stream => if s.islandOn (17 + sliceOf s.build (w / 8)) then masterStream o w upsets s else masterEnd s.stopCause s
      | .scratch => if s.islandOn (33 + (w - 0x10000000) / 0x10000 / 8) then masterScratch o w s else masterEnd s.stopCause s
      | .bulk => if s.islandOn 40 then masterBulk o w data stat s else masterEnd s.stopCause s
      | .regs => masterReg o (regOffOfWord w) s
      | _ => masterEnd 2 s

end Sys2Proof.Machine
end

