-- ==== Sys2Proof/Machine/SprinMem.lean ====
section
/-! DEFINITION. The memory instructions of a Sprin core (chapters 06, 07 and 09): how an access is checked and presented, and what the core
does when it is granted or its data arrive. -/

namespace Sys2Proof.Machine

/-! ### Faults, watchpoints and requests -/

/-- The fault of an access to word `w` that ended in `r` (Tables 3.7 and 9.7, R56, R65). -/
def MemRes.coreFault (w : Nat) : MemRes → Option FaultRec
  | .ok _ _ => none
  | .ue => some (mkFault 2 1 w)
  | .capacity x => some (mkFault 4 x w)
  | .conflict x => some (mkFault 5 x w)
  | .frozen => some (mkFault 2 4 w)

/-- A 40-bit watchpoint bound. -/
def Core.wpBound (k : Core) (lo hi : Nat) : Nat :=
  (Tbl.get 0 lo k.dbg).toNat + bitsOf (Tbl.get 0 hi k.dbg).toNat 0 8 * 2 ^ 32

/-- The watchpoint that an access to `n` words from `w` on matches, as a load, a store or both (R488); none at monitor level (R484). -/
def Core.watchpoint (k : Core) (ld st : Bool) (w n : Nat) : Option Nat :=
  if k.level = 12 then none
  else firstBelow (fun i =>
    let ctl := (Tbl.get 0 (DBG_WP_CTL i) k.dbg).toNat
    decide (bitsOf ctl 0 1 = 1) && ((ld && decide (bitsOf ctl 1 1 = 1)) || (st && decide (bitsOf ctl 2 1 = 1))) &&
      decide (k.wpBound (DBG_WP_LO_LO i) (DBG_WP_LO_HI i) < w + n) && decide (w ≤ k.wpBound (DBG_WP_HI_LO i) (DBG_WP_HI_HI i))) 2

/-- A matching watchpoint requests a halt that follows the retirement of the instruction (R488). -/
def watch (c : CoreId) (ld st : Bool) (w n : Nat) (s : State) : State :=
  match (s.core c).watchpoint ld st w n with
  | some i => s.setCore c { s.core c with after := some (3, BitVec.ofNat 2 i) }
  | none => s

/-- An instruction leaves its access in flight: the running level goes on with `out`; a fault or an interrupt returns to `v`. -/
def launch (c : CoreId) (v out : View) (kind : FKind) (cap : Cap) (w : Nat) (s : State) : State :=
  let s := s.setView c out
  let k := s.core c
  s.setCore c { k.issued with flight := k.flight ++ [{ tok := k.tok, kind := kind, addr := BitVec.ofNat 40 w, cap := cap, regs := v.regs,
                                                       bank := v.bank, fail := none, done := false, got := none, young := 0,
                                                       since := s.clk.pclk }],
                              tok := k.tok + 1 }

/-- The view `out` past the instruction. -/
def View.past (v : View) : View := { v with regs := v.regs.complete none }

/-- The request of access `tok` of core `c` to word `w` leaves for stream memory or a scratch array. -/
def presentCore (c : CoreId) (tok : Nat) (cap : Cap) (w : Nat) (kind : Kind) (s : State) : State :=
  if s.region c w = .stream then
    present { dest := .core c tok, port := corePort c, gran := w / 8, view := cap.view, group := cap.group, owner := ownerTag c cap,
              kind := kind } s
  else { s with scr := { s.scr with
    reqs := s.scr.reqs ++ [{ id := s.scr.nextId, core := c, tok := tok, addr := BitVec.ofNat 40 w, kind := kind }],
    nextId := s.scr.nextId + 1 } }

/-- A read request of access `tok` leaves for the region of word `w`; none while the bulk port has no tag free. -/
def requestRead (c : CoreId) (tok : Nat) (cap : Cap) (w : Nat) (s : State) : Option State :=
  if s.region c w = .bulk then bmpRequest c tok w (notFixed c s) else some (presentCore c tok cap w .read s)

/-- Words written to bulk memory at word `w`: they leave the core at once. -/
def bulkStore (c : CoreId) (w : Nat) (ws : List Word) (s : State) : State :=
  match s.bulkPort (2 * (w - 0x8000000000)) with
  | some (n, _) => bulkWrite n w ws (notFixed c s)
  | none => s

/-- The write of one or two words at word `w` of its granule. -/
def wordsKind (w : Nat) (ws : List Word) : Kind :=
  match ws with
  | [x, y] => .write (pairData w (y ++ x)) (pairBe w) false
  | x :: _ => .write (wordData w x) (wordBe w) false
  | [] => .read

/-- Is an earlier store of the core to the granule of word `w` not granted yet (R198)? -/
def Core.storePending (k : Core) (w : Nat) : Bool :=
  k.flight.any (fun f => !f.done && match f.kind with
    | .store => decide (f.addr.toNat / 8 = w / 8)
    | _ => false)

/-- Has the core a load in flight to the granule of word `w`? -/
def Core.loadPending (k : Core) (w : Nat) : Bool := k.flight.any (fun f => !f.done && decide (f.addr.toNat / 8 = w / 8))

/-- Does a load of words `w` to `w + n - 1` wait: behind an earlier store of the core to the same granule, in bulk memory behind an earlier load of
it (R198, R200), or for one of the scoreboard's 8 entries (R267)? -/
def State.loadWaits (s : State) (c : CoreId) (w n : Nat) : Bool :=
  let k := s.core c
  k.storePending w || k.storePending (w + n - 1) || decide (8 ≤ k.loads) ||
    (decide (s.region c w = .bulk) && (k.loadPending w || k.loadPending (w + n - 1)))

/-- Does a pair access of `n` words at word `w` proceed as a split access (Table 6.5)? -/
def State.splits (s : State) (c : CoreId) (cap : Cap) (w n : Nat) : Bool :=
  decide (n = 2) && decide (w % 2 = 1) && !decide (c = .moth) && (s.core c).splitEn && cap.has 9

/-- The checks of a load or store of `n` words: of both halves, lower first, for a split access (R195, R202). -/
def State.checkAccess (s : State) (c : CoreId) (cap : Cap) (off n : Nat) (st : Bool) : Option FaultRec :=
  let perms := [if st then 1 else 0]
  if s.splits c cap (cap.base + off) n then
    let half := fun o => s.check c cap o { perms := perms, st := st, n := 1, align := 1 } true false
    match half off with
    | some f => some f
    | none => half (off + 1)
  else s.check c cap off { perms := perms, st := st, n := n, align := n } (decide (n = 1)) false

/-! ### The register region (R12, R304) -/

/-- The canonical offset of a core's access, and whether a Moth access reaches a register of another unit that has no power. -/
def State.deadAlias (s : State) (c : CoreId) (off : Nat) : Bool := decide (c = .moth) && !s.pageOn (regAlias off)

/-- LD2 on a register: one read with the effects of a read, or a bus-error fault; it waits until no older access can fault, as a discarded
instruction has no effect (R265). `v` has its operands taken. -/
def regLoad (c : CoreId) (v : View) (w : Nat) (s : State) : State :=
  let off := regOffOfWord w
  let give := fun (d : Reg) (s : State) =>
    retire c (v.eff 0 [d.extractLsb' 0 16, d.extractLsb' 16 16]) none (watch c true false w 2 s)
  if (s.core c).flight ≠ [] then s
  else if s.deadAlias c off then
    let (n, s) := s.takeFresh
    give (BitVec.ofNat 32 (Config.free n)) s
  else match s.gate (.core c) false off with
    | .pass =>
      let (d, s) := regRead false off s
      give d s
    | _ => markFault c (mkFault 2 0 w) s

/-- ST2 on a register: one write, a bus-error fault where the write is answered with an error, or the priority-stack fault it meets
(R419). `v` has its operands taken. -/
def regStore (c : CoreId) (v : View) (cap : Cap) (w : Nat) (x : Reg) (s : State) : State :=
  let off := regOffOfWord w
  let done := fun (s : State) => retire c v none (watch c false true w 2 s)
  if s.deadAlias c off then done s
  else match s.gate (.core c) true off with
    | .pass =>
      if inAperture off ∧ s.castWaits then s
      else
        let r := regWrite (.core c) cap.perm off x s
        if r.1 then markFault c (mkFault 2 0 w) r.2
        else if (r.2.core c).pstkFault.isSome then ownFault (.core c) r.2
        else (regWrite (.core c) cap.perm off x (done s)).2
    | _ => markFault c (mkFault 2 0 w) s

/-! ### Loads and stores (Tables 7.5 and 7.13) -/

/-- A load of `n` words at offset `off` through `cap`, which takes `p` cells (R192, R194, R195, R198, R266). -/
def loadAccess (c : CoreId) (p n : Nat) (cap : Cap) (off : Nat) (v : View) (s : State) : State :=
  let w := cap.base + off
  let k := s.core c
  match s.checkAccess c cap off n false with
  | some f => markFault c f s
  | none =>
    if s.region c w = .regs then regLoad c (v.eff p []) w s
    else if s.loadWaits c w n then s
    else
      let pos := v.bank.opd - p
      let kind := if s.splits c cap w n then FKind.split pos true false 0 else .load pos n
      let out := (v.eff p (List.replicate n 0)).past
      match requestRead c k.tok cap w (launch c v out kind cap w (watch c true false w n s)) with
      | some s' => s'
      | none => s

/-- A store of the words `ws` at offset `off` through `cap`, which takes `p` cells (R192, R195, R203, R266). -/
def storeAccess (c : CoreId) (p : Nat) (ws : List Word) (cap : Cap) (off : Nat) (v : View) (s : State) : State :=
  let w := cap.base + off
  let n := ws.length
  let k := s.core c
  match s.checkAccess c cap off n true with
  | some f => markFault c f s
  | none =>
    let s1 := watch c false true w n s
    let out := v.eff p []
    match ws with
    | [] => s
    | x :: more =>
      let y := more.headD 0
      if s.region c w = .regs then regStore c out cap w (y ++ x) s
      else if s.splits c cap w n then
        if s.region c w = .bulk then retire c out none (bulkStore c (w + 1) [y] (bulkStore c w [x] s1))
        else presentCore c k.tok cap w (wordsKind w [x]) (launch c v out.past (.split 0 false false y) cap w s1)
      else if s.region c w = .bulk then retire c out none (bulkStore c w ws s1)
      else presentCore c k.tok cap w (wordsKind w ws) (launch c v out.past .store cap w s1)

/-- A load instruction: `p` cells of index, from which `idx` forms the offset beside the displacement `d`. -/
def loadIns (c : CoreId) (r : BitVec 3) (d p n : Nat) (idx : View → Nat) (s : State) : Out :=
  issue c { p := p, q := n, rep := true } (fun v s => loadAccess c p n (s.capReg c r.toNat) (d + idx v) v s) s

/-- A store instruction: `p` cells, of which `ws` are stored and `idx` forms the offset. -/
def storeIns (c : CoreId) (r : BitVec 3) (d p : Nat) (ws : View → List Word) (idx : View → Nat) (s : State) : Out :=
  issue c { p := p, rep := true, plain := false } (fun v s => storeAccess c p (ws v) (s.capReg c r.toNat) (d + idx v) v s) s

def noIndex (_ : View) : Nat := 0
def cellIndex (v : View) : Nat := (v.cell 0).toNat
def pairIndex (v : View) : Nat := (pair (v.cell 1) (v.cell 0)).toNat

/-- LD c, d ( -- x ). -/
def execLd (c : CoreId) (r : BitVec 3) (d : BitVec 6) (s : State) : Out := loadIns c r d.toNat 0 1 noIndex s
/-- ST c, d ( x -- ). -/
def execSt (c : CoreId) (r : BitVec 3) (d : BitVec 6) (s : State) : Out := storeIns c r d.toNat 1 (fun v => [v.cell 0]) noIndex s
/-- LD2 c, d ( -- lo hi ). -/
def execLd2 (c : CoreId) (r : BitVec 3) (d : BitVec 6) (s : State) : Out := loadIns c r d.toNat 0 2 noIndex s
/-- ST2 c, d ( lo hi -- ). -/
def execSt2 (c : CoreId) (r : BitVec 3) (d : BitVec 6) (s : State) : Out :=
  storeIns c r d.toNat 2 (fun v => [v.cell 1, v.cell 0]) noIndex s
/-- LDX c, d ( i -- x ). -/
def execLdx (c : CoreId) (r : BitVec 3) (d : BitVec 6) (s : State) : Out := loadIns c r d.toNat 1 1 cellIndex s
/-- STX c, d ( x i -- ). -/
def execStx (c : CoreId) (r : BitVec 3) (d : BitVec 6) (s : State) : Out := storeIns c r d.toNat 2 (fun v => [v.cell 1]) cellIndex s
/-- LD2X c, d ( i -- lo hi ). -/
def execLd2x (c : CoreId) (r : BitVec 3) (d : BitVec 6) (s : State) : Out := loadIns c r d.toNat 1 2 cellIndex s
/-- ST2X c, d ( lo hi i -- ). -/
def execSt2x (c : CoreId) (r : BitVec 3) (d : BitVec 6) (s : State) : Out :=
  storeIns c r d.toNat 3 (fun v => [v.cell 2, v.cell 1]) cellIndex s
/-- LDP c ( ol oh -- x ). -/
def execLdp (c : CoreId) (r : BitVec 3) (s : State) : Out := loadIns c r 0 2 1 pairIndex s
/-- STP c ( x ol oh -- ). -/
def execStp (c : CoreId) (r : BitVec 3) (s : State) : Out := storeIns c r 0 3 (fun v => [v.cell 2]) pairIndex s
/-- LD2P c ( ol oh -- lo hi ). -/
def execLd2p (c : CoreId) (r : BitVec 3) (s : State) : Out := loadIns c r 0 2 2 pairIndex s
/-- ST2P c ( lo hi ol oh -- ). -/
def execSt2p (c : CoreId) (r : BitVec 3) (s : State) : Out := storeIns c r 0 4 (fun v => [v.cell 3, v.cell 2]) pairIndex s

/-! ### TAS, LR and SC (R246, R247) -/

/-- An atomic access at offset `off` through `cap`: its checks, and its request in flight as `fk`. -/
def atomicAccess (c : CoreId) (need : Need195) (out : View) (fk : FKind) (kind : Nat → Kind) (cap : Cap) (off : Nat) (v : View)
    (s : State) : State :=
  let w := cap.base + off
  let k := s.core c
  match s.check c cap off need true true with
  | some f => markFault c f s
  | none =>
    if k.storePending w ∨ 8 ≤ k.loads then s
    else presentCore c k.tok cap w (kind w) (launch c v out.past fk cap w (watch c true true w need.n s))

/-- TAS c ( i -- old ). -/
def execTas (c : CoreId) (r : BitVec 3) (s : State) : Out :=
  issue c { p := 1, q := 1, plain := false } (fun v s =>
    atomicAccess c { perms := [0, 1], st := true, n := 1, align := 1 } (v.eff 1 [0]) (.tas (v.bank.opd - 1)) (fun w => .tas (w % 8))
      (s.capReg c r.toNat) (cellIndex v) v s) s

/-- LR c ( i -- w0 ): R78 applies to it through a PRIOR capability too (R196). -/
def execLr (c : CoreId) (r : BitVec 3) (s : State) : Out :=
  issue c { p := 1, q := 1, absent := true } (fun v s =>
    atomicAccess c { perms := [0, 1], st := true, n := 8, align := 8 } (v.eff 1 [0]) (.lr (v.bank.opd - 1)) (fun _ => .lr)
      (s.capReg c r.toNat) (cellIndex v) v s) s

/-- SC c ( x i -- f ). -/
def execSc (c : CoreId) (r : BitVec 3) (s : State) : Out :=
  issue c { p := 2, q := 1, plain := false, absent := true } (fun v s =>
    atomicAccess c { perms := [0, 1], st := true, n := 1, align := 8 } (v.eff 2 [0]) (.sc (v.bank.opd - 2)) (fun w => .sc (w % 8) (v.cell 1))
      (s.capReg c r.toNat) (cellIndex v) v s) s

/-! ### CLDC and CSTC (R256, R295) -/

/-- The eight-word checks of CLDC (`st` false) and CSTC through Cb. -/
def State.capCheck (s : State) (c : CoreId) (cap : Cap) (off : Nat) (st : Bool) : Option FaultRec :=
  s.check c cap off { perms := if st then [1, 3] else [0, 2], st := st, n := 8, align := 8 } true false

/-- CLDC a, b ( lo hi -- ): it may be sent beside older accesses, and writes its register when it retires (R266). -/
def execCldc (c : CoreId) (a b : BitVec 3) (s : State) : Out :=
  issue c { p := 2 } (fun v s =>
    let cap := s.capReg c b.toNat
    let w := cap.base + pairIndex v
    match s.capCheck c cap (pairIndex v) false with
    | some f => markFault c f s
    | none =>
      if s.loadWaits c w 8 then s
      else match requestRead c (s.core c).tok cap w (launch c v (v.eff 2 []).past (.cldc a) cap w (watch c true false w 8 s)) with
      | some s' => s'
      | none => s) s

/-- CSTC a, b ( lo hi -- ). -/
def execCstc (c : CoreId) (a b : BitVec 3) (s : State) : Out :=
  issue c { p := 2, plain := false } (fun v s =>
    let cap := s.capReg c b.toNat
    let x := s.capReg c a.toNat
    let w := cap.base + pairIndex v
    match s.capCheck c cap (pairIndex v) true with
    | some f => markFault c f s
    | none =>
      let s1 := watch c false true w 8 s
      if s.region c w = .bulk then retire c (v.eff 2 []) none (bulkStore c w (granWords x.bits) s1)
      else presentCore c (s.core c).tok cap w (.write x.bits 0xFFFF (s.capTagged x))
        (launch c v (v.eff 2 []).past .cstc cap w s1)) s

/-! ### LDM and STM (R248 to R250) -/

/-- The highest set bit of a mask that is not 0, and the lowest. -/
def topBit (m : Word) : Nat := Nat.log2 m.toNat
def lowBit (m : Word) : Nat := (firstBelow (fun i => m.getLsbD i) 16).getD 0

/-- A mask with bit `j` cleared. -/
def dropBit (m : Word) (j : Nat) : Word := m &&& ~~~(1#16 <<< j)

/-- The mask LDM and STM read when they can issue, 0 while an access is in flight (they wait then, whatever it is). -/
def State.stepMask (s : State) (c : CoreId) : Word :=
  match s.view c with
  | some v => if (s.core c).flight.isEmpty then v.cell 0 else 0
  | none => 0

/-- A step has issued but not ended the instruction: a breakpoint at it does not match again. -/
def stayHere (c : CoreId) (s : State) : State := s.setCore c { s.core c with skipBp := true }

/-- The view after an LDM step loaded `x` for bit `j`, and after an STM step stored the cell of bit `j`. -/
def View.ldmStep (v : View) (x : Word) : View := v.eff 2 [x, v.cell 1, dropBit (v.cell 0) (topBit (v.cell 0))]
def View.stmStep (v : View) : View := v.eff 3 [v.cell 1, dropBit (v.cell 0) (lowBit (v.cell 0))]

/-- One step of LDM c (R248). -/
def execLdmStep (c : CoreId) (r : BitVec 3) (s : State) : Out :=
  let more := decide (s.stepMask c ≠ 0)
  issue c { p := 2, q := if more then 3 else 0, plain := false } (fun v s =>
    let cap := s.capReg c r.toNat
    let off := (v.cell 1).toNat + topBit (v.cell 0)
    let w := cap.base + off
    if v.cell 0 = 0 then retire c (v.eff 2 []) none s
    else match s.check c cap off { perms := [0], st := false, n := 1, align := 1 } true false with
      | some f => markFault c f s
      | none =>
        match requestRead c (s.core c).tok cap w (stayHere c (launch c v v (.ldm r) cap w (watch c true false w 1 s))) with
        | some s' => s'
        | none => s) s

/-- One step of STM c (R249). -/
def execStmStep (c : CoreId) (r : BitVec 3) (s : State) : Out :=
  let more := decide (s.stepMask c ≠ 0)
  issue c { p := if more then 3 else 2, q := if more then 2 else 0, plain := false } (fun v s =>
    let cap := s.capReg c r.toNat
    let off := (v.cell 1).toNat + lowBit (v.cell 0)
    let w := cap.base + off
    if v.cell 0 = 0 then retire c (v.eff 2 []) none s
    else match s.check c cap off { perms := [1], st := true, n := 1, align := 1 } true false with
      | some f => markFault c f s
      | none =>
        let s1 := watch c false true w 1 s
        if s.region c w = .bulk then
          let s2 := (bulkStore c w [v.cell 2] s1).setView c v.stmStep
          stayHere c (s2.setCore c (s2.core c).issued.settle)
        else presentCore c (s.core c).tok cap w (wordsKind w [v.cell 2]) (stayHere c (launch c v v (.stm r) cap w s1))) s

/-- Piece `j` of core `c` through `cap`, a write of the words `ws` at word `w`: how it has ended, once it has. -/
def pieceWrite (c : CoreId) (cap : Cap) (j w : Nat) (ws : List Word) (s : State) : Option MemRes × State :=
  let d := pairData w (ws.getD 1 0 ++ ws.getD 0 0)
  match s.region c w with
  | .stream =>
    let s := ask [] s { dest := .piece c j, port := corePort c, gran := w / 8, view := cap.view, group := cap.group, owner := ownerTag c cap,
                        kind := wordsKind w ws }
    (s.endedOf (.piece c j), s)
  | .scratch =>
    let g := scrGranOfWord w
    (some (.ok d false), scrLanded g (s.setScr g d (pairBe w) false))
  | .moth => (some (.ok d false), s.setScr (mothGran0 + w / 8) d (pairBe w) false)
  | .bulk => (some (.ok d false), bulkStore c w ws s)
  | .regs | .none => (some .ue, s)

/-! ### Completion -/

/-- Access `f` in flight, a step of LDM or STM, ends: it retires no instruction, and in DET it may be late (R284). -/
def endStep (c : CoreId) (f : Flight) (s : State) : State :=
  let k := s.core c
  let s := settleFlight c (s.setCore c { k with flight := k.flight.filter (fun g => decide (g.tok ≠ f.tok)) })
  match s.accessTime c f with
  | some t => retireAt c f.since t s
  | none => s

/-- Access `tok` of core `c`, while it has not ended. -/
def State.flightOf (s : State) (c : CoreId) (tok : Nat) : Option Flight :=
  (s.core c).flight.find? (fun f => decide (f.tok = tok) && !f.done)

/-- Flight `tok` with `g` applied. -/
def onFlight (c : CoreId) (tok : Nat) (g : Flight → Flight) (s : State) : State :=
  let k := s.core c
  s.setCore c { k with flight := k.flight.map (fun f => if f.tok = tok then g f else f) }

/-- The kind of access `tok` replaced. -/
def setFlightKind (c : CoreId) (tok : Nat) (kind : FKind) (s : State) : State := onFlight c tok (fun f => { f with kind := kind }) s

/-- The running level's bank replaced by what the view `v` of a finished step holds. -/
def stepBank (c : CoreId) (f : Flight) (g : View → View) (s : State) : State :=
  match s.view c with
  | some v => s.setView c { v with bank := (g { v with bank := f.bank }).bank }
  | none => s

/-- The word address that the present half of access `f` uses. -/
def Flight.word (f : Flight) : Nat :=
  match f.kind with
  | .split _ _ true _ => f.addr.toNat + 1
  | _ => f.addr.toNat

/-- A granule with its tag arrives for access `f` of core `c`: the cells it fills, or the register it loads; the first half of a split load
sends the second (R203). None while the second has no bulk tag free. -/
def loadDone (c : CoreId) (f : Flight) (d : Gran) (tag : Bool) (s : State) : Option State :=
  let w := f.word
  match f.kind with
  | .load pos n => some (endFlight c f.tok (fillCells c f.tok pos ((List.range n).map (fun i => granWord d (w % 8 + i))) s))
  | .tas pos => some (endFlight c f.tok (fillCells c f.tok pos [granWord d w] s))
  | .lr pos => some (endFlight c f.tok (fillCells c f.tok pos [granWord d 0] s))
  | .sc pos => some (endFlight c f.tok (fillCells c f.tok pos [if d = 1 then 0xFFFF else 0] s))
  | .cldc _ => some (endFlight c f.tok (onFlight c f.tok (fun f => { f with got := some { bits := d, tag := tag } }) s))
  | .ldm _ => some (endStep c f (stepBank c f (fun v => v.ldmStep (granWord d w)) s))
  | .split pos true false _ => requestRead c f.tok f.cap (w + 1) (setFlightKind c f.tok (.split pos true true (granWord d w)) s)
  | .split pos true true x => some (endFlight c f.tok (fillCells c f.tok pos [x, granWord d w] s))
  | .split _ false _ _ | .store | .cstc | .stm _ => some s

/-- What returns for access `tok` of core `c`; the data of an abandoned access is discarded (R286). -/
def coreData (c : CoreId) (tok : Nat) (res : MemRes) (s : State) : Option State :=
  match s.flightOf c tok with
  | none => some s
  | some f =>
    match res with
    | .ok d t => loadDone c f d t s
    | r => match r.coreFault f.word with
      | some x => some (failFlight c tok x s)
      | none => some s

/-- The write of access `tok` of core `c` is granted with result `res`: the instruction retires, or faults; the first half of a split store
sends the second (R203, R205). -/
def storeGranted (c : CoreId) (tok : Nat) (res : MemRes) (s : State) : State :=
  match s.flightOf c tok with
  | none => s
  | some f =>
    match res.coreFault f.word with
    | some x => failFlight c tok x s
    | none =>
      match f.kind with
      | .stm _ => endStep c f (stepBank c f View.stmStep s)
      | .split pos false false y =>
        let s := setFlightKind c tok (.split pos false true y) s
        if s.region c (f.addr.toNat + 1) = .bulk then endFlight c tok (bulkStore c (f.addr.toNat + 1) [y] s)
        else presentCore c tok f.cap (f.addr.toNat + 1) (wordsKind (f.addr.toNat + 1) [y]) s
      | _ => endFlight c tok s

/-! ### The spill and fill trap (R207, R208, R341 to R343) -/

/-- A bank with its `n` oldest operand cells, or return entries, removed: the others move down, and the positions above keep what was last
written there (R347). -/
def Bank.shed (b : Bank) (n : Nat) : Bank :=
  { b with cells := (List.range (b.opd - n)).foldl (fun t i => Tbl.set 0 i (Tbl.get 0 (i + n) b.cells) t) b.cells, opd := b.opd - n }
def Bank.shedRets (b : Bank) (n : Nat) : Bank :=
  { b with rets := (List.range (b.rtd - n)).foldl (fun t i => Tbl.set 0 i (Tbl.get 0 (i + n) b.rets) t) b.rets, rtd := b.rtd - n }

/-- The values `xs` put beneath the first `m` positions of a table; the positions above keep what was last written there. -/
def beneath {α : Type} [DecidableEq α] (d : α) (xs : List α) (m : Nat) (t : Tbl α) : Tbl α :=
  ((xs ++ (List.range m).map (fun i => Tbl.get d i t)).foldl (fun (a : Nat × Tbl α) x => (a.1 + 1, Tbl.set d a.1 x a.2)) (0, t)).2

/-- The first `m` values of a table. -/
def firstOf {α : Type} [DecidableEq α] (d : α) (m : Nat) (t : Tbl α) : List α := (List.range m).map (fun i => Tbl.get d i t)

/-- Return entry `x` of a spill segment of length `len`; it lies outside it where it would begin below 0 (R341). -/
def entryOff (len x : Nat) : Nat := (2 ^ 40 + len - 2 * (x + 1)) % 2 ^ 40

/-- The pairs that a trap moves in all for context `x`; those moved, by what SB0 still holds of a spill, or has of a fill; and the offset of pair
`j` in a C7 of length `len`. -/
def trapPairs (n : Need) (x : Ctx) : Nat :=
  match n with
  | .spillOps | .spillRets => 4
  | .fillOps => (min 8 x.osc.toNat + 1) / 2
  | .fillRets => min 4 x.rsc.toNat
def trapMoved (n : Need) (b : Bank) : Nat :=
  match n with
  | .spillOps => 4 - b.opd / 2
  | .spillRets => 4 - b.rtd
  | .fillOps => b.opd / 2
  | .fillRets => b.rtd
def trapOff (n : Need) (x : Ctx) (len j : Nat) : Nat :=
  let osc := x.osc.toNat
  let rsc := x.rsc.toNat
  match n with
  | .spillOps => osc + 2 * j
  | .spillRets => entryOff len (rsc + j)
  | .fillOps => osc - min 8 osc + 2 * j
  | .fillRets => entryOff len (rsc - min 4 rsc + j)

/-- SB0 as a trap begins: a spill has put into it the oldest cells, or entries, of context `x`, the oldest on top. None where a spill does not fit
(R341). -/
def trapStart (n : Need) (x : Ctx) (len : Nat) (b : Bank) : Option Bank :=
  match n with
  | .spillOps =>
    if b.opd ≠ 0 then some b
    else if x.osc.toNat + 8 + 2 * x.rsc.toNat ≤ len then some ((firstOf 0 8 x.bank.cells).reverse.foldl Bank.push Bank.init)
    else none
  | .spillRets =>
    if b.rtd ≠ 0 then some b
    else if x.osc.toNat + 2 * (x.rsc.toNat + 4) ≤ len then some ((firstOf 0 4 x.bank.rets).reverse.foldl Bank.rpush Bank.init)
    else none
  | .fillOps | .fillRets => some b

/-- What a spill pops of SB0 for its next pair; none where SB0 is empty (R208). -/
def sb0Pop (n : Need) (b : Bank) : Option (List Word × Bank) :=
  match n with
  | .spillOps =>
    if b.opd < 2 then none
    else some ([Tbl.get 0 (b.opd - 1) b.cells, Tbl.get 0 (b.opd - 2) b.cells], { b with opd := b.opd - 2 })
  | .spillRets =>
    if b.rtd < 1 then none
    else
      let a := Tbl.get 0 (b.rtd - 1) b.rets
      some ([a.extractLsb' 0 16, (a.extractLsb' 16 6).zeroExtend 16], { b with rtd := b.rtd - 1 })
  | .fillOps | .fillRets => some ([], b)

/-- What a fill pushes onto SB0 of a pair it read: the cause of its stack fault where SB0 is full (R208), or where bits 31:22 of an entry are not 0
(R211). -/
def sb0Push (n : Need) (ws : List Word) (b : Bank) : Except Nat Bank :=
  let lo := ws.getD 0 0
  let hi := ws.getD 1 0
  match n with
  | .fillOps => if 8 < b.opd + 2 then .error 4 else .ok ((b.push lo).push hi)
  | .fillRets =>
    if 64 ≤ hi.toNat then .error 3
    else if 4 < b.rtd + 1 then .error 4
    else .ok (b.rpush (hi.extractLsb' 0 6 ++ lo))
  | .spillOps | .spillRets => .ok b

/-- One pair of a register through C7: its words, or the fault; none while a broadcast waits for a swap (R373). -/
def regPair (c : CoreId) (cap : Cap) (w : Nat) (ws : List Word) (s : State) : Option (Except FaultRec (List Word)) × State :=
  let off := regOffOfWord w
  let st := !ws.isEmpty
  let words := fun (d : Reg) => [d.extractLsb' 0 16, d.extractLsb' 16 16]
  if s.deadAlias c off then
    if st then (some (.ok ws), s)
    else
      let (n, s) := s.takeFresh
      (some (.ok (words (BitVec.ofNat 32 (Config.free n)))), s)
  else match s.gate (.core c) st off with
    | .pass =>
      if st then
        if inAperture off ∧ s.castWaits then (none, s)
        else
          let r := regWrite (.core c) cap.perm off (ws.getD 1 0 ++ ws.getD 0 0) s
          if r.1 then (some (.error (mkFault 2 0 w)), r.2)
          else match (r.2.core c).pstkFault with
            | some x => (some (.error (mkFault 8 x.toNat 0)), r.2.setCore c { r.2.core c with pstkFault := none })
            | none => (some (.ok ws), r.2)
      else
        let (d, s) := regRead false off s
        (some (.ok (words d)), s)
    | _ => (some (.error (mkFault 2 0 w)), s)

/-- Pair `j` of a trap at offset `off` through C7: checked under R195, then written where `ws` holds its words, or read (R342). Its words, or the
fault; none while its access waits. -/
def movePair (c : CoreId) (cap : Cap) (j off : Nat) (ws : List Word) (s : State) : Option (Except FaultRec (List Word)) × State :=
  let w := (cap.base + off) % 2 ^ 40
  let st := !ws.isEmpty
  match s.check c cap off { perms := [if st then 1 else 0], st := st, n := 2, align := 2 } false false with
  | some f => (some (.error f), s)
  | none =>
    if s.region c w = .regs then regPair c cap w ws s
    else
      let (r, s) := if st then pieceWrite c cap j w ws s else pieceRead c cap j w s
      (match r with
        | none => none
        | some (.ok d _) => some (.ok (if st then ws else [granWord d (w % 8), granWord d (w % 8 + 1)]))
        | some r => some (.error ((r.coreFault w).getD (mkFault 2 0 w))), s)

/-- The trap of core `c` ends in fault `f`; bank, OSC and RSC stand (R342). -/
def trapFail (c : CoreId) (f : FaultRec) (s : State) : State :=
  markFault c f (endPieces c (s.setCore c { s.core c with need := none, sb0 := Bank.init }))

/-- Context `x` after a trap whose pairs have all moved, with `b` in SB0. -/
def trapDone (n : Need) (b : Bank) (x : Ctx) : Ctx :=
  match n with
  | .spillOps => { x with bank := x.bank.shed 8, osc := x.osc + 8 }
  | .spillRets => { x with bank := x.bank.shedRets 4, rsc := x.rsc + 4 }
  | .fillOps =>
    let m := min 8 x.osc.toNat
    { x with bank := { x.bank with cells := beneath 0 (firstOf 0 m b.cells) x.bank.opd x.bank.cells, opd := x.bank.opd + m },
             osc := x.osc - BitVec.ofNat 16 m }
  | .fillRets =>
    let m := min 4 x.rsc.toNat
    { x with bank := { x.bank with rets := beneath 0 (firstOf 0 m b.rets) x.bank.rtd x.bank.rets, rtd := x.bank.rtd + m },
             rsc := x.rsc - BitVec.ofNat 16 m }

/-- The trap of core `c` has moved its pairs: its instruction can execute (R207). -/
def trapEnd (c : CoreId) (n : Need) (key : Nat) (s : State) : State :=
  let k := s.core c
  let s := s.setCtxAt key (trapDone n k.sb0 (s.ctxAt key))
  tallyCore c 12 (endPieces c (s.setCore c { s.core c with need := none, rsv := none, sb0 := Bank.init }))

/-- The trap that core `c` needs goes on with up to the given count of pairs: until one waits, one faults, or all have moved. -/
def trapGo (c : CoreId) (n : Need) (key : Nat) : Nat → State → State
  | 0, s => s
  | f + 1, s =>
    let x := s.ctxAt key
    let cap := Tbl.get Cap.null 7 x.caps
    let b := (s.core c).sb0
    let j := trapMoved n b
    match sb0Pop n b with
    | none => trapFail c (mkFault 7 4 0) s
    | some (ws, b) =>
      match movePair c cap j (trapOff n x cap.length j) ws s with
      | (none, s) => s
      | (some (.error e), s) => trapFail c e s
      | (some (.ok ws), s) =>
        if (s.core c).need ≠ some n then s
        else match sb0Push n ws b with
          | .error e => trapFail c (mkFault 7 e 0) s
          | .ok b =>
            let s := s.setCore c { s.core c with sb0 := b }
            if trapPairs n x ≤ j + 1 then trapEnd c n key s else trapGo c n key f s

/-- The trap that core `c` needs runs (R207, R341, R342): the pairs move through C7 and the instruction can execute; or it takes the fault. -/
def runTrap (c : CoreId) (n : Need) (upsets : List Upset) (s : State) : State :=
  match s.liveKey c with
  | none => s
  | some key =>
    let x := s.ctxAt key
    match trapStart n x (Tbl.get Cap.null 7 x.caps).length (s.core c).sb0 with
    | none => trapFail c (mkFault 7 1 0) s
    | some b =>
      let s := strikeRows upsets (s.setCore c { s.core c with sb0 := b })
      if trapPairs n x ≤ trapMoved n b then trapEnd c n key s else trapGo c n key 4 s

/-- SPILL_TRAP and FILL_TRAP: nothing happens while the core does not wait for one of that direction. -/
def spillTrap (c : CoreId) (upsets : List Upset) (s : State) : State :=
  if s.coreOff c then s
  else match (s.core c).need with
    | some .spillOps => runTrap c .spillOps upsets s
    | some .spillRets => runTrap c .spillRets upsets s
    | _ => s

def fillTrap (c : CoreId) (upsets : List Upset) (s : State) : State :=
  if s.coreOff c then s
  else match (s.core c).need with
    | some .fillOps => runTrap c .fillOps upsets s
    | some .fillRets => runTrap c .fillRets upsets s
    | _ => s

end Sys2Proof.Machine
end

