-- ==== Sys2Proof/Machine/Route.lean ====
section
/-! DEFINITION. Where the results of granted accesses go (R48, R50, R200, R65): to NPX transactions, Pod streams, and the accesses that Sprin
cores have in flight. -/

namespace Sys2Proof.Machine

/-- The access of `d` has ended with `r`, and the unit that waits for it goes on: the inbox, the router, a transfer channel, a copy channel or the
debug bus master; what a core does in one piece takes its results when it goes on itself. None for every other requester. -/
def resume (d : Dest) (r : MemRes) (s : State) : Option State :=
  let s := noteEnd d r s
  match d with
  | .inbox _ => some (depositGo [] s)
  | .frame .. => some (routerDrain s)
  | .tx c _ => some (txIssue c [] s)
  | .copy n => some (cpyGo n s)
  | .master => some (masterGo s)
  | .piece .. => some s
  | .npxRd .. | .npxWr .. | .podLd .. | .podSt .. | .core .. | .reclaim .. | .scrub _ => none

/-- The result of access `a` of request `id`, granted by stream memory: read data waits for its delivery (R48); a write, and an access that faulted
at its grant, is answered at once (R94); a unit that waits for its accesses goes on. -/
def routeGrant (id : Nat) (a : Access) (res : MemRes) (s : State) : State :=
  let queue := fun (s : State) =>
    { s with arb := { s.arb with granted := s.arb.granted ++ [{ id := id, dest := a.dest, gran := a.gran, res := res }] } }
  match a.kind, resume a.dest res s with
  | .fold, _ => s
  | _, some s => s
  | k, none =>
    match k, a.dest with
    | .read, _ | .lr, _ => queue s
    | .tas _, .core c t | .sc _ _, .core c t => if res.good then queue s else (coreData c t res s).getD s
    | .write _ _ _, .npxWr t b q => npxWriteGranted t b q res s
    | .write _ _ _, .podSt p i => elementStored p i res s
    | .write _ _ _, .core c t => storeGranted c t res s
    | _, _ => s

/-- ARBITER_GRANT: the arbiter of bank `b` grants its winner (R50). Nothing happens where no request waits, while the initialiser runs, and
while the slice has no power. -/
def arbiterGrant (b : Nat) (us : List Upset) (s : State) : State :=
  if 127 * s.build.slices ≤ b ∨ !s.islandOn (17 + b / 127) then s
  else match grantBank b us s with
    | none => s
    | some (w, res, s') => routeGrant w.id w.acc res s'

/-- A granted read reaches its requester. -/
def deliver (g : Granted) (s : State) : Option State :=
  match g.dest with
  | .npxRd t b q => some (npxReadReturn t b q (match g.res with
      | .ok d _ => some d
      | _ => none) s)
  | .podLd p e i => some (elementData p e i g.res s)
  | .core c t => coreData c t g.res s
  | _ => some s

/-- SMEM_READ_DATA: the data of granted request `n` is delivered (R48). -/
def readData (n : Nat) (s : State) : State :=
  match s.arb.granted.find? (fun g => decide (g.id = n)) with
  | none => s
  | some g =>
    match deliver g { s with arb := { s.arb with granted := s.arb.granted.filter (fun x => decide (x.id ≠ n)) } } with
    | some s' => s'
    | none => s

/-! ### Scratch arrays -/

/-- The array granule of a scratch request. -/
def ScrReq.gran (r : ScrReq) : Nat :=
  if r.core = .moth then mothGran0 + r.addr.toNat / 8 else scrGranOfWord r.addr.toNat

/-- The enabled bytes of a scratch granule written, with what a landed write does to reservations and waiting contexts. -/
def scrWrite (g : Nat) (d : Gran) (be : BitVec 16) (t : Bool) (s : State) : State :=
  let s := s.setScr g d be t
  if mothGran0 ≤ g then s else scrLanded g s

/-- One scratch access performed whole (R79, R200, R246, R247). -/
def scrPerform (r : ScrReq) (s : State) : MemRes × State :=
  let g := r.gran
  match r.kind with
  | .read => fetchScr g s
  | .lr => fetchScr g (s.setCore r.core { s.core r.core with rsv := some (r.addr.toNat / 8) })
  | .write d be t => (.ok d t, scrWrite g d be t s)
  | .tas i => (.ok (s.scrData g) false, scrWrite g (wordData i 0xFFFF) (wordBe i) false s)
  | .sc i v =>
    let held := decide ((s.core r.core).rsv = some (r.addr.toNat / 8))
    let s := s.setCore r.core { s.core r.core with rsv := none }
    if held then (.ok 1 false, scrWrite g (wordData i v) (wordBe i) false s) else (.ok 0 false, s)
  | .fold => (.ok 0 false, s)

/-- Does an earlier request of the same core to the same granule wait before request `r` (R198, R200)? -/
def State.scrBehind (s : State) (r : ScrReq) : Bool :=
  s.scr.reqs.any (fun x => decide (x.id < r.id) && decide (x.core = r.core) && decide (x.gran = r.gran))

/-- SCRATCH_GRANT: request `n` of a scratch array is granted; its result returns to its core. -/
def scratchGrant (n : Nat) (us : List Upset) (s : State) : State :=
  match s.scr.reqs.find? (fun r => decide (r.id = n)) with
  | none => s
  | some r =>
    if s.coreOff r.core ∨ s.scrBehind r then s
    else
      let s := strikeScr us { s with scr := { s.scr with reqs := s.scr.reqs.filter (fun x => decide (x.id ≠ n)) } }
      let (res, s1) := scrPerform r s
      match r.kind with
      | .write _ _ _ => storeGranted r.core r.tok res s1
      | _ => (coreData r.core r.tok res s1).getD s1

/-! ### Bulk memory -/

/-- BMP_READ_BEAT: a beat returns to the access that waits for it (R65), or to what a core does in one piece; bulk memory holds no tags (R295). -/
def bulkBeat (n : Nat) (tag : BitVec 6) (data : BitVec 1024) (stat : BitVec 2) (s : State) : State :=
  match bmpBeat n tag data stat s with
  | (none, s') => s'
  | (some (c, t, d), s') =>
    let r := match d with
      | some d => MemRes.ok d false
      | none => .ue
    if deadTok ≤ t then s'
    else if pieceTok 0 ≤ t then noteEnd (.piece c (t - pieceTok 0)) r s'
    else (coreData c t r s').getD s

end Sys2Proof.Machine
end

