-- ==== Sys2Proof/Machine/Time.lean ====
section
/-! DEFINITION. What the passing of time does with no command waiting: one edge of the clock TB counts, with the edges of the block's other
clocks that fall in it (DESIGN CHOICE: assumption 4). A rule that acts at a moment these clocks reach is a command of its own. -/

namespace Sys2Proof.Machine

/-- One SCLK at core `c` (one MCLK for the Moth core): an open window's budget, and for a live context at context level its quantum and its
BUDGET, which counts every 16 SCLK (R314, R331, R338); a halted core counts none (R482). -/
def coreEdge (c : CoreId) (s : State) : State :=
  let k := s.core c
  if s.coreOff c ∨ !k.released ∨ k.dstate = 2 then s
  else
    let s := match k.niw with
      | some (n + 1) => s.setCore c { k with niw := some n }
      | _ => s
    match c, s.liveKey c with
    | .seq _, some i =>
      if k.level ≠ 0 then s
      else
        let k := s.core c
        let s := s.setCore c { k with quantum := min (k.quantum + 1) 65535, budSub := (k.budSub + 1) % 16 }
        let x := s.ctxAt i
        if k.budSub = 15 ∧ x.budget ≠ 0 then s.setCtxAt i { x with budget := x.budget - 1 } else s
    | _, _ => s

/-- The cores of the build, the Moth core apart. -/
def State.largeCores (s : State) : List CoreId := .sup :: (List.range s.build.seqs).map CoreId.seq

/-- One PCLK: the initialiser's occupancies of two PCLK (the last ends with INIT_DONE), the scrub interval (from the
supervisor's release on, which completes a reset), the cores on SCLK, and the
performance monitor (R59, R60). 60 PCLK make one MCLK. -/
def pclkEdge (s : State) : State :=
  let n := s.clk.pclk + 1
  let s := { s with clk := { s.clk with pclk := n } }
  let s := match s.mem.init with
    | some k => if n % 2 = 0 ∧ k < 2303 then
        let s := zeroRows (2 * k + 2) s
        { s with mem := { s.mem with init := some (k + 1) } } else s
    | none => s
  let s := if s.on SMEM_CFG_SCRUB_EN ∧ s.crp.phase = 2 then { s with mem := { s.mem with scrubIn := s.mem.scrubIn - 1 } } else s
  let s := s.largeCores.foldl (fun s c => coreEdge c s) s
  let s := if n % 60 = 0 then coreEdge .moth s else s
  pmuEdge s

/-- One LFCLK: the watchdog, and the edges an entry to SLEEP counts. -/
def lfEdge (s : State) : State :=
  let s := wdgEdge s
  if s.crp.entry = some 4 then { s with crp := { s.crp with lfEdges := s.crp.lfEdges + 1 } } else s

/-- What waits for nothing but the units it concerns: PARK commands at their boundaries, and the errors HLT has not looked at. -/
def settle (s : State) : State :=
  let s := s.largeCores.foldl (fun s c => settlePark c s) s
  if s.fld CRP_PWR_STAT_STATE = 4 then s else wearRows s

/-- The PCLK of one TCLK: at 1,500 MHz, three in two. -/
def pclkEdges (s : State) : State :=
  let a := s.clk.pAcc + 3
  let s := pclkEdge { s with clk := { s.clk with pAcc := a - 2 } }
  if 4 ≤ a then pclkEdge { s with clk := { s.clk with pAcc := a - 4 } } else s

/-- The step of an idle block: one TCLK, or one LFCLK while TB runs in LF mode; nothing without supply. TB stands at 0 until step 2 of the
start-up from OFF ends (R453), and PCLK runs from then on, except in SLEEP. -/
def idle (s : State) : State :=
  if !s.crp.live then s
  else if s.on TBU_TB_STAT_LF then settle (lfEdge (tbEdge s))
  else
    let off := s.crp.fromOff && decide (s.crp.phase = 0)
    let s := if off then s else tbEdge s
    let a := s.clk.lfAcc + 32768
    let s := { s with clk := { s.clk with lfAcc := a % 1000000000 } }
    let s := if 1000000000 ≤ a then lfEdge s else s
    settle (if off ∨ s.fld CRP_PWR_STAT_STATE = 4 then s else pclkEdges s)

end Sys2Proof.Machine
end

