-- ==== Sys2Proof/Machine/ExecBase.lean ====
section
/-! DEFINITION. What stands around the meaning of a command that is no instruction: the unit it names exists in the build, has its supply and
clock, and the agent that makes an access can make it. Where one of them fails, no such command occurs and the state stands. -/

namespace Sys2Proof.Machine

/-- The answer of a command that names a unit: where the build does not have it, nothing is there to act, and the state stands (assumption 1). -/
def unit (s : State) (ok : Bool) (o : Out) : Out := if ok then o else .next s

/-- A command of the Moth island: nothing happens without the supply. -/
def live (f : State → State) (s : State) : Out := .next (if s.crp.live then f s else s)

/-- A command of a unit that runs in every power state but SLEEP (Table 19.3). -/
def inNap (f : State → State) (s : State) : Out :=
  .next (if s.crp.live ∧ s.fld CRP_PWR_STAT_STATE ≠ 4 then f s else s)

/-- A command of a unit that runs in RUN, DOZE and the start-up only. -/
def inRun (f : State → State) (s : State) : Out :=
  .next (if s.crp.live ∧ s.fld CRP_PWR_STAT_STATE ≠ 3 ∧ s.fld CRP_PWR_STAT_STATE ≠ 4 then f s else s)

/-- A command that writes the register at `off`, or acts in its unit. -/
def atReg (off : Nat) (f : State → State) (s : State) : Out := .next (if s.pageOn off then f s else s)

/-- A command at core `c`. -/
def atCore (c : CoreId) (f : State → State) (s : State) : Out :=
  unit s (coreBuilt s.build c) (.next (if s.coreOff c then s else f s))

/-- Does the build have the agent? -/
def agentBuilt (b : Build) : Agent → Bool
  | .core c => coreBuilt b c
  | _ => true

/-- Can the agent make an access now? A core does while it is released and clocked. -/
def State.agentOn (s : State) (a : Agent) : Bool :=
  match a with
  | .core c => (s.core c).released && !s.coreOff c
  | _ => s.crp.live

/-- A read of the register at `off` by agent `a`. -/
def readBy (a : Agent) (off : Nat) (s : State) : Out :=
  unit s (agentBuilt s.build a) (.next (if s.agentOn a then agentRead a off s else s))

/-- A write of `v` to the register at `off` by agent `a`. -/
def writeBy (a : Agent) (off : Nat) (v : Reg) (s : State) : Out :=
  unit s (agentBuilt s.build a) (.next (if s.agentOn a then agentWrite a off v s else s))

/-- A write through the debug access port, whose answer no port returns. -/
def dapCommand (off : Nat) (v : Reg) (s : State) : Out := live (fun s => (dapWrite off v s).2) s

end Sys2Proof.Machine
end

