-- ==== Sys2Proof/Machine/ExecMem.lean ====
section
/-! DEFINITION. The commands of the register region, the NPX target, stream memory, the bulk ports, the epoch unit and the Pods (chapters 01 to
05 and 11), one meaning each. -/

namespace Sys2Proof.Machine

/-! ### Registers and NPX -/

/-- REG_WRITE (R10): a write by agent `a` to the register at REG offset `addr`. -/
def execRegWrite (a : Agent) (addr : Nat) (v : Reg) (s : State) : Out := writeBy a addr v s

/-- NPX_READ_REQUEST (R351); the target treats every QOS alike. -/
def execNpxReadRequest (id : BitVec 8) (smem : Bool) (addr : BitVec 28) (len : BitVec 6) (_qos : BitVec 4) (s : State) : Out :=
  live (npxRead id smem addr len) s

/-- NPX_WRITE_REQUEST (R354). -/
def execNpxWriteRequest (id : BitVec 8) (smem : Bool) (addr : BitVec 28) (len : BitVec 6) (_qos : BitVec 4) (beats : List NpxBeat)
    (s : State) : Out := live (npxWrite id smem addr len beats) s

/-! ### Stream memory (chapter 02) -/

/-- ARBITER_GRANT (R50). -/
def execArbiterGrant (bank : Nat) (us : List Upset) (s : State) : Out :=
  unit s (decide (bank < 127 * s.build.slices)) (.next (arbiterGrant bank us s))
/-- SMEM_READ_DATA (R48). -/
def execSmemReadData (req : Nat) (s : State) : Out := inRun (readData req) s
/-- SCRATCH_GRANT (R200). -/
def execScratchGrant (req : Nat × List Upset) (s : State) : Out := live (scratchGrant req.1 req.2) s
/-- SCRUB_ACCESS (R59). -/
def execScrubAccess (us : List Upset) (s : State) : Out := inRun (scrubOnce us) s
/-- SMEM_INIT (R60): a write of 1 to SMEM_CFG.INIT. -/
def execSmemInit (a : Agent) (s : State) : Out := writeBy a SMEM_CFG (s.reg SMEM_CFG ||| 2) s
/-- INIT_DONE (R60). -/
def execInitDone (s : State) : Out := inRun finishInit s
/-- SMEM_CE_CNT_READ (R72). -/
def execSmemCeCntRead (a : Agent) (s : State) : Out := readBy a SMEM_CE_CNT s

/-! ### Bulk memory ports (chapter 02) -/

/-- Does the build have bulk port `n`? -/
def State.hasBmp (s : State) (n : Nat) : Bool := decide (n < s.build.bmps)

/-- BMP_TRAIN (R66). -/
def execBmpTrain (n : Nat) (s : State) : Out := unit s (s.hasBmp n) (atReg (BMP_CTRL n) (bmpTrain n) s)
/-- BMP_TRAIN_REPORT (R552): HLT also holds the margins of a success against its threshold (Table 17.2). -/
def execBmpTrainReport (n : Nat) (ok : Bool) (cap : BitVec 16) (rd wr repaired : BitVec 8) (s : State) : Out :=
  unit s (s.hasBmp n) (inRun (fun s =>
    let due := (s.bmpOf n).trainTb.isSome && !s.trainLate n && ok
    let s := bmpTrainReport n ok cap rd wr repaired s
    if due then bulkMargin n rd wr s else s) s)
/-- BMP_TRAIN_TIMEOUT (R66). -/
def execBmpTrainTimeout (n : Nat) (s : State) : Out := unit s (s.hasBmp n) (inRun (bmpTrainTimeout n) s)
/-- BMP_READ_BEAT (R65). -/
def execBmpReadBeat (n : Nat) (tag : BitVec 6) (data : BitVec 1024) (stat : BitVec 2) (s : State) : Out :=
  unit s (s.hasBmp n) (inRun (bulkBeat n tag data stat) s)
/-- BMP_ILV_WRITE (R67). -/
def execBmpIlvWrite (v : Reg) (s : State) : Out := atReg BMP_ILV (bmpIlvWrite v) s
/-- BMP_CPY_GO (R68): a write of BMP_CPY_CTL with GO at 1. -/
def execBmpCpyGo (n : Nat) (v : Reg) (s : State) : Out := unit s (s.hasBmp n) (atReg (BMP_CPY_CTL n) (bmpCpyGo n v) s)
/-- BMP_CPY_GRANULE_DONE (R69). -/
def execBmpCpyGranuleDone (n : Nat) (data : BitVec 128) (stat : BitVec 2) (us : List Upset) (s : State) : Out :=
  unit s (s.hasBmp n) (inRun (cpyGranule n data stat us) s)
/-- BMP_CPY_ABORT (R69). -/
def execBmpCpyAbort (n : Nat) (s : State) : Out := unit s (s.hasBmp n) (atReg (BMP_CTRL n) (cpyAbort n) s)

/-! ### The tick boundary, the flip and the epoch unit (chapters 01 and 03) -/

/-- A tick instant (Table 1.6, R35, R110, R397, R443, R463, R503, R530): E0 and, with a strobe, the cut of running chains, the tick flip and
the latch of the counters. -/
def tickBoundary (s : State) : State :=
  if !s.tickDue then s
  else
    let (strobe, s) := tickInstant s
    let s := secTick (fabricInstant s)
    let s := if strobe then cutAll (tickFlip s) else s
    let s := hltTick strobe s
    if strobe then ringletStrobe s else s

/-- TICK_INSTANT (R443). -/
def execTickInstant (s : State) : Out := live tickBoundary s

/-- The release of the running flip: HIF posts the records of the flipped groups (R96, R364); the writes that the freeze flip held are refused
(R111); the broadcasts that waited are applied (R373), and the frames the fabric holds go on (R391). -/
def flipDone (s : State) : State :=
  match s.epc.flip with
  | some f =>
    let (s, refused) := releaseFlip f (hifRelease f s)
    routerDrain (applyCasts (refused.foldl (fun s a => routeGrant 0 a .frozen s) s))
  | none => s

/-- FLIP_RELEASE (R96). -/
def execFlipRelease (s : State) : Out := inNap flipDone s

/-- The quiesce margin begins (R36, R446, Table 17.3). -/
def quiesceStart (s : State) : State :=
  if s.clk.quietDue ∧ s.on TBU_TICK_CTL_EN ∧ s.awake then
    hltMargin (holdRequests { s with clk := { s.clk with margin := true, quietDue := false } })
  else s

/-- QUIESCE_MARGIN_START (R446). -/
def execQuiesceMarginStart (s : State) : Out := live quiesceStart s

/-- The requests held in the margin compete again from PCLK 3,000 after T0 on (R36). -/
def holdRelease (s : State) : State :=
  if !s.clk.margin ∧ 3000 ≤ s.clk.pclk - s.clk.t0 then
    { s with alloc := { s.alloc with queue := s.alloc.queue.map (fun r => { r with held := false }) } }
  else s

/-- ALLOC_HOLD_RELEASE (R36). -/
def execAllocHoldRelease (s : State) : Out := inRun holdRelease s

/-- GCMD_ADMIT, GCMD_DONE and GCMD_DISCARD (R83, R84, R366): a write of EPC_GCMD. -/
def execGcmdAdmit (g : BitVec 6) (s : State) : Out := atReg EPC_GCMD (gcmdWrite 1 g) s
def execGcmdDone (g : BitVec 6) (s : State) : Out := atReg EPC_GCMD (gcmdWrite 2 g) s
def execGcmdDiscard (g : BitVec 6) (s : State) : Out := atReg EPC_GCMD (gcmdWrite 3 g) s
/-- GCMD_NONE (R83): OP 0 does nothing. -/
def execGcmdNone (s : State) : Out := .next s
/-- SWEEP_DONE (R84). -/
def execSweepDone (g : BitVec 6) (s : State) : Out := inNap (sweepDone g.toNat) s
/-- LEASE_TAKE (R104). -/
def execLeaseTake (n : Nat) (g : BitVec 6) (s : State) : Out :=
  unit s (decide (n < 4)) (atReg (EPC_LEASE_CTL n) (takeLease n g) s)
/-- LEASE_RELEASE (R106). -/
def execLeaseRelease (n : Nat) (s : State) : Out :=
  unit s (decide (n < 4)) (atReg (EPC_LEASE_CTL n) (fun s => if s.on (EPC_LEASE_CTL_HELD n) then releaseLease n s else s) s)
/-- FREEZE_REQUEST (R110). -/
def execFreezeRequest (s : State) : Out := inNap requestFreeze s
/-- POOL_CNT0_READ (R112). -/
def execPoolCnt0Read (a : Agent) (s : State) : Out := readBy a EPC_POOL_CNT0 s
/-- BACKGROUND_RECLAIM_VISIT (R98). -/
def execBackgroundReclaimVisit (bank : Nat) (s : State) : Out :=
  unit s (decide (bank < 127 * s.build.slices)) (inRun (reclaimVisit bank) s)

/-! ### The allocator and the Pods (chapters 04 and 05) -/

/-- Does the build have physical Pod `p`? -/
def State.hasPod (s : State) (p : Nat) : Bool := decide (p < s.build.pods)

/-- ALLOC_ACCEPT (R140). -/
def execAllocAccept (c : CoreId) (us : List Upset) (s : State) : Out := atCore c (fun s => allocAccept c (strikeRows us s)) s
/-- ALLOC_GRANT (R144). -/
def execAllocGrant (s : State) : Out := inRun allocGrant s
/-- STREAM_ELEMENT_ISSUE (R163). -/
def execStreamElementIssue (pod entry i : Nat) (s : State) : Out :=
  unit s (s.hasPod pod) (.next (if s.islandOn pod then elementIssue pod entry i s else s))
/-- RUN_END (R172). -/
def execRunEnd (pod : Nat) (s : State) : Out := unit s (s.hasPod pod) (inRun (runEnd pod) s)
/-- POD_ABORT (R152): a write of 1 to POD_CTL.ABORT. -/
def execPodAbort (pod : Nat) (s : State) : Out := unit s (s.hasPod pod) (atReg (POD_CTL pod) (podWrite pod (POD_CTL pod) 1) s)
/-- ALLOC_WAIT_READ (R20). -/
def execAllocWaitRead (a : Agent) (s : State) : Out := readBy a POD_ALLOC_WAIT s

end Sys2Proof.Machine
end

