-- ==== Sys2Proof/Machine/ExecCore.lean ====
section
/-! DEFINITION. The commands at the Sprin cores that are no instructions: traps of SB0, entries, the scheduler, the context commands, the windows,
the mint path and the code store (chapters 06 to 10), one meaning each. -/

namespace Sys2Proof.Machine

/-! ### Events of a core -/

/-- SPILL_TRAP and FILL_TRAP (R207). -/
def execSpillTrap (c : CoreId) (us : List Upset) (s : State) : Out := atCore c (spillTrap c us) s
def execFillTrap (c : CoreId) (us : List Upset) (s : State) : Out := atCore c (fillTrap c us) s

/-- INTERRUPT_RECOGNISE (R285, R319). -/
def execInterruptRecognise (c : CoreId) (s : State) : Out := atCore c (interruptRecognise c) s

/-- A marked fault is entered; where nothing can take it, a sequencer or Moth core is reset and the supervisor asks for a warm reset (R306). -/
def enterFault (c : CoreId) (s : State) : State :=
  let r := faultEntry c s
  if r.1 then (if c = .sup then supEscalation r.2 else crashCore c r.2) else r.2

/-- FAULT_ENTRY (R306, R311). -/
def execFaultEntry (c : CoreId) (s : State) : Out := atCore c (enterFault c) s
/-- NIW_EXPIRY (R315). -/
def execNiwExpiry (c : CoreId) (s : State) : Out := atCore c (niwExpiry c) s
/-- BUDGET_EXHAUSTED (R338). -/
def execBudgetExhausted (c : CoreId) (s : State) : Out := atCore c (budgetExhausted c) s
/-- QUANTUM_EXPIRY (R331). -/
def execQuantumExpiry (c : CoreId) (s : State) : Out := atCore c (quantumExpiry c) s
/-- CONTEXT_DISPATCH (R330). -/
def execContextDispatch (c : CoreId) (s : State) : Out := atCore c (contextDispatch c) s
/-- CONTEXT_EVICT and CONTEXT_LOAD (R333). -/
def execContextEvict (c : CoreId) (slot : BitVec 9) (s : State) : Out := atCore c (contextEvict c slot.toNat) s
def execContextLoad (c : CoreId) (slot : BitVec 9) (s : State) : Out := atCore c (contextLoad c slot.toNat) s

/-! ### Context commands and windows (Table 10.5, R321, R347) -/

/-- A write of SEQ_CTX_CMD of LSn with OP `op`. -/
def ctxWrite (n : Nat) (slot : BitVec 9) (op : Nat) (s : State) : Out :=
  unit s (decide (n < s.build.lss)) (atReg (corePage (s.lsCore n)) (ctxCmdWrite n slot.toNat op) s)

def execCtxLoad (n : Nat) (slot : BitVec 9) (s : State) : Out := ctxWrite n slot 1 s
def execCtxWake (n : Nat) (slot : BitVec 9) (s : State) : Out := ctxWrite n slot 2 s
def execCtxPark (n : Nat) (slot : BitVec 9) (s : State) : Out := ctxWrite n slot 3 s
def execCtxFree (n : Nat) (slot : BitVec 9) (s : State) : Out := ctxWrite n slot 4 s
def execCtxSetbud (n : Nat) (slot : BitVec 9) (s : State) : Out := ctxWrite n slot 5 s
def execCtxCmdNone (n : Nat) (slot : BitVec 9) (s : State) : Out := ctxWrite n slot 0 s

/-- CTX_DATA_WRITE (R347). -/
def execCtxDataWrite (n : Nat) (v : Reg) (s : State) : Out :=
  unit s (decide (n < s.build.lss)) (atReg (corePage (s.lsCore n)) (ctxDataWrite n v) s)

/-- SVW_DATA_WRITE (R321). -/
def execSvwDataWrite (c : CoreId) (v : Reg) (s : State) : Out := unit s (coreBuilt s.build c) (atReg (corePage c) (svwWrite c v) s)

/-! ### The mint path (R299 to R302) -/

/-- MINT (R300): a GO in mint mode, through a MINT capability. -/
def execMint (a : Agent) (s : State) : Out := writeBy a SUP_MINT_CTL 1 s
/-- MINT_COPY (R301): a GO in copy mode from supervisor register `src`. -/
def execMintCopy (a : Agent) (src : BitVec 3) (s : State) : Out := writeBy a SUP_MINT_CTL (BitVec.ofNat 32 (3 + 4 * src.toNat)) s
/-- MINT_DONE (R302). -/
def execMintDone (s : State) : Out := atReg SUP_MINT_CTL mintDone s

/-! ### Modes, fetch and the code store (R219, R273 to R284, R290) -/

/-- SPLIT_EN_APPLY (R219) and DET_SWITCH (R282). -/
def execSplitEnApply (c : CoreId) (s : State) : Out := atCore c (splitEnApply c) s
def execDetSwitch (c : CoreId) (s : State) : Out := atCore c (detSwitch c) s
/-- LINE_REQUEST and LINE_DELIVERED (R276). -/
def execLineRequest (c : CoreId) (line : BitVec 18) (s : State) : Out := atCore c (lineRequest c line.toNat) s
def execLineDelivered (c : CoreId) (data : BitVec 252) (check : BitVec 4) (err : Bool) (s : State) : Out :=
  atCore c (lineDelivered c (check ++ data) err) s
/-- CODE_LINE_WRITE (R279): a write of 1 to SUP_CSW_CTL.GO. -/
def execCodeLineWrite (a : Agent) (s : State) : Out := writeBy a SUP_CSW_CTL 1 s
/-- CODE_WRITE_DONE (R280). -/
def execCodeWriteDone (err : Bool) (s : State) : Out := atReg SUP_CSW_CTL (codeWriteDone err) s
/-- LC_INVALIDATE (R290): a write of 1 to SUP_CS_CFG.LC_INV. -/
def execLcInvalidate (a : Agent) (s : State) : Out := writeBy a SUP_CS_CFG (s.reg SUP_CS_CFG ||| 0x10000) s
/-- SEQ_DET_READ (R284): SEQ_DET_CNT or SEQ_DET_STAT of a core. -/
def execSeqDetRead (a : Agent) (c : CoreId) (cnt : Bool) (s : State) : Out :=
  unit s (coreBuilt s.build c) (readBy a (if cnt then SEQ_DET_CNT (corePage c) else SEQ_DET_STAT (corePage c)) s)
/-- SEQ_EXC_CNT_READ (R315). -/
def execSeqExcCntRead (a : Agent) (c : CoreId) (s : State) : Out :=
  unit s (coreBuilt s.build c) (readBy a (SEQ_EXC_CNT (corePage c)) s)

end Sys2Proof.Machine
end

