-- ==== Sys2Proof/Machine/ExecPort.lean ====
section
/-! DEFINITION. The commands of the host interface and the Wian fabric (chapters 11 and 12), one meaning each. -/

namespace Sys2Proof.Machine

/-! ### Host interface (chapter 11) -/

/-- Is it a host ring? -/
def isRing (n : Nat) : Bool := decide (n < 64)

/-- HIF_ENABLE (R375): EN of HIF_CTL from 0 to 1. -/
def execHifEnable (s : State) : Out := atReg HIF_CTL hifEnable s
/-- RING_ENABLE (R376): HIF_RINGn_CFG written with EN at 1 while it is 0. -/
def execRingEnable (n : Nat) (v : Reg) (s : State) : Out :=
  unit s (isRing n) (atReg HIF_CTL (fun s => if s.on (HIF_RING_CFG_EN n) then s else ringEnable n v.toNat s) s)
/-- RING_DISABLE (R366). -/
def execRingDisable (n : Nat) (s : State) : Out :=
  unit s (isRing n) (atReg HIF_CTL (fun s => if s.on (HIF_RING_CFG_EN n) then ringDisable n s else s) s)
/-- DOORBELL_SQTAIL (R360) and DOORBELL_CQHEAD (R365). -/
def execDoorbellSqtail (n : Nat) (v : Reg) (s : State) : Out := unit s (isRing n) (atReg HIF_CTL (doorbellTail n v) s)
def execDoorbellCqhead (n : Nat) (v : Reg) (s : State) : Out := unit s (isRing n) (atReg HIF_CTL (doorbellHead n v) s)
/-- INLINE_DOORBELL (R368): one beat at HIF_DB_INLINE of ring `n`. -/
def execInlineDoorbell (n : Nat) (beat : NpxBeat) (s : State) : Out :=
  unit s (isRing n) (atReg HIF_CTL (fun s => (inlineBeat n beat s).2) s)
/-- DESCRIPTOR_FETCH (R360) and DESCRIPTOR_READ_DONE (R361). -/
def execDescriptorFetch (s : State) : Out := atReg HIF_CTL descriptorFetch s
def execDescriptorReadDone (n : Nat) (beats : List RdBeat) (us : List Upset) (s : State) : Out :=
  unit s (isRing n) (atReg HIF_CTL (descriptorReadDone n beats us) s)
/-- POST_RECORD (R363): a write of HIF_POST_CTL with GO at 1. -/
def execPostRecord (v : Reg) (s : State) : Out := atReg HIF_CTL (hifPost v) s
/-- COMPLETION_RECORD_WRITE (R365) and RECORD_WRITE_RESPONSE (R367). -/
def execCompletionRecordWrite (n : Nat) (s : State) : Out := unit s (isRing n) (atReg HIF_CTL (recordWrite n) s)
def execRecordWriteResponse (n : Nat) (resp : BitVec 2) (s : State) : Out :=
  unit s (decide (n < 256)) (atReg HIF_CTL (recordResponse n resp) s)
/-- BROADCAST_WRITE (R372): a write at offset `off` of the broadcast aperture. -/
def execBroadcastWrite (a : Agent) (off : BitVec 22) (v : Reg) (s : State) : Out := writeBy a (0x800000 + off.toNat) v s

/-! ### Frames (R382 to R402) -/

/-- Is it a link, and is the fabric's island on? -/
def isLink (l : Nat) : Bool := decide (l < 4)
def atFabric (f : State → State) (s : State) : Out := atReg WIAN_CTL f s

/-- A frame of type `t` arrives on link `l` and reaches the router. -/
def routedFrame (t : Nat) (l : Nat) (f : Frame) (us : List Upset) (s : State) : Out :=
  unit s (isLink l) (atFabric (fun s => if f.type = t then receive l f true (routerAccept l f us) s else s) s)

/-- WR_FRAME, RD_FRAME (R398), WRACK_FRAME and RDR_FRAME (R402). -/
def execWrFrame (l : Nat) (f : Frame) (us : List Upset) (s : State) : Out := routedFrame 1 l f us s
def execRdFrame (l : Nat) (f : Frame) (us : List Upset) (s : State) : Out := routedFrame 3 l f us s
def execWrackFrame (l : Nat) (f : Frame) (s : State) : Out := routedFrame 2 l f [] s
def execRdrFrame (l : Nat) (f : Frame) (us : List Upset) (s : State) : Out := routedFrame 4 l f us s

/-- FRAME_FORWARD (R390): a frame of types 1 to 4 for another device. -/
def execFrameForward (l : Nat) (f : Frame) (s : State) : Out :=
  unit s (isLink l) (atFabric (fun s =>
    if 1 ≤ f.type ∧ f.type ≤ 4 ∧ f.dst ≠ s.ownAddr then receive l f true (routerAccept l f []) s else s) s)

/-- FRAME_SEND (R382). -/
def execFrameSend (l : Nat) (vc : BitVec 2) (s : State) : Out := unit s (isLink l) (atFabric (frameSend l vc.toNat) s)

/-- LINK_FRAME (R383). -/
def execLinkFrame (l : Nat) (f : Frame) (s : State) : Out := unit s (isLink l) (atFabric (linkFrame l f) s)

/-- A control frame of type `t` with effect `k`. -/
def controlFrame (t : Nat) (k : Nat → Frame → State → State) (l : Nat) (f : Frame) (s : State) : Out :=
  unit s (isLink l) (atFabric (fun s => if f.type = t then control l f (k l f) s else s) s)

/-- CAPX_FRAME (R384, R527), DISC_FRAME (R386), JOIN_FRAME (R387), ASSIGN_FRAME (R389) and TSYNC_FRAME (R394). -/
def execCapxFrame (l : Nat) (f : Frame) (s : State) : Out := controlFrame 0xD capxEffect l f s
def execDiscFrame (l : Nat) (f : Frame) (s : State) : Out := controlFrame 8 discEffect l f s
def execJoinFrame (l : Nat) (f : Frame) (s : State) : Out := controlFrame 9 joinEffect l f s
def execAssignFrame (l : Nat) (f : Frame) (s : State) : Out := controlFrame 0xA (fun _ => assignEffect) l f s
def execTsyncFrame (l : Nat) (f : Frame) (s : State) : Out := controlFrame 0xB tsyncEffect l f s

/-- BAD_FRAME (R383). -/
def execBadFrame (l : Nat) (why : BadFrame) (f : Frame) (s : State) : Out := unit s (isLink l) (atFabric (badFrame l why f) s)

/-! ### Links, discovery and time -/

/-- TSYNC_EXCHANGE (R394) and SLEW_CORRECTION (R395). -/
def execTsyncExchange (l : Nat) (s : State) : Out := unit s (isLink l) (atFabric (tsyncExchange l) s)
def execSlewCorrection (s : State) : Out := atFabric slewCorrection s
/-- DISCOVERY_START and DISC_SEND (R386), JOIN_SEND and MONARCH_ASSIGN (R387). -/
def execDiscoveryStart (s : State) : Out := atFabric discoveryStart s
def execDiscSend (s : State) : Out := atFabric discSend s
def execJoinSend (s : State) : Out := atFabric joinSend s
def execMonarchAssign (s : State) : Out := atFabric monarchAssign s
/-- LINK_DOWN, LINK_TRAIN_START, LINK_TRAINED and LINK_RETRAIN (R384). -/
def execLinkDown (l : Nat × Option (BitVec 3)) (s : State) : Out := unit s (isLink l.1) (atFabric (laneFail l.1 l.2) s)
def execLinkTrainStart (l : Nat) (s : State) : Out := unit s (isLink l) (atFabric (linkTrain l) s)
def execLinkTrained (l : Nat) (lanes : BitVec 5) (s : State) : Out := unit s (isLink l) (atFabric (linkTrained l lanes) s)
def execLinkRetrain (l : Nat) (s : State) : Out := unit s (isLink l) (atFabric (linkRetrain l) s)
/-- LINK_AUTH_TIMEOUT (R527). -/
def execLinkAuthTimeout (l : Nat) (s : State) : Out := unit s (isLink l) (atFabric (authTimeout l) s)
/-- LANE_MARGIN_LOW (R385). -/
def execLaneMarginLow (l : Nat) (lane : BitVec 3) (margin : BitVec 8) (s : State) : Out :=
  unit s (isLink l) (inNap (laneMargin l lane.toNat margin.toNat) s)
/-- LINK_CNT_READ (R383). -/
def execLinkCntRead (a : Agent) (l : Nat) (s : State) : Out := unit s (isLink l) (readBy a (WIAN_LINK_CNT l) s)

/-! ### Transfer channels (R401, R402) -/

/-- TX_GO (R401): a write of WIAN_TXc_CTL with GO at 1. -/
def execTxGo (ch : Nat) (v : Reg) (s : State) : Out := unit s (isLink ch) (atFabric (txGo ch v) s)
/-- TX_FRAME_ISSUE, TX_FRAME_TIMEOUT and TX_ABORT (R402). -/
def execTxFrameIssue (ch : Nat) (us : List Upset) (s : State) : Out := unit s (isLink ch) (atFabric (txIssue ch us) s)
def execTxFrameTimeout (ch : Nat) (tag : BitVec 8) (s : State) : Out := unit s (isLink ch) (atFabric (txTimeout ch tag.toNat) s)
def execTxAbort (ch : Nat) (s : State) : Out := unit s (isLink ch) (atFabric (txAbort ch) s)

end Sys2Proof.Machine
end

