-- ==== Sys2Proof/Machine/ExecSys.lean ====
section
/-! DEFINITION. The commands of the event controller, the time base, the performance monitor, debug, health monitoring and security (chapters 13
to 18), one meaning each. -/

namespace Sys2Proof.Machine

/-! ### Event controller (chapter 13) -/

/-- A raised event that EVC handles next (R407). -/
def eventPending (e : Nat) (s : State) : State :=
  if !s.evcOn then s
  else match takeRaise e s.evc.raised with
    | none => s
    | some (t, l) => makePending e t { s with evc := { s.evc with raised := l } }

/-- EVENT_PENDING (R407). -/
def execEventPending (e : Nat) (s : State) : Out := unit s (eventBuilt s.build e) (live (eventPending e) s)

/-- MODERATION_TIMEOUT (R410): TB alone decides whether MTIME has elapsed, and the requests follow it, so the instant itself changes no
register. -/
def execModerationTimeout (e : Nat) (s : State) : Out := unit s (eventBuilt s.build e) (.next s)

/-- Is `t` an EVC target of the build: a logical sequencer, the supervisor (32) or Moth (33)? -/
def State.hasTarget (s : State) (t : Nat) : Bool := decide (t < s.build.lss) || decide (t = 32) || decide (t = 33)

/-- EVC_CLAIM (R416), EVC_DONE (R417) and EVC_PUSH (R418). -/
def execEvcClaim (a : Agent) (t : Nat) (s : State) : Out := unit s (s.hasTarget t) (readBy a (EVC_TGT_CLAIM t) s)
def execEvcDone (a : Agent) (t : Nat) (lvl : BitVec 3) (s : State) : Out :=
  unit s (s.hasTarget t) (writeBy a (EVC_TGT_DONE t) (lvl.zeroExtend 32) s)
def execEvcPush (a : Agent) (t : Nat) (lvl : BitVec 3) (s : State) : Out :=
  unit s (s.hasTarget t) (writeBy a (EVC_TGT_PUSH t) (lvl.zeroExtend 32) s)
/-- EVC_SRC_CLEAR and EVC_SWEV (R407). -/
def execEvcSrcClear (s : State) : Out := atReg EVC_SRC_CMD (fun s => clearPending (s.fld EVC_SRC_SEL_SRC) s) s
def execEvcSwev (e : BitVec 9) (s : State) : Out := atReg EVC_SWEV (softEvent e.toNat) s
/-- MOTH_WAKE and MCLK_STABLE (R424). -/
def execMothWake (k : BitVec 5) (s : State) : Out := live (mothWake k.toNat) s
def execMclkStable (s : State) : Out := live mclkStable s
/-- MGMT_WRITE (R425): a write of MOTH_MGMT_IN by the management port. -/
def execMgmtWrite (v : Reg) (s : State) : Out := writeBy .mgmt MOTH_MGMT_IN v s

/-! ### Time base (chapter 14) -/

/-- Is it one of `n`? -/
def below (k n : Nat) : Bool := decide (k < n)

/-- TB_LOAD (R433). -/
def execTbLoad (s : State) : Out := live tbLoad s
/-- COMPARE_MATCH (R434): channel `k` matches in the last update. -/
def execCompareMatch (k : Nat) (s : State) : Out := unit s (below k 32) (live (fun s => if s.cmpDue k then cmpFire k s else s) s)
/-- CMP_STAGE, CMP_COMMIT and CMP_ENABLE (R435). -/
def execCmpStage (k : Nat) (v : Reg) (s : State) : Out := unit s (below k 32) (live (cmpStage k v) s)
def execCmpCommit (k : Nat) (v : Reg) (s : State) : Out := unit s (below k 32) (live (cmpCommit k v) s)
def execCmpEnable (k : Nat) (v : Reg) (s : State) : Out := unit s (below k 32) (live (cmpConfig k (v ||| 1)) s)
/-- CMP_STAT_READ (R437). -/
def execCmpStatRead (a : Agent) (k : Nat) (s : State) : Out := unit s (below k 32) (readBy a (TBU_CMP_STAT k) s)
/-- GROUP_LOAD (R438): a write of TBU_GRP_CTL with GO at 1. -/
def execGroupLoad (v : Reg) (s : State) : Out := live (groupWrite v) s
/-- CAPTURE_EDGE (R439). -/
def execCaptureEdge (j : Nat) (rising : Bool) (s : State) : Out := unit s (below j 16) (live (captureEdge j rising) s)
/-- CAP_RISE_READ, CAP_FALL_READ and CAP_WIDTH_READ (R440). -/
def execCapRiseRead (a : Agent) (j : Nat) (s : State) : Out := unit s (below j 16) (readBy a (TBU_CAP_RISE_HI j) s)
def execCapFallRead (a : Agent) (j : Nat) (s : State) : Out := unit s (below j 16) (readBy a (TBU_CAP_FALL_HI j) s)
def execCapWidthRead (a : Agent) (j : Nat) (s : State) : Out := unit s (below j 16) (readBy a (TBU_CAP_WIDTH j) s)
/-- TICK_ARM (R442), TICK_PERIOD_WRITE (R444) and TICK_STAT_READ (R443). -/
def execTickArm (s : State) : Out := live (fun s => if s.on TBU_TICK_CTL_EN then s else tickArm s) s
def execTickPeriodWrite (v : Reg) (s : State) : Out := live (tickPeriod v) s
def execTickStatRead (a : Agent) (s : State) : Out := readBy a TBU_TICK_STAT s
/-- WDG_WARN and WDG_EXPIRE (R447), WDG_SERVICE (R448) and WDG_LOCK (R450). -/
def execWdgWarn (s : State) : Out := live wdgWarn s
def execWdgExpire (s : State) : Out := live wdgExpire s
def execWdgService (key : BitVec 32) (s : State) : Out := live (wdgService key) s
def execWdgLock (v : Reg) (s : State) : Out := live (wdgConfig (v ||| 0x80000000)) s

/-! ### Performance monitor (chapter 15) -/

/-- PMU_CNT_READ (R460). -/
def execPmuCntRead (a : Agent) (k : Nat) (s : State) : Out := unit s (below k 256) (readBy a (PMU_CNT k) s)
/-- PMU_SNAPSHOT (R461) and PMU_CLEAR (R457). -/
def execPmuSnapshot (s : State) : Out := atReg PMU_SNAP pmuSnapshot s
def execPmuClear (s : State) : Out := atReg PMU_CTL pmuClear s
/-- RINGLET_ENABLE (R463): a write of PMU_CTL with RL_EN at 1. -/
def execRingletEnable (v : Reg) (s : State) : Out := atReg PMU_CTL (pmuControl (v ||| 2)) s
/-- RINGLET_WRITE (R463) and RINGLET_WRITE_DONE (R466). -/
def execRingletWrite (s : State) : Out := inRun ringletWrite s
def execRingletWriteDone (ok : Bool) (s : State) : Out := inRun (ringletDone ok) s
/-- PMU_RL_CNT_READ (R465). -/
def execPmuRlCntRead (a : Agent) (s : State) : Out := readBy a PMU_RL_CNT s
/-- BW_WINDOW_END and PMU_BW_MAX_READ (R467). -/
def execBwWindowEnd (s : State) : Out := inNap windowEnd s
def execPmuBwMaxRead (a : Agent) (p : Nat) (s : State) : Out := unit s (below p 20) (readBy a (PMU_BW_MAX p) s)
/-- PMU_COUNTER_OVERFLOW (R458): counter `n`, at its largest value, counts `v` more. -/
def execPmuCounterOverflow (n : Nat) (v : BitVec 32) (s : State) : Out := unit s (below n 256) (inNap (counterOverflow n v) s)

/-! ### Debug (chapter 16) -/

/-- TAP_IR_UPDATE (R471). -/
def execTapIrUpdate (ir : BitVec 5) (s : State) : Out := live (fun s => { s with dbg := { s.dbg with ir := ir } }) s
/-- DBGREG scans (R472): OP status and OP 0 start no access. -/
def execDbgregRead (off : BitVec 14) (s : State) : Out := live (dbgregRead off) s
def execDbgregWrite (off : BitVec 14) (data : Reg) (s : State) : Out := live (dbgregWrite off data) s
def execDbgregStatus (s : State) : Out := .next s
def execDbgregNop (s : State) : Out := .next s
def execDbgregCapture (s : State) : Out := live dbgregCapture s
/-- DAPR_ACCESS (R473). -/
def execDaprAccess (wr : Bool) (off : BitVec 14) (data : Reg) (s : State) : Out := live (daprAccess wr off data) s
/-- MASTER_WRITE and MASTER_READ (R476): DAP writes of DBG_MDATA, and of DBG_MCTL with RD at 1. -/
def execMasterWrite (v : Reg) (s : State) : Out := dapCommand DBG_MDATA v s
def execMasterRead (s : State) : Out := dapCommand DBG_MCTL (s.reg DBG_MCTL ||| 1) s
/-- MASTER_ACCESS_DONE (R479). -/
def execMasterAccessDone (bulk : Reg) (stat : BitVec 2) (us : List Upset) (s : State) : Out := live (masterDone bulk stat us) s

/-- DBG_RUN_CTL of the selected core with its MODE and STEP_IRQ, and one more bit. -/
def State.runWord (s : State) (bit : Reg) : Reg :=
  match s.selected with
  | some c => (s.coreDbg c DBG_RUN_CTL &&& 0x300) ||| bit
  | none => bit

/-- HALT_REQUEST (R480), RESUME and STEP (R483): DAP writes of DBG_RUN_CTL. -/
def execHaltRequest (s : State) : Out := dapCommand DBG_RUN_CTL (s.runWord 1) s
def execResume (s : State) : Out := dapCommand DBG_RUN_CTL (s.runWord 2) s
def execStep (s : State) : Out := dapCommand DBG_RUN_CTL (s.runWord 4) s
/-- HALT_ENTRY (R481). -/
def execHaltEntry (c : CoreId) (s : State) : Out := atCore c (haltWithTrigger c) s
/-- MSV_DATA_WRITE (R482) and POD_FREEZE (R489): DAP writes. -/
def execMsvDataWrite (v : Reg) (s : State) : Out := dapCommand DBG_MSV_DATA v s
def execPodFreeze (mask : BitVec 16) (s : State) : Out := dapCommand DBG_FREEZE (mask.zeroExtend 32) s
/-- CROSS_TRIGGER (R491). -/
def execCrossTrigger (c : CoreId) (s : State) : Out := unit s (coreBuilt s.build c) (live (crossTrigger c) s)
/-- Virtual terminals (R494). -/
def execVtCdataWrite (a : Agent) (ch : Nat) (v : Reg) (s : State) : Out := unit s (below ch 4) (writeBy a (DBG_VT_CDATA ch) v s)
def execVtCdataRead (a : Agent) (ch : Nat) (s : State) : Out := unit s (below ch 4) (readBy a (DBG_VT_CDATA ch) s)
def execVtDdataWrite (ch : Nat) (v : Reg) (s : State) : Out := unit s (below ch 4) (dapCommand (DBG_VT_DDATA ch) v s)
def execVtDdataRead (ch : Nat) (s : State) : Out := unit s (below ch 4) (readBy .dap (DBG_VT_DDATA ch) s)
/-- AUTH_NEW, AUTH_VERIFY (R525) and AUTH_DROP (R526): DAP writes of DBG_AUTH_CTL. -/
def execAuthNew (s : State) : Out := dapCommand DBG_AUTH_CTL (s.reg DBG_AUTH_CTL ||| 1) s
def execAuthVerify (level : Bool) (s : State) : Out := dapCommand DBG_AUTH_CTL (if level then 0x102 else 2) s
def execAuthDrop (s : State) : Out := dapCommand DBG_AUTH_CTL (s.reg DBG_AUTH_CTL ||| 4) s
/-- AUTH_VERIFY_DONE (R526). -/
def execAuthVerifyDone (s : State) : Out := inNap authVerifyDone s

/-! ### Health and spares (chapter 17) -/

/-- SWAP_STAGE (R504): a write of HLT_SWAP with GO at 1. -/
def execSwapStage (v : Reg) (s : State) : Out := atReg HLT_SWAP (swapStage v) s
/-- BANK_COPY_DONE (R506) and SWAP_APPLY (R507). -/
def execBankCopyDone (s : State) : Out := inRun bankCopyDone s
def execSwapApply (us : List Upset) (s : State) : Out := inRun (swapApply us) s
/-- SELFTEST_START and SELFTEST_DONE (R502). -/
def execSelftestStart (pod : Nat) (s : State) : Out := unit s (s.hasPod pod) (inRun (selftestStart pod) s)
def execSelftestDone (pod : Nat) (ok : Bool) (s : State) : Out := unit s (s.hasPod pod) (inRun (selftestDone pod ok) s)
/-- LOCKSTEP_MISMATCH (R505). -/
def execLockstepMismatch (s : State) : Out := atCore .sup lockstepMismatch s
/-- RAIL_SAMPLE and RAIL_DATA_READ (R509), THERMAL_SAMPLE and THERM_DATA_READ (R511). -/
def execRailSample (code : BitVec 12) (s : State) : Out := live (railSample code) s
def execRailDataRead (a : Agent) (s : State) : Out := readBy a MOTH_RAIL_DATA s
def execThermalSample (sensor : BitVec 4) (temp : BitVec 12) (s : State) : Out := live (thermalSample sensor temp) s
def execThermDataRead (a : Agent) (s : State) : Out := readBy a HLT_THERM_DATA s
/-- LOG_POP (R512), IMAGE_DATA_WRITE and IMAGE_LOAD (R515). -/
def execLogPop (s : State) : Out := atReg HLT_LOG_POP logPop s
def execImageDataWrite (v : Reg) (s : State) : Out := atReg HLT_IMG_DATA (imageData v) s
def execImageLoad (s : State) : Out := atReg HLT_CTL imageLoadCmd s

/-! ### Security (chapter 18) -/

/-- ENTROPY_FAIL, DRBG_RESEED and ENTROPY_RECOVERY (R520). -/
def execEntropyFail (s : State) : Out := inNap entropyFail s
def execDrbgReseed (s : State) : Out := inNap drbgReseed s
def execEntropyRecovery (s : State) : Out := inNap entropyRecovery s
/-- VERSION_ADVANCE (R523) and SEC_LOCK_SET (R524): writes of 1. -/
def execVersionAdvance (a : Agent) (s : State) : Out := writeBy a SEC_VERADV 1 s
def execSecLockSet (a : Agent) (s : State) : Out := writeBy a SEC_LOCK 1 s
/-- SEC_REFUSE_READ (R524) and AUDIT_POP (R531). -/
def execSecRefuseRead (a : Agent) (s : State) : Out := readBy a SEC_REFUSE s
def execAuditPop (a : Agent) (s : State) : Out := writeBy a SEC_AUD_POP 1 s

end Sys2Proof.Machine
end

