-- ==== Sys2Proof/Machine/ExecPower.lean ====
section
/-! DEFINITION. The commands of resets, start-up and power states (chapter 19), one meaning each. -/

namespace Sys2Proof.Machine

/-! ### Requests written to CRP -/

/-- A write of CRP_PWR_CTL with REQ `req` by agent `a` (R533, R536, R540). -/
def pwrWrite (a : Agent) (req : Nat) (s : State) : Out := writeBy a CRP_PWR_CTL (BitVec.ofNat 32 req) s

def execPwrReqRun (a : Agent) (s : State) : Out := pwrWrite a 1 s
def execPwrReqDoze (a : Agent) (s : State) : Out := pwrWrite a 2 s
def execPwrReqNap (a : Agent) (s : State) : Out := pwrWrite a 3 s
def execPwrReqSleep (a : Agent) (s : State) : Out := pwrWrite a 4 s
def execPwrReqNone (a : Agent) (s : State) : Out := pwrWrite a 0 s

/-- UNIT and KIND of CRP_RST_CTL as they stand, with one more bit. -/
def State.rstWord (s : State) (bit : Reg) : Reg := (s.reg CRP_RST_CTL &&& 0xBF00) ||| bit

/-- COLD_RESET_REQUEST, WARM_RESET_REQUEST and DOMAIN_RESET (R542), SEQ_RELEASE (R544): writes of CRP_RST_CTL. -/
def execColdResetRequest (a : Agent) (s : State) : Out := writeBy a CRP_RST_CTL (s.rstWord 2) s
def execWarmResetRequest (a : Agent) (s : State) : Out := writeBy a CRP_RST_CTL (s.rstWord 1) s
def execDomainReset (a : Agent) (v : Reg) (s : State) : Out := writeBy a CRP_RST_CTL ((v &&& 0xBF00) ||| 4) s
def execSeqRelease (a : Agent) (s : State) : Out := writeBy a CRP_RST_CTL (s.rstWord 8) s

/-! ### Pins and the supply -/

/-- COLD_RESET_PIN and WARM_RESET_PIN (R548): ZV9_PORn or ZV9_WRSTn held low, or high again. -/
def execColdResetPin (low : Bool) (s : State) : Out := live (coldPin low) s
def execWarmResetPin (low : Bool) (s : State) : Out := live (warmPin low) s
/-- SUPPLY_LOSS (R223) and POWER_ON (R544). -/
def execSupplyLoss (s : State) : Out := .next (supplyLoss s)
def execPowerOn (s : State) : Out := .next (powerOn s)

/-! ### Power states -/

/-- NAP_ENTRY_DONE (R536) and SLEEP_ENTRY_DONE (R539). -/
def execNapEntryDone (s : State) : Out := live napEntryDone s
def execSleepEntryDone (s : State) : Out := live sleepEntryDone s
/-- NAP_EXIT (R537) and SLEEP_EXIT (R538). -/
def execNapExit (s : State) : Out := live napExit s
def execSleepExit (s : State) : Out := live sleepExit s
/-- ISLAND_POWER_ACK and ISLAND_ACK_TIMEOUT (R549) of the islands of Table 19.3. -/
def execIslandPowerAck (i : BitVec 6) (s : State) : Out := unit s (below i.toNat 41) (live (islandAck i.toNat) s)
def execIslandAckTimeout (i : BitVec 6) (s : State) : Out := unit s (below i.toNat 41) (live (islandTimeout i.toNat) s)
/-- SELF_REFRESH_ACK (R552). -/
def execSelfRefreshAck (n : Nat) (s : State) : Out := unit s (s.hasBmp n) (live (selfRefreshAck n) s)

/-! ### Start-up (R522, R544) -/

/-- STARTUP_CHECK. -/
def execStartupCheck (lfOk : Bool) (pmhz : BitVec 12) (tppm : BitVec 16) (s : State) : Out := live (startupCheck lfOk pmhz tppm) s
/-- SUPERVISOR_RELEASE and SECURE_BOOT_FAIL. -/
def execSupervisorRelease (m : BootImage) (s : State) : Out := live (supervisorRelease m) s
def execSecureBootFail (m : BootImage) (s : State) : Out := live (secureBootFail m) s
/-- SCRATCH_INIT_DONE. -/
def execScratchInitDone (s : State) : Out := live scratchInitDone s

end Sys2Proof.Machine
end

