-- ==== Sys2Proof/Machine/Idle.lean ====
section
/-! DEFINITION. The step of a block with no command waiting (DESIGN CHOICE: assumption 4): what the last update of TB has made due, one
thing a step, as the command of its row does it; then the next edge. Nothing that an update makes due is lost. -/

namespace Sys2Proof.Machine

/-- The lowest compare channel that matches in the last update. -/
def State.nextCompare (s : State) : Option Nat := firstBelow (fun k => s.cmpDue k) 32

/-- One step of an idle block: the quiesce margin, a compare match, the tick instant, a bandwidth window, the watchdog, or an edge. -/
def idleStep (s : State) : Out :=
  if !s.crp.live then .next s
  else if s.clk.quietDue ∧ s.on TBU_TICK_CTL_EN ∧ s.awake then execQuiesceMarginStart s
  else match s.nextCompare with
    | some k => execCompareMatch k s
    | none =>
      if s.tickDue then execTickInstant s
      else if s.clk.bwDue ∧ s.fld CRP_PWR_STAT_STATE ≠ 4 then execBwWindowEnd s
      else if s.clk.warnDue then execWdgWarn s
      else if s.clk.expDue then execWdgExpire s
      else .next (idle s)

end Sys2Proof.Machine
end

