-- ==== Sys2Proof/Machine/SprinCap.lean ====
section
/-! DEFINITION. The instructions on capability registers that access no memory (Tables 7.18 and 7.19) and the vector instructions
(Table 7.17). -/

namespace Sys2Proof.Machine

/-! ### Capability pairs (Table 7.18) -/

/-- CMOV a, b: Ca ← Cb, tag included. -/
def execCmov (c : CoreId) (a b : BitVec 3) (s : State) : Out :=
  issue c { plain := false } (fun v s => retire c v none (s.setCapReg c a.toNat (s.capReg c b.toNat))) s

/-- The first failing check of CDERIVE on `x` (R253): offset, length and perm asked for. -/
def State.deriveFault (s : State) (x : Cap) (off len perm : Nat) : Option FaultRec :=
  if !s.capTagged x then some (capFault 0 0)
  else if x.otype ≠ 0 then some (capFault 1 0)
  else if !x.has 6 then some (capFault 2 0)
  else if x.length < off + len then some (capFault 3 0)
  else if perm &&& x.perm ≠ perm then some (capFault 2 0)
  else none

/-- The capability CDERIVE forms (R253). -/
def Cap.derive (x : Cap) (off len perm : Nat) : Cap :=
  { bits := capBits (x.base + off) len perm x.group.toNat x.view.toNat 0 x.owner (if bitsOf perm 7 1 = 1 then x.skey else 0), tag := true }

/-- CDERIVE a, b ( ol oh ll lh perm -- ) (R253). -/
def execCderive (c : CoreId) (a b : BitVec 3) (s : State) : Out :=
  issue c { p := 5, plain := false } (fun v s =>
    let x := s.capReg c b.toNat
    let off := (pair (v.cell 4) (v.cell 3)).toNat
    let len := (pair (v.cell 2) (v.cell 1)).toNat
    let perm := (v.cell 0).toNat
    match s.deriveFault x off len perm with
    | some f => markFault c f s
    | none => retire c (v.eff 5 []) none (s.setCapReg c a.toNat (x.derive off len perm))) s

/-- The first failing check of CSEAL (`lock`) or CUNSEAL of Ca `x` by the sealer Cb `y` (R254). -/
def State.sealFault (s : State) (lock : Bool) (x y : Cap) : Option FaultRec :=
  if !s.capTagged y then some (capFault 0 0)
  else if y.otype ≠ 0 then some (capFault 1 0)
  else if !y.has 7 ∨ y.skey = 0 then some (capFault 2 0)
  else if !s.capTagged x then some (capFault 0 0)
  else if lock then if x.otype ≠ 0 then some (capFault 1 0) else none
  else if x.otype = 0 ∨ x.otype ≠ y.skey then some (capFault 1 0) else none

/-- CSEAL and CUNSEAL (R254). -/
def seals (c : CoreId) (a b : BitVec 3) (lock : Bool) (s : State) : Out :=
  issue c { plain := false } (fun v s =>
    let x := s.capReg c a.toNat
    let y := s.capReg c b.toNat
    match s.sealFault lock x y with
    | some f => markFault c f s
    | none => retire c v none (s.setCapReg c a.toNat (x.with 96 8 (if lock then y.skey else 0)))) s

def execCseal (c : CoreId) (a b : BitVec 3) (s : State) : Out := seals c a b true s
def execCunseal (c : CoreId) (a b : BitVec 3) (s : State) : Out := seals c a b false s

/-! ### Capability fields (Table 7.19, R255) -/

/-- A field read: `q` cells computed from Cr. -/
def capRead (c : CoreId) (r : BitVec 3) (q : Nat) (f : Cap → List Word) (s : State) : Out :=
  issue c (eff 0 q 0 0) (fun v s => retire c (v.eff 0 (f (s.capReg c r.toNat))) none s) s

/-- Word `i` of a capability field as a cell. -/
def capCell (n : Nat) : Word := BitVec.ofNat 16 n

def execCbase (c : CoreId) (r : BitVec 3) (s : State) : Out :=
  capRead c r 3 (fun x => [capCell x.base, capCell (x.base / 2 ^ 16), capCell (x.base / 2 ^ 32)]) s
def execClen (c : CoreId) (r : BitVec 3) (s : State) : Out :=
  capRead c r 2 (fun x => [capCell x.length, capCell (x.length / 2 ^ 16)]) s
def execCperm (c : CoreId) (r : BitVec 3) (s : State) : Out := capRead c r 1 (fun x => [capCell x.perm]) s

/-- CATTR: VIEW in [1:0], GROUP in [7:2], OTYPE in [15:8]. -/
def execCattr (c : CoreId) (r : BitVec 3) (s : State) : Out :=
  capRead c r 1 (fun x => [capCell (x.view.toNat + x.group.toNat * 4 + x.otype * 256)]) s
def execCowner (c : CoreId) (r : BitVec 3) (s : State) : Out := capRead c r 1 (fun x => [capCell x.owner]) s
def execCtag (c : CoreId) (r : BitVec 3) (s : State) : Out := capRead c r 1 (fun x => [truth (s.capTagged x)]) s
def execCskey (c : CoreId) (r : BitVec 3) (s : State) : Out := capRead c r 1 (fun x => [capCell x.skey]) s

/-- CCLR: every field 0, untagged. -/
def execCclr (c : CoreId) (r : BitVec 3) (s : State) : Out :=
  issue c { plain := false } (fun v s => retire c v none (s.setCapReg c r.toNat Cap.null)) s

/-- CPRIOR: VIEW from CURRENT to PRIOR in a tagged, unsealed register (R255). -/
def execCprior (c : CoreId) (r : BitVec 3) (s : State) : Out :=
  issue c { plain := false } (fun v s =>
    let x := s.capReg c r.toNat
    if !s.capTagged x then markFault c (capFault 0 0) s
    else if x.otype ≠ 0 then markFault c (capFault 1 0) s
    else if x.view ≠ 2 then markFault c (capFault 2 0) s
    else retire c v none (s.setCapReg c r.toNat (x.with 94 2 1))) s

/-! ### Vector instructions (Table 7.17) -/

/-- Is the core a sequencer with a live context, so that it can issue chains and hold a VPR (R190, R561)? -/
def State.vecKey (s : State) (c : CoreId) : Option Nat := if isSeq c then s.liveKey c else none

/-- VISSUE c ( lo hi -- ticket ): the request goes to the allocator after every earlier store of the context (R139, R190, R199, R561). -/
def execVissue (c : CoreId) (r : BitVec 3) (s : State) : Out :=
  issue c { p := 2, q := 1, plain := false, absent := true } (fun v s =>
    match s.vecKey c with
    | none => markFault c (mkFault 2 0 0) s
    | some _ => s.setCore c { s.core c with vreq := some { creg := r, off := pair (v.cell 1) (v.cell 0), resume := false, since := s.clk.pclk } }) s

/-- VRESUME ( -- ticket ) (R179, R180). -/
def execVresume (c : CoreId) (s : State) : Out :=
  issue c { q := 1, plain := false, absent := true } (fun _ s =>
    match s.vecKey c with
    | none => markFault c (mkFault 2 0 0) s
    | some _ => s.setCore c { s.core c with vreq := some { creg := 0, off := 0, resume := true, since := s.clk.pclk } }) s

/-- VWAIT ( ticket -- status ) (R143, R176, R177, R561): an ENDED ticket answers its status and is freed; a QUEUED or RUNNING one makes the
context leave the core, or stops the core in place at a handler level. -/
def execVwait (c : CoreId) (s : State) : Out :=
  issue c { p := 1, q := 1, plain := false, absent := true } (fun v s =>
    let done := fun (w : Word) (s : State) => retire c (v.eff 1 [w]) none s
    match c, s.vecKey c with
    | .seq n, some i => match s.lsOfSeq n with
      | none => done 0x8000 s
      | some ls =>
        let t := (v.cell 0).toNat
        match (if t = 0 ∨ 255 < t then none else s.ticket ls t) with
        | none => done 0x8000 s
        | some tk =>
          match tk.st with
          | .ended =>
            let flt := tk.status.getLsbD 8
            let s := s.setTicket ls t none
            let s := if tk.status.getLsbD 7 ∨ flt then s.setCtxAt i { s.ctxAt i with vpr := tk.prog ||| 1#256 } else s
            let s := done tk.status s
            if flt then markFault c (mkFault (vprField tk.prog 4 4) (vprField tk.prog 8 4) 0) s else s
          | _ =>
            if (s.core c).level = 0 then
              depart c (fun x => { x with state := .vwait, ticket := BitVec.ofNat 8 t, vpend := true }) (s.setCore c (s.core c).issued.settle)
            else s.setCore c { s.core c with vwait := some t }
    | _, _ => done 0x8000 s) s

/-- The ticket states VTEST pushes (R251). -/
def TicketState.code : TicketState → Word
  | .queued => 1
  | .running => 2
  | .ended => 3

/-- VTEST ( ticket -- s ) (R251, R561). -/
def execVtest (c : CoreId) (s : State) : Out :=
  issue c { p := 1, q := 1, absent := true } (fun v s =>
    let t := (v.cell 0).toNat
    let w := match c, s.vecKey c with
      | .seq n, some _ => match s.lsOfSeq n with
        | some ls => match (if t = 0 ∨ 255 < t then none else s.ticket ls t) with
          | some tk => tk.st.code
          | none => 0
        | none => 0
      | _, _ => 0
    retire c (v.eff 1 [w]) none s) s

/-- VPR@ ( i -- w ) (R252, R561). -/
def execVprFetch (c : CoreId) (s : State) : Out :=
  issue c { p := 1, q := 1, absent := true } (fun v s =>
    let i := (v.cell 0).toNat % 16
    let w : Word := match s.vecKey c with
      | some k => (s.ctxAt k).vpr.extractLsb' (16 * i) 16
      | none => 0
    retire c (v.eff 1 [w]) none s) s

/-- VPR! ( w i -- ) (R252, R561). -/
def execVprStore (c : CoreId) (s : State) : Out :=
  issue c { p := 2, plain := false, absent := true } (fun v s =>
    let i := (v.cell 0).toNat % 16
    let s := match s.vecKey c with
      | some k => s.setCtxAt k { s.ctxAt k with vpr := vprWrite (s.ctxAt k).vpr (16 * i) 16 (v.cell 1).toNat }
      | none => s
    retire c (v.eff 2 []) none s) s

end Sys2Proof.Machine
end

