-- ==== Sys2Proof/Machine/Dispatch.lean ====
section
/-! DEFINITION. Which meaning each command has: one arm per row of the opcode table. -/

namespace Sys2Proof.Machine

def exec (i : Instr) (s : State) : Host.Outcome State Fault Refusal :=
  match i with
  | .regWrite a addr v => Sys2Proof.Machine.execRegWrite a addr v s
  | .npxReadRequest id smem addr len qos => Sys2Proof.Machine.execNpxReadRequest id smem addr len qos s
  | .npxWriteRequest id smem addr len qos beats => Sys2Proof.Machine.execNpxWriteRequest id smem addr len qos beats s
  | .arbiterGrant bank upsets => Sys2Proof.Machine.execArbiterGrant bank upsets s
  | .smemReadData req => Sys2Proof.Machine.execSmemReadData req s
  | .scratchGrant req => Sys2Proof.Machine.execScratchGrant req s
  | .scrubAccess upsets => Sys2Proof.Machine.execScrubAccess upsets s
  | .smemInit a => Sys2Proof.Machine.execSmemInit a s
  | .initDone => Sys2Proof.Machine.execInitDone s
  | .smemCeCntRead a => Sys2Proof.Machine.execSmemCeCntRead a s
  | .bmpTrain n => Sys2Proof.Machine.execBmpTrain n s
  | .bmpTrainReport n ok cap mrgRd mrgWr repaired => Sys2Proof.Machine.execBmpTrainReport n ok cap mrgRd mrgWr repaired s
  | .bmpTrainTimeout n => Sys2Proof.Machine.execBmpTrainTimeout n s
  | .bmpReadBeat n tag data stat => Sys2Proof.Machine.execBmpReadBeat n tag data stat s
  | .bmpIlvWrite v => Sys2Proof.Machine.execBmpIlvWrite v s
  | .bmpCpyGo n v => Sys2Proof.Machine.execBmpCpyGo n v s
  | .bmpCpyGranuleDone n data stat upsets => Sys2Proof.Machine.execBmpCpyGranuleDone n data stat upsets s
  | .bmpCpyAbort n => Sys2Proof.Machine.execBmpCpyAbort n s
  | .tickInstant => Sys2Proof.Machine.execTickInstant s
  | .flipRelease => Sys2Proof.Machine.execFlipRelease s
  | .quiesceMarginStart => Sys2Proof.Machine.execQuiesceMarginStart s
  | .allocHoldRelease => Sys2Proof.Machine.execAllocHoldRelease s
  | .gcmdAdmit g => Sys2Proof.Machine.execGcmdAdmit g s
  | .gcmdDone g => Sys2Proof.Machine.execGcmdDone g s
  | .gcmdDiscard g => Sys2Proof.Machine.execGcmdDiscard g s
  | .gcmdNone => Sys2Proof.Machine.execGcmdNone s
  | .sweepDone g => Sys2Proof.Machine.execSweepDone g s
  | .leaseTake n g => Sys2Proof.Machine.execLeaseTake n g s
  | .leaseRelease n => Sys2Proof.Machine.execLeaseRelease n s
  | .freezeRequest => Sys2Proof.Machine.execFreezeRequest s
  | .poolCnt0Read a => Sys2Proof.Machine.execPoolCnt0Read a s
  | .allocAccept c upsets => Sys2Proof.Machine.execAllocAccept c upsets s
  | .allocGrant => Sys2Proof.Machine.execAllocGrant s
  | .streamElementIssue pod entry k => Sys2Proof.Machine.execStreamElementIssue pod entry k s
  | .runEnd pod => Sys2Proof.Machine.execRunEnd pod s
  | .podAbort pod => Sys2Proof.Machine.execPodAbort pod s
  | .allocWaitRead a => Sys2Proof.Machine.execAllocWaitRead a s
  | .lit c x => Sys2Proof.Machine.execLit c x s
  | .br c off => Sys2Proof.Machine.execBr c off s
  | .bz c off => Sys2Proof.Machine.execBz c off s
  | .bnz c off => Sys2Proof.Machine.execBnz c off s
  | .call c off => Sys2Proof.Machine.execCall c off s
  | .ld c r d => Sys2Proof.Machine.execLd c r d s
  | .st c r d => Sys2Proof.Machine.execSt c r d s
  | .ld2 c r d => Sys2Proof.Machine.execLd2 c r d s
  | .st2 c r d => Sys2Proof.Machine.execSt2 c r d s
  | .ldx c r d => Sys2Proof.Machine.execLdx c r d s
  | .stx c r d => Sys2Proof.Machine.execStx c r d s
  | .ld2x c r d => Sys2Proof.Machine.execLd2x c r d s
  | .st2x c r d => Sys2Proof.Machine.execSt2x c r d s
  | .nop c => Sys2Proof.Machine.execNop c s
  | .dup c => Sys2Proof.Machine.execDup c s
  | .drop c => Sys2Proof.Machine.execDrop c s
  | .swap c => Sys2Proof.Machine.execSwap c s
  | .overOp c => Sys2Proof.Machine.execOver c s
  | .rot c => Sys2Proof.Machine.execRot c s
  | .nip c => Sys2Proof.Machine.execNip c s
  | .tuck c => Sys2Proof.Machine.execTuck c s
  | .twoDup c => Sys2Proof.Machine.execTwoDup c s
  | .twoDrop c => Sys2Proof.Machine.execTwoDrop c s
  | .twoSwap c => Sys2Proof.Machine.execTwoSwap c s
  | .twoOver c => Sys2Proof.Machine.execTwoOver c s
  | .minusRot c => Sys2Proof.Machine.execMinusRot c s
  | .pick c k => Sys2Proof.Machine.execPick c k s
  | .add c => Sys2Proof.Machine.execAdd c s
  | .adc c => Sys2Proof.Machine.execAdc c s
  | .sub c => Sys2Proof.Machine.execSub c s
  | .sbc c => Sys2Proof.Machine.execSbc c s
  | .neg c => Sys2Proof.Machine.execNeg c s
  | .inc c => Sys2Proof.Machine.execInc c s
  | .dec c => Sys2Proof.Machine.execDec c s
  | .and c => Sys2Proof.Machine.execAnd c s
  | .or c => Sys2Proof.Machine.execOr c s
  | .xor c => Sys2Proof.Machine.execXor c s
  | .not c => Sys2Proof.Machine.execNot c s
  | .shl c => Sys2Proof.Machine.execShl c s
  | .shr c => Sys2Proof.Machine.execShr c s
  | .sra c => Sys2Proof.Machine.execSra c s
  | .rol c => Sys2Proof.Machine.execRol c s
  | .shli c k => Sys2Proof.Machine.execShli c k s
  | .shri c k => Sys2Proof.Machine.execShri c k s
  | .srai c k => Sys2Proof.Machine.execSrai c k s
  | .min c => Sys2Proof.Machine.execMin c s
  | .max c => Sys2Proof.Machine.execMax c s
  | .umin c => Sys2Proof.Machine.execUmin c s
  | .umax c => Sys2Proof.Machine.execUmax c s
  | .abs c => Sys2Proof.Machine.execAbs c s
  | .sext8 c => Sys2Proof.Machine.execSext8 c s
  | .zext8 c => Sys2Proof.Machine.execZext8 c s
  | .popc c => Sys2Proof.Machine.execPopc c s
  | .clz c => Sys2Proof.Machine.execClz c s
  | .mul c => Sys2Proof.Machine.execMul c s
  | .mulu c => Sys2Proof.Machine.execMulu c s
  | .mull c => Sys2Proof.Machine.execMull c s
  | .div c => Sys2Proof.Machine.execDiv c s
  | .divu c => Sys2Proof.Machine.execDivu c s
  | .div2u c => Sys2Proof.Machine.execDiv2u c s
  | .add2 c => Sys2Proof.Machine.execAdd2 c s
  | .sub2 c => Sys2Proof.Machine.execSub2 c s
  | .neg2 c => Sys2Proof.Machine.execNeg2 c s
  | .eq c => Sys2Proof.Machine.execEq c s
  | .ne c => Sys2Proof.Machine.execNe c s
  | .lt c => Sys2Proof.Machine.execLt c s
  | .le c => Sys2Proof.Machine.execLe c s
  | .gt c => Sys2Proof.Machine.execGt c s
  | .ge c => Sys2Proof.Machine.execGe c s
  | .ult c => Sys2Proof.Machine.execUlt c s
  | .ule c => Sys2Proof.Machine.execUle c s
  | .ugt c => Sys2Proof.Machine.execUgt c s
  | .uge c => Sys2Proof.Machine.execUge c s
  | .zeroEq c => Sys2Proof.Machine.execZeroEq c s
  | .zeroLt c => Sys2Proof.Machine.execZeroLt c s
  | .sel c => Sys2Proof.Machine.execSel c s
  | .ret c => Sys2Proof.Machine.execRet c s
  | .toR c => Sys2Proof.Machine.execToR c s
  | .rFrom c => Sys2Proof.Machine.execRFrom c s
  | .rFetch c => Sys2Proof.Machine.execRFetch c s
  | .jmps c => Sys2Proof.Machine.execJmps c s
  | .calls c => Sys2Proof.Machine.execCalls c s
  | .reti c => Sys2Proof.Machine.execReti c s
  | .rett c => Sys2Proof.Machine.execRett c s
  | .wait c => Sys2Proof.Machine.execWait c s
  | .synci c => Sys2Proof.Machine.execSynci c s
  | .niwo c => Sys2Proof.Machine.execNiwo c s
  | .niwc c => Sys2Proof.Machine.execNiwc c s
  | .fence c => Sys2Proof.Machine.execFence c s
  | .loop c d => Sys2Proof.Machine.execLoop c d s
  | .rep c => Sys2Proof.Machine.execRep c s
  | .repi c k => Sys2Proof.Machine.execRepi c k s
  | .flFetch c => Sys2Proof.Machine.execFlFetch c s
  | .flStore c => Sys2Proof.Machine.execFlStore c s
  | .lcFetch c => Sys2Proof.Machine.execLcFetch c s
  | .lcStore c => Sys2Proof.Machine.execLcStore c s
  | .lsFetch c => Sys2Proof.Machine.execLsFetch c s
  | .lsStore c => Sys2Proof.Machine.execLsStore c s
  | .leFetch c => Sys2Proof.Machine.execLeFetch c s
  | .leStore c => Sys2Proof.Machine.execLeStore c s
  | .rcFetch c => Sys2Proof.Machine.execRcFetch c s
  | .depth c => Sys2Proof.Machine.execDepth c s
  | .rdepth c => Sys2Proof.Machine.execRdepth c s
  | .lpush c => Sys2Proof.Machine.execLpush c s
  | .lpop c => Sys2Proof.Machine.execLpop c s
  | .leave c => Sys2Proof.Machine.execLeave c s
  | .ctxid c => Sys2Proof.Machine.execCtxid c s
  | .ldp c r => Sys2Proof.Machine.execLdp c r s
  | .stp c r => Sys2Proof.Machine.execStp c r s
  | .ld2p c r => Sys2Proof.Machine.execLd2p c r s
  | .st2p c r => Sys2Proof.Machine.execSt2p c r s
  | .tas c r => Sys2Proof.Machine.execTas c r s
  | .lr c r => Sys2Proof.Machine.execLr c r s
  | .sc c r => Sys2Proof.Machine.execSc c r s
  | .ldmStep c r => Sys2Proof.Machine.execLdmStep c r s
  | .stmStep c r => Sys2Proof.Machine.execStmStep c r s
  | .cmov c ra rb => Sys2Proof.Machine.execCmov c ra rb s
  | .cderive c ra rb => Sys2Proof.Machine.execCderive c ra rb s
  | .cseal c ra rb => Sys2Proof.Machine.execCseal c ra rb s
  | .cunseal c ra rb => Sys2Proof.Machine.execCunseal c ra rb s
  | .cbase c r => Sys2Proof.Machine.execCbase c r s
  | .clen c r => Sys2Proof.Machine.execClen c r s
  | .cperm c r => Sys2Proof.Machine.execCperm c r s
  | .cattr c r => Sys2Proof.Machine.execCattr c r s
  | .cowner c r => Sys2Proof.Machine.execCowner c r s
  | .ctag c r => Sys2Proof.Machine.execCtag c r s
  | .cclr c r => Sys2Proof.Machine.execCclr c r s
  | .cprior c r => Sys2Proof.Machine.execCprior c r s
  | .cskey c r => Sys2Proof.Machine.execCskey c r s
  | .cldc c ra rb => Sys2Proof.Machine.execCldc c ra rb s
  | .cstc c ra rb => Sys2Proof.Machine.execCstc c ra rb s
  | .sev c n => Sys2Proof.Machine.execSev c n s
  | .lith c n => Sys2Proof.Machine.execLith c n s
  | .trap c n upsets => Sys2Proof.Machine.execTrap c n upsets s
  | .vissue c r => Sys2Proof.Machine.execVissue c r s
  | .vwait c => Sys2Proof.Machine.execVwait c s
  | .vresume c => Sys2Proof.Machine.execVresume c s
  | .vtest c => Sys2Proof.Machine.execVtest c s
  | .vprFetch c => Sys2Proof.Machine.execVprFetch c s
  | .vprStore c => Sys2Proof.Machine.execVprStore c s
  | .undefinedWord c w => Sys2Proof.Machine.execUndefinedWord c w s
  | .spillTrap c upsets => Sys2Proof.Machine.execSpillTrap c upsets s
  | .fillTrap c upsets => Sys2Proof.Machine.execFillTrap c upsets s
  | .interruptRecognise c => Sys2Proof.Machine.execInterruptRecognise c s
  | .faultEntry c => Sys2Proof.Machine.execFaultEntry c s
  | .niwExpiry c => Sys2Proof.Machine.execNiwExpiry c s
  | .budgetExhausted c => Sys2Proof.Machine.execBudgetExhausted c s
  | .quantumExpiry c => Sys2Proof.Machine.execQuantumExpiry c s
  | .contextDispatch c => Sys2Proof.Machine.execContextDispatch c s
  | .contextEvict c slot => Sys2Proof.Machine.execContextEvict c slot s
  | .contextLoad c slot => Sys2Proof.Machine.execContextLoad c slot s
  | .ctxLoad n slot => Sys2Proof.Machine.execCtxLoad n slot s
  | .ctxWake n slot => Sys2Proof.Machine.execCtxWake n slot s
  | .ctxPark n slot => Sys2Proof.Machine.execCtxPark n slot s
  | .ctxFree n slot => Sys2Proof.Machine.execCtxFree n slot s
  | .ctxSetbud n slot => Sys2Proof.Machine.execCtxSetbud n slot s
  | .ctxCmdNone n slot => Sys2Proof.Machine.execCtxCmdNone n slot s
  | .ctxDataWrite n v => Sys2Proof.Machine.execCtxDataWrite n v s
  | .svwDataWrite c v => Sys2Proof.Machine.execSvwDataWrite c v s
  | .mint a => Sys2Proof.Machine.execMint a s
  | .mintCopy a src => Sys2Proof.Machine.execMintCopy a src s
  | .mintDone => Sys2Proof.Machine.execMintDone s
  | .splitEnApply c => Sys2Proof.Machine.execSplitEnApply c s
  | .detSwitch c => Sys2Proof.Machine.execDetSwitch c s
  | .lineRequest c line => Sys2Proof.Machine.execLineRequest c line s
  | .lineDelivered c data check err => Sys2Proof.Machine.execLineDelivered c data check err s
  | .codeLineWrite a => Sys2Proof.Machine.execCodeLineWrite a s
  | .codeWriteDone err => Sys2Proof.Machine.execCodeWriteDone err s
  | .lcInvalidate a => Sys2Proof.Machine.execLcInvalidate a s
  | .seqDetRead a c cnt => Sys2Proof.Machine.execSeqDetRead a c cnt s
  | .seqExcCntRead a c => Sys2Proof.Machine.execSeqExcCntRead a c s
  | .hifEnable => Sys2Proof.Machine.execHifEnable s
  | .ringEnable n v => Sys2Proof.Machine.execRingEnable n v s
  | .ringDisable n => Sys2Proof.Machine.execRingDisable n s
  | .doorbellSqtail n v => Sys2Proof.Machine.execDoorbellSqtail n v s
  | .doorbellCqhead n v => Sys2Proof.Machine.execDoorbellCqhead n v s
  | .inlineDoorbell n beat => Sys2Proof.Machine.execInlineDoorbell n beat s
  | .descriptorFetch => Sys2Proof.Machine.execDescriptorFetch s
  | .descriptorReadDone n beats upsets => Sys2Proof.Machine.execDescriptorReadDone n beats upsets s
  | .postRecord v => Sys2Proof.Machine.execPostRecord v s
  | .completionRecordWrite n => Sys2Proof.Machine.execCompletionRecordWrite n s
  | .recordWriteResponse n resp => Sys2Proof.Machine.execRecordWriteResponse n resp s
  | .broadcastWrite a off v => Sys2Proof.Machine.execBroadcastWrite a off v s
  | .wrFrame l f upsets => Sys2Proof.Machine.execWrFrame l f upsets s
  | .rdFrame l f upsets => Sys2Proof.Machine.execRdFrame l f upsets s
  | .wrackFrame l f => Sys2Proof.Machine.execWrackFrame l f s
  | .rdrFrame l f upsets => Sys2Proof.Machine.execRdrFrame l f upsets s
  | .frameForward l f => Sys2Proof.Machine.execFrameForward l f s
  | .frameSend l vc => Sys2Proof.Machine.execFrameSend l vc s
  | .linkFrame l f => Sys2Proof.Machine.execLinkFrame l f s
  | .capxFrame l f => Sys2Proof.Machine.execCapxFrame l f s
  | .discFrame l f => Sys2Proof.Machine.execDiscFrame l f s
  | .joinFrame l f => Sys2Proof.Machine.execJoinFrame l f s
  | .assignFrame l f => Sys2Proof.Machine.execAssignFrame l f s
  | .tsyncFrame l f => Sys2Proof.Machine.execTsyncFrame l f s
  | .tsyncExchange l => Sys2Proof.Machine.execTsyncExchange l s
  | .slewCorrection => Sys2Proof.Machine.execSlewCorrection s
  | .discoveryStart => Sys2Proof.Machine.execDiscoveryStart s
  | .discSend => Sys2Proof.Machine.execDiscSend s
  | .joinSend => Sys2Proof.Machine.execJoinSend s
  | .monarchAssign => Sys2Proof.Machine.execMonarchAssign s
  | .linkDown l => Sys2Proof.Machine.execLinkDown l s
  | .linkTrainStart l => Sys2Proof.Machine.execLinkTrainStart l s
  | .linkTrained l lanes => Sys2Proof.Machine.execLinkTrained l lanes s
  | .linkRetrain l => Sys2Proof.Machine.execLinkRetrain l s
  | .linkAuthTimeout l => Sys2Proof.Machine.execLinkAuthTimeout l s
  | .laneMarginLow l lane margin => Sys2Proof.Machine.execLaneMarginLow l lane margin s
  | .txGo ch v => Sys2Proof.Machine.execTxGo ch v s
  | .txFrameIssue ch upsets => Sys2Proof.Machine.execTxFrameIssue ch upsets s
  | .txFrameTimeout ch tag => Sys2Proof.Machine.execTxFrameTimeout ch tag s
  | .txAbort ch => Sys2Proof.Machine.execTxAbort ch s
  | .linkCntRead a l => Sys2Proof.Machine.execLinkCntRead a l s
  | .eventPending e => Sys2Proof.Machine.execEventPending e s
  | .moderationTimeout e => Sys2Proof.Machine.execModerationTimeout e s
  | .evcClaim a t => Sys2Proof.Machine.execEvcClaim a t s
  | .evcDone a t lvl => Sys2Proof.Machine.execEvcDone a t lvl s
  | .evcPush a t lvl => Sys2Proof.Machine.execEvcPush a t lvl s
  | .evcSrcClear => Sys2Proof.Machine.execEvcSrcClear s
  | .evcSwev e => Sys2Proof.Machine.execEvcSwev e s
  | .mothWake k => Sys2Proof.Machine.execMothWake k s
  | .mclkStable => Sys2Proof.Machine.execMclkStable s
  | .mgmtWrite v => Sys2Proof.Machine.execMgmtWrite v s
  | .tbLoad => Sys2Proof.Machine.execTbLoad s
  | .compareMatch k => Sys2Proof.Machine.execCompareMatch k s
  | .cmpStage k v => Sys2Proof.Machine.execCmpStage k v s
  | .cmpCommit k v => Sys2Proof.Machine.execCmpCommit k v s
  | .cmpEnable k v => Sys2Proof.Machine.execCmpEnable k v s
  | .cmpStatRead a k => Sys2Proof.Machine.execCmpStatRead a k s
  | .groupLoad v => Sys2Proof.Machine.execGroupLoad v s
  | .captureEdge j rising => Sys2Proof.Machine.execCaptureEdge j rising s
  | .capRiseRead a j => Sys2Proof.Machine.execCapRiseRead a j s
  | .capFallRead a j => Sys2Proof.Machine.execCapFallRead a j s
  | .capWidthRead a j => Sys2Proof.Machine.execCapWidthRead a j s
  | .tickArm => Sys2Proof.Machine.execTickArm s
  | .tickPeriodWrite v => Sys2Proof.Machine.execTickPeriodWrite v s
  | .tickStatRead a => Sys2Proof.Machine.execTickStatRead a s
  | .wdgWarn => Sys2Proof.Machine.execWdgWarn s
  | .wdgExpire => Sys2Proof.Machine.execWdgExpire s
  | .wdgService key => Sys2Proof.Machine.execWdgService key s
  | .wdgLock v => Sys2Proof.Machine.execWdgLock v s
  | .pmuCntRead a k => Sys2Proof.Machine.execPmuCntRead a k s
  | .pmuSnapshot => Sys2Proof.Machine.execPmuSnapshot s
  | .pmuClear => Sys2Proof.Machine.execPmuClear s
  | .ringletEnable v => Sys2Proof.Machine.execRingletEnable v s
  | .ringletWrite => Sys2Proof.Machine.execRingletWrite s
  | .ringletWriteDone ok => Sys2Proof.Machine.execRingletWriteDone ok s
  | .pmuRlCntRead a => Sys2Proof.Machine.execPmuRlCntRead a s
  | .bwWindowEnd => Sys2Proof.Machine.execBwWindowEnd s
  | .pmuBwMaxRead a p => Sys2Proof.Machine.execPmuBwMaxRead a p s
  | .tapIrUpdate ir => Sys2Proof.Machine.execTapIrUpdate ir s
  | .dbgregRead off => Sys2Proof.Machine.execDbgregRead off s
  | .dbgregWrite off data => Sys2Proof.Machine.execDbgregWrite off data s
  | .dbgregStatus => Sys2Proof.Machine.execDbgregStatus s
  | .dbgregNop => Sys2Proof.Machine.execDbgregNop s
  | .dbgregCapture => Sys2Proof.Machine.execDbgregCapture s
  | .daprAccess wr off data => Sys2Proof.Machine.execDaprAccess wr off data s
  | .masterWrite v => Sys2Proof.Machine.execMasterWrite v s
  | .masterRead => Sys2Proof.Machine.execMasterRead s
  | .masterAccessDone bulk stat upsets => Sys2Proof.Machine.execMasterAccessDone bulk stat upsets s
  | .haltRequest => Sys2Proof.Machine.execHaltRequest s
  | .haltEntry c => Sys2Proof.Machine.execHaltEntry c s
  | .resume => Sys2Proof.Machine.execResume s
  | .step => Sys2Proof.Machine.execStep s
  | .msvDataWrite v => Sys2Proof.Machine.execMsvDataWrite v s
  | .podFreeze mask => Sys2Proof.Machine.execPodFreeze mask s
  | .crossTrigger c => Sys2Proof.Machine.execCrossTrigger c s
  | .vtCdataWrite a ch v => Sys2Proof.Machine.execVtCdataWrite a ch v s
  | .vtCdataRead a ch => Sys2Proof.Machine.execVtCdataRead a ch s
  | .vtDdataWrite ch v => Sys2Proof.Machine.execVtDdataWrite ch v s
  | .vtDdataRead ch => Sys2Proof.Machine.execVtDdataRead ch s
  | .authNew => Sys2Proof.Machine.execAuthNew s
  | .authVerify level => Sys2Proof.Machine.execAuthVerify level s
  | .authVerifyDone => Sys2Proof.Machine.execAuthVerifyDone s
  | .authDrop => Sys2Proof.Machine.execAuthDrop s
  | .swapStage v => Sys2Proof.Machine.execSwapStage v s
  | .bankCopyDone => Sys2Proof.Machine.execBankCopyDone s
  | .swapApply upsets => Sys2Proof.Machine.execSwapApply upsets s
  | .selftestStart pod => Sys2Proof.Machine.execSelftestStart pod s
  | .selftestDone pod ok => Sys2Proof.Machine.execSelftestDone pod ok s
  | .lockstepMismatch => Sys2Proof.Machine.execLockstepMismatch s
  | .railSample code => Sys2Proof.Machine.execRailSample code s
  | .railDataRead a => Sys2Proof.Machine.execRailDataRead a s
  | .thermalSample sensor temp => Sys2Proof.Machine.execThermalSample sensor temp s
  | .thermDataRead a => Sys2Proof.Machine.execThermDataRead a s
  | .logPop => Sys2Proof.Machine.execLogPop s
  | .imageDataWrite v => Sys2Proof.Machine.execImageDataWrite v s
  | .imageLoad => Sys2Proof.Machine.execImageLoad s
  | .entropyFail => Sys2Proof.Machine.execEntropyFail s
  | .drbgReseed => Sys2Proof.Machine.execDrbgReseed s
  | .versionAdvance a => Sys2Proof.Machine.execVersionAdvance a s
  | .secLockSet a => Sys2Proof.Machine.execSecLockSet a s
  | .secRefuseRead a => Sys2Proof.Machine.execSecRefuseRead a s
  | .auditPop a => Sys2Proof.Machine.execAuditPop a s
  | .pwrReqRun a => Sys2Proof.Machine.execPwrReqRun a s
  | .pwrReqDoze a => Sys2Proof.Machine.execPwrReqDoze a s
  | .pwrReqNap a => Sys2Proof.Machine.execPwrReqNap a s
  | .pwrReqSleep a => Sys2Proof.Machine.execPwrReqSleep a s
  | .pwrReqNone a => Sys2Proof.Machine.execPwrReqNone a s
  | .napEntryDone => Sys2Proof.Machine.execNapEntryDone s
  | .sleepEntryDone => Sys2Proof.Machine.execSleepEntryDone s
  | .napExit => Sys2Proof.Machine.execNapExit s
  | .sleepExit => Sys2Proof.Machine.execSleepExit s
  | .supplyLoss => Sys2Proof.Machine.execSupplyLoss s
  | .powerOn => Sys2Proof.Machine.execPowerOn s
  | .coldResetPin low => Sys2Proof.Machine.execColdResetPin low s
  | .warmResetPin low => Sys2Proof.Machine.execWarmResetPin low s
  | .coldResetRequest a => Sys2Proof.Machine.execColdResetRequest a s
  | .warmResetRequest a => Sys2Proof.Machine.execWarmResetRequest a s
  | .domainReset a v => Sys2Proof.Machine.execDomainReset a v s
  | .startupCheck lfOk pmhz tppm => Sys2Proof.Machine.execStartupCheck lfOk pmhz tppm s
  | .supervisorRelease m => Sys2Proof.Machine.execSupervisorRelease m s
  | .scratchInitDone => Sys2Proof.Machine.execScratchInitDone s
  | .seqRelease a => Sys2Proof.Machine.execSeqRelease a s
  | .islandPowerAck isl => Sys2Proof.Machine.execIslandPowerAck isl s
  | .islandAckTimeout isl => Sys2Proof.Machine.execIslandAckTimeout isl s
  | .selfRefreshAck n => Sys2Proof.Machine.execSelfRefreshAck n s
  | .backgroundReclaimVisit bank => Sys2Proof.Machine.execBackgroundReclaimVisit bank s
  | .badFrame l why f => Sys2Proof.Machine.execBadFrame l why f s
  | .entropyRecovery => Sys2Proof.Machine.execEntropyRecovery s
  | .secureBootFail m => Sys2Proof.Machine.execSecureBootFail m s
  | .pmuCounterOverflow n v => Sys2Proof.Machine.execPmuCounterOverflow n v s

end Sys2Proof.Machine
end

