-- ==== Sys2Proof/WellFormed.lean ====
section
/-! DEFINITION. Which commands name units, events and operands that exist: the numbers are those of the largest build, F16 (Table 0.2). -/

namespace Sys2Proof

/-- A core of F16: 36 physical sequencers, the supervisor and the Moth core. -/
def CoreId.wf : CoreId → Bool
  | .seq n => decide (n < 36)
  | .sup | .moth => true

def Agent.wf : Agent → Bool
  | .core c => c.wf
  | .host | .mgmt | .dap | .master => true

/-- An event number that a unit of F16 raises (Table 13.1): reserved numbers are none. -/
def eventNumber (e : Nat) : Bool :=
  decide (e ≤ 8) || decide (32 ≤ e ∧ e ≤ 231) || decide (240 ≤ e ∧ e ≤ 370) || decide (384 ≤ e ∧ e ≤ 391) ||
    decide (400 ≤ e ∧ e ≤ 407 ∧ e ≠ 402) || decide (416 ≤ e ∧ e ≤ 423) || decide (448 ≤ e ∧ e ≤ 511)

/-- A frame carries at most 16 payload granules (Table 12.1). -/
def Frame.wf (f : Frame) : Bool := decide (f.pay.length ≤ 16)

/-- Is the command well formed: every unit, event and length it names exists on F16? -/
def Instr.wf : Instr → Bool
  | .regWrite a addr _ => a.wf && decide (addr < 0x1010000)
  | .npxReadRequest _ _ _ _ _ => true
  | .npxWriteRequest _ _ _ len _ beats => decide (beats.length = len.toNat + 1)
  | .arbiterGrant bank _ => decide (bank < 2032)
  | .smemReadData _ => true
  | .scratchGrant _ => true
  | .scrubAccess _ => true
  | .smemInit a => a.wf
  | .initDone => true
  | .smemCeCntRead a => a.wf
  | .bmpTrain n => decide (n < 8)
  | .bmpTrainReport n _ _ _ _ _ => decide (n < 8)
  | .bmpTrainTimeout n => decide (n < 8)
  | .bmpReadBeat n _ _ _ => decide (n < 8)
  | .bmpIlvWrite _ => true
  | .bmpCpyGo n _ => decide (n < 8)
  | .bmpCpyGranuleDone n _ _ _ => decide (n < 8)
  | .bmpCpyAbort n => decide (n < 8)
  | .tickInstant => true
  | .flipRelease => true
  | .quiesceMarginStart => true
  | .allocHoldRelease => true
  | .gcmdAdmit _ => true
  | .gcmdDone _ => true
  | .gcmdDiscard _ => true
  | .gcmdNone => true
  | .sweepDone _ => true
  | .leaseTake n _ => decide (n < 4)
  | .leaseRelease n => decide (n < 4)
  | .freezeRequest => true
  | .poolCnt0Read a => a.wf
  | .allocAccept c _ => c.wf
  | .allocGrant => true
  | .streamElementIssue pod _ _ => decide (pod < 17)
  | .runEnd pod => decide (pod < 17)
  | .podAbort pod => decide (pod < 17)
  | .allocWaitRead a => a.wf
  | .lit c _ => c.wf
  | .br c _ => c.wf
  | .bz c _ => c.wf
  | .bnz c _ => c.wf
  | .call c _ => c.wf
  | .ld c _ _ => c.wf
  | .st c _ _ => c.wf
  | .ld2 c _ _ => c.wf
  | .st2 c _ _ => c.wf
  | .ldx c _ _ => c.wf
  | .stx c _ _ => c.wf
  | .ld2x c _ _ => c.wf
  | .st2x c _ _ => c.wf
  | .nop c => c.wf
  | .dup c => c.wf
  | .drop c => c.wf
  | .swap c => c.wf
  | .overOp c => c.wf
  | .rot c => c.wf
  | .nip c => c.wf
  | .tuck c => c.wf
  | .twoDup c => c.wf
  | .twoDrop c => c.wf
  | .twoSwap c => c.wf
  | .twoOver c => c.wf
  | .minusRot c => c.wf
  | .pick c _ => c.wf
  | .add c => c.wf
  | .adc c => c.wf
  | .sub c => c.wf
  | .sbc c => c.wf
  | .neg c => c.wf
  | .inc c => c.wf
  | .dec c => c.wf
  | .and c => c.wf
  | .or c => c.wf
  | .xor c => c.wf
  | .not c => c.wf
  | .shl c => c.wf
  | .shr c => c.wf
  | .sra c => c.wf
  | .rol c => c.wf
  | .shli c k => c.wf && decide (k ≠ 0)
  | .shri c k => c.wf && decide (k ≠ 0)
  | .srai c k => c.wf && decide (k ≠ 0)
  | .min c => c.wf
  | .max c => c.wf
  | .umin c => c.wf
  | .umax c => c.wf
  | .abs c => c.wf
  | .sext8 c => c.wf
  | .zext8 c => c.wf
  | .popc c => c.wf
  | .clz c => c.wf
  | .mul c => c.wf
  | .mulu c => c.wf
  | .mull c => c.wf
  | .div c => c.wf
  | .divu c => c.wf
  | .div2u c => c.wf
  | .add2 c => c.wf
  | .sub2 c => c.wf
  | .neg2 c => c.wf
  | .eq c => c.wf
  | .ne c => c.wf
  | .lt c => c.wf
  | .le c => c.wf
  | .gt c => c.wf
  | .ge c => c.wf
  | .ult c => c.wf
  | .ule c => c.wf
  | .ugt c => c.wf
  | .uge c => c.wf
  | .zeroEq c => c.wf
  | .zeroLt c => c.wf
  | .sel c => c.wf
  | .ret c => c.wf
  | .toR c => c.wf
  | .rFrom c => c.wf
  | .rFetch c => c.wf
  | .jmps c => c.wf
  | .calls c => c.wf
  | .reti c => c.wf
  | .rett c => c.wf
  | .wait c => c.wf
  | .synci c => c.wf
  | .niwo c => c.wf
  | .niwc c => c.wf
  | .fence c => c.wf
  | .loop c _ => c.wf
  | .rep c => c.wf
  | .repi c _ => c.wf
  | .flFetch c => c.wf
  | .flStore c => c.wf
  | .lcFetch c => c.wf
  | .lcStore c => c.wf
  | .lsFetch c => c.wf
  | .lsStore c => c.wf
  | .leFetch c => c.wf
  | .leStore c => c.wf
  | .rcFetch c => c.wf
  | .depth c => c.wf
  | .rdepth c => c.wf
  | .lpush c => c.wf
  | .lpop c => c.wf
  | .leave c => c.wf
  | .ctxid c => c.wf
  | .ldp c _ => c.wf
  | .stp c _ => c.wf
  | .ld2p c _ => c.wf
  | .st2p c _ => c.wf
  | .tas c _ => c.wf
  | .lr c _ => c.wf
  | .sc c _ => c.wf
  | .ldmStep c _ => c.wf
  | .stmStep c _ => c.wf
  | .cmov c _ _ => c.wf
  | .cderive c _ _ => c.wf
  | .cseal c _ _ => c.wf
  | .cunseal c _ _ => c.wf
  | .cbase c _ => c.wf
  | .clen c _ => c.wf
  | .cperm c _ => c.wf
  | .cattr c _ => c.wf
  | .cowner c _ => c.wf
  | .ctag c _ => c.wf
  | .cclr c _ => c.wf
  | .cprior c _ => c.wf
  | .cskey c _ => c.wf
  | .cldc c _ _ => c.wf
  | .cstc c _ _ => c.wf
  | .sev c _ => c.wf
  | .lith c _ => c.wf
  | .trap c _ _ => c.wf
  | .vissue c _ => c.wf
  | .vwait c => c.wf
  | .vresume c => c.wf
  | .vtest c => c.wf
  | .vprFetch c => c.wf
  | .vprStore c => c.wf
  | .undefinedWord c _ => c.wf
  | .spillTrap c _ => c.wf
  | .fillTrap c _ => c.wf
  | .interruptRecognise c => c.wf
  | .faultEntry c => c.wf
  | .niwExpiry c => c.wf
  | .budgetExhausted c => c.wf
  | .quantumExpiry c => c.wf
  | .contextDispatch c => c.wf
  | .contextEvict c _ => c.wf
  | .contextLoad c _ => c.wf
  | .ctxLoad n _ => decide (n < 32)
  | .ctxWake n _ => decide (n < 32)
  | .ctxPark n _ => decide (n < 32)
  | .ctxFree n _ => decide (n < 32)
  | .ctxSetbud n _ => decide (n < 32)
  | .ctxCmdNone n _ => decide (n < 32)
  | .ctxDataWrite n _ => decide (n < 32)
  | .svwDataWrite c _ => c.wf
  | .mint a => a.wf
  | .mintCopy a _ => a.wf
  | .mintDone => true
  | .splitEnApply c => c.wf
  | .detSwitch c => c.wf
  | .lineRequest c _ => c.wf
  | .lineDelivered c _ _ _ => c.wf
  | .codeLineWrite a => a.wf
  | .codeWriteDone _ => true
  | .lcInvalidate a => a.wf
  | .seqDetRead a c _ => a.wf && c.wf
  | .seqExcCntRead a c => a.wf && c.wf
  | .hifEnable => true
  | .ringEnable n _ => decide (n < 64)
  | .ringDisable n => decide (n < 64)
  | .doorbellSqtail n _ => decide (n < 64)
  | .doorbellCqhead n _ => decide (n < 64)
  | .inlineDoorbell n _ => decide (n < 64)
  | .descriptorFetch => true
  | .descriptorReadDone n _ _ => decide (n < 64)
  | .postRecord _ => true
  | .completionRecordWrite n => decide (n < 64)
  | .recordWriteResponse n _ => decide (n < 256)
  | .broadcastWrite a _ _ => a.wf
  | .wrFrame l f _ => decide (l < 4) && f.wf
  | .rdFrame l f _ => decide (l < 4) && f.wf
  | .wrackFrame l f => decide (l < 4) && f.wf
  | .rdrFrame l f _ => decide (l < 4) && f.wf
  | .frameForward l f => decide (l < 4) && f.wf
  | .frameSend l _ => decide (l < 4)
  | .linkFrame l f => decide (l < 4) && f.wf
  | .capxFrame l f => decide (l < 4) && f.wf
  | .discFrame l f => decide (l < 4) && f.wf
  | .joinFrame l f => decide (l < 4) && f.wf
  | .assignFrame l f => decide (l < 4) && f.wf
  | .tsyncFrame l f => decide (l < 4) && f.wf
  | .tsyncExchange l => decide (l < 4)
  | .slewCorrection => true
  | .discoveryStart => true
  | .discSend => true
  | .joinSend => true
  | .monarchAssign => true
  | .linkDown l => decide (l.1 < 4) && l.2.all (fun v => decide (v.toNat < 5))
  | .linkTrainStart l => decide (l < 4)
  | .linkTrained l _ => decide (l < 4)
  | .linkRetrain l => decide (l < 4)
  | .linkAuthTimeout l => decide (l < 4)
  | .laneMarginLow l _ _ => decide (l < 4)
  | .txGo ch _ => decide (ch < 4)
  | .txFrameIssue ch _ => decide (ch < 4)
  | .txFrameTimeout ch _ => decide (ch < 4)
  | .txAbort ch => decide (ch < 4)
  | .linkCntRead a l => a.wf && decide (l < 4)
  | .eventPending e => eventNumber e
  | .moderationTimeout e => eventNumber e
  | .evcClaim a t => a.wf && decide (t < 34)
  | .evcDone a t _ => a.wf && decide (t < 34)
  | .evcPush a t _ => a.wf && decide (t < 34)
  | .evcSrcClear => true
  | .evcSwev _ => true
  | .mothWake _ => true
  | .mclkStable => true
  | .mgmtWrite _ => true
  | .tbLoad => true
  | .compareMatch k => decide (k < 32)
  | .cmpStage k _ => decide (k < 32)
  | .cmpCommit k _ => decide (k < 32)
  | .cmpEnable k _ => decide (k < 32)
  | .cmpStatRead a k => a.wf && decide (k < 32)
  | .groupLoad _ => true
  | .captureEdge j _ => decide (j < 16)
  | .capRiseRead a j => a.wf && decide (j < 16)
  | .capFallRead a j => a.wf && decide (j < 16)
  | .capWidthRead a j => a.wf && decide (j < 16)
  | .tickArm => true
  | .tickPeriodWrite _ => true
  | .tickStatRead a => a.wf
  | .wdgWarn => true
  | .wdgExpire => true
  | .wdgService _ => true
  | .wdgLock _ => true
  | .pmuCntRead a k => a.wf && decide (k < 256)
  | .pmuSnapshot => true
  | .pmuClear => true
  | .ringletEnable _ => true
  | .ringletWrite => true
  | .ringletWriteDone _ => true
  | .pmuRlCntRead a => a.wf
  | .bwWindowEnd => true
  | .pmuBwMaxRead a p => a.wf && decide (p < 20)
  | .tapIrUpdate _ => true
  | .dbgregRead _ => true
  | .dbgregWrite _ _ => true
  | .dbgregStatus => true
  | .dbgregNop => true
  | .dbgregCapture => true
  | .daprAccess _ _ _ => true
  | .masterWrite _ => true
  | .masterRead => true
  | .masterAccessDone _ _ _ => true
  | .haltRequest => true
  | .haltEntry c => c.wf
  | .resume => true
  | .step => true
  | .msvDataWrite _ => true
  | .podFreeze _ => true
  | .crossTrigger c => c.wf
  | .vtCdataWrite a ch _ => a.wf && decide (ch < 4)
  | .vtCdataRead a ch => a.wf && decide (ch < 4)
  | .vtDdataWrite ch _ => decide (ch < 4)
  | .vtDdataRead ch => decide (ch < 4)
  | .authNew => true
  | .authVerify _ => true
  | .authVerifyDone => true
  | .authDrop => true
  | .swapStage _ => true
  | .bankCopyDone => true
  | .swapApply _ => true
  | .selftestStart pod => decide (pod < 17)
  | .selftestDone pod _ => decide (pod < 17)
  | .lockstepMismatch => true
  | .railSample _ => true
  | .railDataRead a => a.wf
  | .thermalSample _ _ => true
  | .thermDataRead a => a.wf
  | .logPop => true
  | .imageDataWrite _ => true
  | .imageLoad => true
  | .entropyFail => true
  | .drbgReseed => true
  | .versionAdvance a => a.wf
  | .secLockSet a => a.wf
  | .secRefuseRead a => a.wf
  | .auditPop a => a.wf
  | .pwrReqRun a => a.wf
  | .pwrReqDoze a => a.wf
  | .pwrReqNap a => a.wf
  | .pwrReqSleep a => a.wf
  | .pwrReqNone a => a.wf
  | .napEntryDone => true
  | .sleepEntryDone => true
  | .napExit => true
  | .sleepExit => true
  | .supplyLoss => true
  | .powerOn => true
  | .coldResetPin _ => true
  | .warmResetPin _ => true
  | .coldResetRequest a => a.wf
  | .warmResetRequest a => a.wf
  | .domainReset a _ => a.wf
  | .startupCheck _ _ _ => true
  | .supervisorRelease _ => true
  | .scratchInitDone => true
  | .seqRelease a => a.wf
  | .islandPowerAck i => decide (i.toNat < 41)
  | .islandAckTimeout i => decide (i.toNat < 41)
  | .selfRefreshAck n => decide (n < 8)
  | .backgroundReclaimVisit bank => decide (bank < 2032)
  | .badFrame l _ f => decide (l < 4) && f.wf
  | .entropyRecovery => true
  | .secureBootFail _ => true
  | .pmuCounterOverflow n _ => decide (n < 256)

end Sys2Proof
end

