-- ==== Sys2Proof/Safety.lean ====
section
/-! DEFINITION. The terms in which statements about the block are made: what a core must be like for an instruction to run on it, what an
instruction leaves of the level it runs on, what stays as it was, and the properties that every state of a run has. -/

namespace Sys2Proof.Machine

/-! ### Properties of a state -/

/-- A byte store in its canonical form: addresses strictly rising, no entry 0, which an unlisted byte reads as. -/
def Memory.wf (t : List Host.Cell) : Bool := Tbl.wf 0 t

/-- Stream memory and local scratch are in canonical form. -/
def State.memWf (s : State) : Prop := Memory.wf s.mem.bytes = true ∧ Memory.wf s.scr.bytes = true

/-- A level's frame lies within its stack bank (Table 6.6). -/
def View.bounded (v : View) : Prop :=
  v.base ≤ v.bank.opd ∧ v.bank.opd ≤ v.ocap ∧ v.rbase ≤ v.bank.rtd ∧ v.bank.rtd ≤ v.rcap

/-- Every core's running level lies within its stack bank. -/
def State.stacksBounded (s : State) : Prop := ∀ c v, s.view c = some v → v.bounded

/-! ### A core that can take an instruction -/

/-- Core `c` runs level `v` and can take an instruction: it exists, is clocked and in its mode, is neither halted nor waiting, no access in flight
blocks it, no breakpoint matches, its fetch succeeds and it holds the word, and its level is one of 0 to 12 (Table 9.4). -/
def State.ready (s : State) (c : CoreId) (v : View) : Prop :=
  coreBuilt s.build c = true ∧ s.view c = some v ∧ (s.core c).canIssue = true ∧ s.mayIssue c = true ∧
    (s.core c).breakpoint v.regs = none ∧ s.fetchFault c v.regs.pc = none ∧ s.fetched c v.regs = true ∧ (s.core c).level.toNat ≤ 12

/-- Level `v` of core `c` holds what an instruction takes and has room for what it leaves: `p` cells and `rp` return entries taken, `q`
and `rq` left; and no cell it takes is pending. -/
def State.takes (s : State) (c : CoreId) (v : View) (p q rp rq : Nat) : Prop :=
  p ≤ v.depth ∧ rp ≤ v.rdepth ∧ v.bank.opd + q ≤ v.ocap + p ∧ v.bank.rtd + rq ≤ v.rcap + rp ∧
    (s.core c).pendingTop v.bank.opd p = false

/-- No REP prefix is in force: the count is 0 and no prefix stands before this instruction. -/
def State.noRep (s : State) (c : CoreId) (v : View) : Prop := v.regs.rc = 0 ∧ (s.core c).rep = none

/-- A REP target runs with a count that is not 0 (R214). -/
def State.repCounts (s : State) (c : CoreId) (v : View) : Prop := v.regs.rc = 0 → (s.core c).rep = none

/-! ### What an instruction leaves -/

/-- Level `v'` has the operand stack of `v` with the top `p` cells replaced by `out`, pushed left to right. -/
def View.cleaves (v v' : View) (p : Nat) (out : List Word) : Prop :=
  v'.bank.opd = v.bank.opd - p + out.length ∧
    (∀ i, i < v.bank.opd - p → Tbl.get 0 i v'.bank.cells = Tbl.get 0 i v.bank.cells) ∧
    (∀ i, i < out.length → Tbl.get 0 (v.bank.opd - p + i) v'.bank.cells = out.getD i 0)

/-- Level `v'` has the return stack of `v` with the top `p` entries replaced by `out`, pushed left to right. -/
def View.rleaves (v v' : View) (p : Nat) (out : List PC) : Prop :=
  v'.bank.rtd = v.bank.rtd - p + out.length ∧
    (∀ i, i < v.bank.rtd - p → Tbl.get 0 i v'.bank.rets = Tbl.get 0 i v.bank.rets) ∧
    (∀ i, i < out.length → Tbl.get 0 (v.bank.rtd - p + i) v'.bank.rets = out.getD i 0)

/-- The stacks of `v` with the top `p` cells replaced by `out`, pushed left to right, and every return entry as it was. -/
def View.leaves (v v' : View) (p : Nat) (out : List Word) : Prop :=
  v.cleaves v' p out ∧ v'.bank.rtd = v.bank.rtd ∧ v'.bank.rets = v.bank.rets

/-- `s` with the line that core `c` executes in its place in the fetch buffer (R274). -/
def State.entered (s : State) (c : CoreId) : State :=
  match s.view c with
  | some v => enterLine c v.regs.pc s
  | none => s

/-- What an issue ends on core `c`, as the frames below leave it: the REP prefix, a step, the wait for a context's first instruction; the line it
lies in stands in the fetch buffer; an instruction without an access follows the accesses in flight (R264); a halt may be requested. `t` is the
core after the instruction. -/
def State.spent (s : State) (c : CoreId) (t : Core) : Core :=
  { (s.entered c).core c with
    rep := none, skipBp := false, stepping := false, fresh := false, flight := followed (s.core c).flight, after := t.after, haltReq := t.haltReq }

/-- The frame of an instruction that changes the running level of core `c` alone: of the core only the level's registers and bank, and what an
issue ends, with `buf` also the branch-target buffer and the loop buffer; of its live context the same; a PMU occurrence; everything else in
the block as it was. -/
def State.onlyLevel (s t : State) (c : CoreId) (buf : Bool) : Prop :=
  t = { s with cores := t.cores, ctxs := t.ctxs, pmu := { s.pmu with now := t.pmu.now } } ∧
    (∀ k, k ≠ coreKey c → t.coreAt k = s.coreAt k) ∧
    t.core c = { s.spent c (t.core c) with
      hr := (t.core c).hr, sbh := (t.core c).sbh, btb := if buf then (t.core c).btb else (s.core c).btb,
      quick := if buf then (t.core c).quick else (s.core c).quick, loopBuf := if buf then (t.core c).loopBuf else (s.core c).loopBuf } ∧
    (∀ k, s.liveKey c ≠ some k → t.ctxAt k = s.ctxAt k) ∧
    (∀ k, t.ctxAt k = { s.ctxAt k with r := (t.ctxAt k).r, bank := (t.ctxAt k).bank })

/-- The frame of an instruction that changes the running level of core `c` and its capability registers alone. -/
def State.onlyCaps (s t : State) (c : CoreId) : Prop :=
  t = { s with cores := t.cores, ctxs := t.ctxs, pmu := { s.pmu with now := t.pmu.now } } ∧
    (∀ k, k ≠ coreKey c → t.coreAt k = s.coreAt k) ∧
    t.core c = { s.spent c (t.core c) with hr := (t.core c).hr, sbh := (t.core c).sbh, cs := (t.core c).cs } ∧
    (∀ k, s.liveKey c ≠ some k → t.ctxAt k = s.ctxAt k) ∧
    (∀ k, t.ctxAt k = { s.ctxAt k with r := (t.ctxAt k).r, bank := (t.ctxAt k).bank, caps := (t.ctxAt k).caps })

/-- From `s` to `t`, of C0 to C7 of core `c`'s running level only register `r` changed, and it holds `x`. -/
def State.capBecame (s t : State) (c : CoreId) (r : BitVec 3) (x : Cap) : Prop :=
  t.capReg c r.toNat = x ∧ ∀ j : BitVec 3, j ≠ r → t.capReg c j.toNat = s.capReg c j.toNat

/-- The frame of what core `c` does to itself: its own state, the context live on it, and the PMU's count; no other core, no other context and
nothing else of the block. -/
def State.onlyCore (s t : State) (c : CoreId) : Prop :=
  t = { s with cores := t.cores, ctxs := t.ctxs, pmu := { s.pmu with now := t.pmu.now } } ∧
    (∀ k, k ≠ coreKey c → t.coreAt k = s.coreAt k) ∧ (∀ k, s.liveKey c ≠ some k → t.ctxAt k = s.ctxAt k)

/-- Core `c` is ready, outside REP, with nothing in flight. -/
def State.still (s : State) (c : CoreId) (v : View) : Prop := s.ready c v ∧ s.noRep c v ∧ (s.core c).flight = []

/-- Instruction `i` takes `p` cells, leaves the cells and flags of `f`, and goes on at the next address (or at the loop start, or at itself
under REP); it completes on every core and level that has its cells and room, changing the level alone. -/
def Completes (i : CoreId → Instr) (p q : Nat) (f : View → List Word × Flags) : Prop :=
  ∀ (s : State) (c : CoreId) (v : View), s.ready c v → s.takes c v p q 0 0 → s.repCounts c v →
    ∃ t v', exec (i c) s = .next t ∧ t.view c = some v' ∧ v.leaves v' p (f v).1 ∧ (f v).1.length = q ∧
      v'.regs = ({ v.regs with fl := (f v).2 } : Regs).complete none ∧ s.onlyLevel t c false

/-- The same for an instruction that is no REP target: it takes `p` cells and `rp` return entries, leaves the cells of `f` and the return
entries of `g`, and its registers end as `h` gives them. -/
def CompletesPlain (i : CoreId → Instr) (p q rp rq : Nat) (f : View → List Word) (g : View → List PC) (h : View → Regs)
    (buf : Bool) : Prop :=
  ∀ (s : State) (c : CoreId) (v : View), s.ready c v → s.takes c v p q rp rq → s.noRep c v →
    ∃ t v', exec (i c) s = .next t ∧ t.view c = some v' ∧ v.cleaves v' p (f v) ∧ (f v).length = q ∧ v.rleaves v' rp (g v) ∧
      (g v).length = rq ∧ v'.regs = h v ∧ s.onlyLevel t c buf

/-! ### Accesses of the memory instructions -/

/-- From `s` to `t`, core `c` has asked for word `w` through capability `cap` for its access `tok`: a request in stream memory's queue (held while
a flip concerns it), or in the queue of a scratch array or the Moth RAM; the other queue is as it was. -/
def State.asked (s t : State) (c : CoreId) (tok : Nat) (cap : Cap) (w : Nat) (kind : Kind) : Prop :=
  if s.region c w = .stream then
    let a : Access := { dest := .core c tok, port := corePort c, gran := w / 8, view := cap.view, group := cap.group,
                        owner := ownerTag c cap, kind := kind }
    t.scr = s.scr ∧
      t.arb = if s.holds a then { s.arb with held := s.arb.held ++ [a] }
        else { s.arb with reqs := s.arb.reqs ++ [{ id := s.arb.nextId, acc := a, age := 0, urgent := none, pre := none }],
                          nextId := s.arb.nextId + 1 }
  else t.arb = s.arb ∧ t.scr = { s.scr with
    reqs := s.scr.reqs ++ [{ id := s.scr.nextId, core := c, tok := tok, addr := BitVec.ofNat 40 w, kind := kind }],
    nextId := s.scr.nextId + 1 }

/-- From `s` to `t`, core `c` has the access `kind` to word `w` in flight as its youngest, with the level `v` to return to; nothing has been
written anywhere. -/
def State.launched (s t : State) (c : CoreId) (v : View) (kind : FKind) (cap : Cap) (w : Nat) : Prop :=
  (t.core c).flight = (s.core c).flight ++ [{ tok := (s.core c).tok, kind := kind, addr := BitVec.ofNat 40 w, cap := cap, regs := v.regs,
                                              bank := v.bank, fail := none, done := false, got := none, young := 0,
                                              since := s.clk.pclk }] ∧
    t = { s with cores := t.cores, ctxs := t.ctxs, arb := t.arb, scr := t.scr } ∧ t.scr.bytes = s.scr.bytes ∧ t.scr.tags = s.scr.tags ∧
    (∀ k, k ≠ coreKey c → t.coreAt k = s.coreAt k) ∧ (∀ k, s.liveKey c ≠ some k → t.ctxAt k = s.ctxAt k)

/-- Is the access of core `c` at word `w` served by a queue: stream memory, local scratch, or the Moth core's RAM? -/
def State.queued (s : State) (c : CoreId) (w : Nat) : Prop :=
  s.region c w = .stream ∨ s.region c w = .scratch ∨ s.region c w = .moth

/-- Load `i` through register `r` takes `p` cells, from which `off` forms the offset, and loads `n` words: when the checks of R195 pass, its
request leaves, its `n` result cells are pushed pending, and the instructions after it go on; when one fails, that fault is marked and
nothing else changes. A pair at an odd address proceeds as the split access of R202. -/
def LoadLaunches (i : CoreId → Instr) (r : BitVec 3) (p n : Nat) (off : View → Nat) : Prop :=
  ∀ (s : State) (c : CoreId) (v : View), s.ready c v → s.takes c v p n 0 0 → s.repCounts c v →
    let k := s.core c
    let cap := s.capReg c r.toNat
    let w := cap.base + off v
    (∀ f, s.checkAccess c cap (off v) n false = some f →
      exec (i c) s = .next ((s.entered c).setCore c { (s.entered c).core c with fault := some f })) ∧
    (s.checkAccess c cap (off v) n false = none → s.queued c w → k.storePending w = false → k.storePending (w + n - 1) = false →
      k.loads < 8 → ∃ t v', exec (i c) s = .next t ∧ t.view c = some v' ∧ v'.regs = v.regs.complete none ∧
        v.leaves v' p (List.replicate n 0) ∧ s.asked t c k.tok cap w .read ∧
        s.launched t c v (if s.splits c cap w n then .split (v.bank.opd - p) true false 0 else .load (v.bank.opd - p) n) cap w)

/-- Store `i` through register `r` takes `p` cells, stores the words `ws` at the offset `off` forms: when the checks pass, its request leaves
with the data in its word lanes (for a split access, the lower word first); when one fails, that fault is marked alone. -/
def StoreLaunches (i : CoreId → Instr) (r : BitVec 3) (p : Nat) (ws : View → List Word) (off : View → Nat) : Prop :=
  ∀ (s : State) (c : CoreId) (v : View), s.ready c v → s.takes c v p 0 0 0 → s.repCounts c v → (s.core c).flight = [] →
    let k := s.core c
    let cap := s.capReg c r.toNat
    let w := cap.base + off v
    let n := (ws v).length
    (∀ f, s.checkAccess c cap (off v) n true = some f →
      exec (i c) s = .next ((s.entered c).setCore c { (s.entered c).core c with fault := some f })) ∧
    (s.checkAccess c cap (off v) n true = none → s.queued c w →
      ∃ t v', exec (i c) s = .next t ∧ t.view c = some v' ∧ v'.regs = v.regs.complete none ∧ v.leaves v' p [] ∧
        (if s.splits c cap w n then
          s.asked t c k.tok cap w (.write (wordData w ((ws v).getD 0 0)) (wordBe w) false) ∧
            s.launched t c v (.split 0 false false ((ws v).getD 1 0)) cap w
        else s.asked t c k.tok cap w (if n = 2 then .write (pairData w ((ws v).getD 1 0 ++ (ws v).getD 0 0)) (pairBe w) false
            else .write (wordData w ((ws v).getD 0 0)) (wordBe w) false) ∧ s.launched t c v .store cap w))

/-! ### Commands outside the cores -/

/-- The block has its supply, is in RUN or DOZE, and every island is powered: every unit answers (Table 19.3). -/
def State.runs (s : State) : Prop := s.crp.live = true ∧ s.awake = true ∧ s.crp.islandOff = []

/-- Every register but those at the offsets `os` is as it was. -/
def State.onlyRegs (s t : State) (os : List Nat) : Prop := ∀ o, o ∉ os → t.reg o = s.reg o

/-- From `s` to `t` the events `l` were raised at the present TB, in that order, and a watched one will wake the Moth core; nothing else of the
event controller changed (R407, R424). -/
def State.raises (s t : State) (l : List Nat) : Prop :=
  t.evc = { s.evc with raised := s.evc.raised ++ l.map (fun e => (e, s.clk.tb)),
                       wakes := s.evc.wakes ++ l.filter (fun e => decide (e < 32) && decide (bitsOf (s.reg MOTH_WATCH).toNat e 1 = 1)) }

/-- Agent `a` exists, can make an access now, and the checks of its port let this one pass (Table 9.3). -/
def State.allows (s : State) (a : Agent) (wr : Bool) (off : Nat) : Prop :=
  agentBuilt s.build a = true ∧ s.agentOn a = true ∧ s.gate a wr off = .pass

/-- Agent `a` can write the register at `off`; no priority-stack fault of its own is left to take. -/
def State.writes (s : State) (a : Agent) (off : Nat) : Prop :=
  s.allows a true off ∧ ∀ c, a = .core c → (s.core c).pstkFault = none

/-- Agent `a` can read the register at `off`, and not quietly (R22). -/
def State.reads (s : State) (a : Agent) (off : Nat) : Prop :=
  s.allows a false off ∧ (a = .master → s.on DBG_MCTL_QUIET = false)

/-- From `s` to `t` agent `a` received `v` for its read of the register at `off`. -/
def State.answered (s t : State) (a : Agent) (off : Nat) (v : Reg) : Prop :=
  t.replies = s.replies ++ [{ agent := a, off := off, data := some v }]

/-- A read by agent `a` answered the register at `off` and cleared its bits `mask`; nothing else changed. -/
def State.readCleared (s t : State) (a : Agent) (off : Nat) (mask : Reg) : Prop :=
  s.answered t a off (s.reg off) ∧ t.reg off = s.reg off &&& ~~~mask ∧ s.onlyRegs t [off] ∧
    t = { s with regs := t.regs, replies := t.replies }

/-- From `u` to `t` the `n` accesses `acc` to stream memory were performed one after another with the results `res`, the soft errors `us` striking
the bank of each before it; between them only arbiters and counts changed. -/
def State.performs (u t : State) (us : List Upset) (acc : Nat → Access) (res : Nat → MemRes) (n : Nat) : Prop :=
  ∃ z : Nat → State, z 0 = u ∧ t.mem = (z n).mem ∧ t.epc = (z n).epc ∧ ∀ i, i < n → ∃ y, y = { z i with arb := y.arb, pmu := y.pmu } ∧
    perform (acc i) (strike (bankOf u.build (acc i).gran) us y) = (res i, z (i + 1))

/-- Nothing waits in stream memory, and its accesses are not held: each is granted as it arrives (R50). -/
def State.memIdle (s : State) : Prop :=
  s.epc.flip = none ∧ s.mem.init = none ∧ s.arb.reqs = [] ∧ s.arb.held = [] ∧ s.arb.ended = []

/-- The target register of a mint: a capability register of a context, of a handler set, or GTC. -/
def State.mintReg (s : State) (t : MintTarget) : Cap :=
  if t.kind = 0 then Tbl.get Cap.null t.reg (s.ctxAt (s.mintKey t)).caps
  else if t.kind = 1 then Tbl.get Cap.null (8 * t.set + t.reg) (s.core t.core).cs else (s.core t.core).gtc

/-- From `s` to `t` compare channel `k` fired: MATCH is set, the pin follows ACT, the events CFG names are raised, and with PER not 0, CMP moves
the least number of periods past TB, those it missed counted with LATE (R436, R437, Table 14.1). -/
def State.fired (s t : State) (k : Nat) : Prop :=
  let per := (s.reg (TBU_CMP_PER k)).toNat
  let c := s.cmp k
  let m := if per = 0 then 0 else (s.clk.tb.toNat - c.toNat) / per
  t.on (TBU_CMP_STAT_MATCH k) = true ∧
    t.fld (TBU_CMP_STAT_PIN k) = (match s.fld (TBU_CMP_CFG_ACT k) with
      | 1 => 0
      | 2 => 1
      | 3 => 1 - s.fld (TBU_CMP_STAT_PIN k)
      | 4 => s.fld (TBU_CMP_CFG_IDLE k)
      | _ => s.fld (TBU_CMP_STAT_PIN k)) ∧
    t.cmp k = (if per = 0 then c else c + BitVec.ofNat 64 (per * (1 + m))) ∧
    t.fld (TBU_CMP_STAT_MISS k) = min (s.fld (TBU_CMP_STAT_MISS k) + m) 0xFFFF ∧ (0 < m → t.on (TBU_CMP_STAT_LATE k) = true) ∧
    s.raises t ((if s.on (TBU_CMP_CFG_EV k) then [32 + s.fld (TBU_CMP_CFG_EVN k)] else []) ++
      (if s.on (TBU_CMP_CFG_WAKE k) then [8] else [])) ∧
    s.onlyRegs t [TBU_CMP_STAT k, TBU_CMP_LO k, TBU_CMP_HI k] ∧ Tbl.get false k t.clk.cmpDone = true ∧
    t = { s with regs := t.regs, evc := t.evc, clk := { s.clk with cmpDone := t.clk.cmpDone } }

/-! ### REP targets (Table 7.16) -/

/-- Is the instruction a legal target of REP? -/
def repTarget : Instr → Bool
  | .lit .. | .lith .. | .nop _ | .dup _ | .drop _ | .swap _ | .overOp _ | .rot _ | .nip _ | .tuck _ | .twoDup _ | .twoDrop _ | .twoSwap _
  | .twoOver _ | .minusRot _ | .pick .. | .add _ | .adc _ | .sub _ | .sbc _ | .neg _ | .inc _ | .dec _ | .and _ | .or _ | .xor _ | .not _
  | .shl _ | .shr _ | .sra _ | .rol _ | .shli .. | .shri .. | .srai .. | .min _ | .max _ | .umin _ | .umax _ | .abs _ | .sext8 _ | .zext8 _
  | .popc _ | .clz _ | .mul _ | .mulu _ | .mull _ | .div _ | .divu _ | .div2u _ | .add2 _ | .sub2 _ | .neg2 _ | .eq _ | .ne _ | .lt _
  | .le _ | .gt _ | .ge _ | .ult _ | .ule _ | .ugt _ | .uge _ | .zeroEq _ | .zeroLt _ | .sel _ | .ld .. | .st .. | .ld2 .. | .st2 ..
  | .ldx .. | .stx .. | .ld2x .. | .st2x .. | .ldp .. | .stp .. | .ld2p .. | .st2p .. => true
  | _ => false

/-- An instruction as its program word spells it: without the soft errors that strike what it reads. -/
def bare : Instr → Instr
  | .trap c n _ => .trap c n []
  | i => i

/-! ### Arithmetic, as the tables of chapter 07 state it -/

/-- Flags of a 16-bit result `r`, with C and V as given (R225, Table 7.1). -/
def Flags.of16 (r : Word) (c v : Bool) : Flags := { z := decide (r.toNat = 0), s := decide (r.toInt < 0), c := c, v := v }

/-- Flags of a 32-bit result. -/
def Flags.of32 (r : BitVec 32) (c v : Bool) : Flags := { z := decide (r.toNat = 0), s := decide (r.toInt < 0), c := c, v := v }

/-- Does an exact signed result fall outside `w` bits? -/
def outside (w : Nat) (x : Int) : Bool := decide (x < -2 ^ (w - 1) ∨ 2 ^ (w - 1) ≤ x)

/-- The 32-bit value of a pair, its first cell the low half (R192). -/
def pair32 (lo hi : Word) : BitVec 32 := BitVec.ofNat 32 (lo.toNat + 65536 * hi.toNat)

/-- A 32-bit value as cells, low half first. -/
def cells32 (r : BitVec 32) : List Word := [BitVec.ofNat 16 r.toNat, BitVec.ofNat 16 (r.toNat / 65536)]

end Sys2Proof.Machine
end

