-- ==== Sys2Proof/Certificates/Slice0/Obligations.lean ====
section
/-! DEFINITION. The statements for the provers. Each docstring names the rules or sections of the spec that its statement formalises. -/

open Sys2Proof Sys2Proof.Machine

/-! ### The block as a whole -/

/-- A step takes the command at the front of the queue and answers what `exec` answers on the state with the queue's rest.
Model's choice: assumption 3. -/
def Obligations.StepRunsFrontCommand : Prop :=
  ∀ (i : Instr) (s : State) (rest : List Instr), s.pending = i :: rest → step s = exec i { s with pending := rest }

/-- Every command, with whatever operands, is answered by a next state: none is refused and none stops the block (R15, Table 0.2).
Model's choice: assumptions 1, 7. -/
def Obligations.EveryCommandAnswers : Prop :=
  ∀ (i : Instr) (s : State), ∃ t, exec i s = .next t

/-! ### Program words (Tables 7.1 to 7.22) -/

/-- Every well-formed instruction of a Sprin core decodes from its own word, on its core, with every operand.

No two words spell one instruction and no bit of a word is dropped: a word that decodes is the encoding of what it decodes to. -/
def Obligations.SprinRoundTrips : Prop :=
  (∀ (i : Instr) (c : CoreId) (w : BitVec 14), i.wf = true → sprinCore i = some c → sprinEncode i = some w → sprinDecode c w = some (bare i)) ∧
  (∀ (c : CoreId) (w : BitVec 14) (i : Instr), sprinDecode c w = some i → sprinEncode i = some w ∧ sprinCore i = some c ∧ bare i = i)

/-- 13,866 of the 16,384 words are defined (Table 7.5), and words written out from the tables spell the instructions of their rows. -/
def Obligations.SprinDefinedWords : Prop :=
  ∀ c : CoreId, ((List.range 16384).countP fun w => (sprinDecode c (BitVec.ofNat 14 w)).isSome) = 13866 ∧
    sprinDecode c 0b00_1000_0000_0001 = some (.lit c 0x801) ∧ sprinDecode c 0b01_0111_1111_1111 = some (.bz c 0x3FF) ∧
    sprinDecode c 0b10_1011_0110_0101 = some (.ld2x c 5 0x25) ∧ sprinDecode c 0b11_0001_0000_1101 = some (.shr c) ∧
    sprinDecode c 0b11_0111_0011_0110 = some (.sc c 6) ∧ sprinDecode c 0b11_1000_0101_0011 = some (.cderive c 2 3) ∧
    sprinDecode c 0b11_1101_1000_0111 = some (.stmStep c 7) ∧ sprinDecode c 0b11_1111_1010_1010 = some (.trap c 0xAA []) ∧
    sprinDecode c 0b11_0001_0010_0000 = none ∧ sprinDecode c 0b11_1110_0000_0000 = none

/-! ### Sprin: literals, stack and arithmetic (chapter 07) -/

/-- LIT, LITH and the stack group complete with the stack effects of R227 and Tables 7.6 and 7.22; FL is unchanged. -/
def Obligations.StackGroupEffects : Prop :=
  (∀ x, Completes (fun c => .lit c x) 0 1 (fun v => ([x.signExtend 16], v.regs.fl))) ∧
  (∀ n, Completes (fun c => .lith c n) 1 1 (fun v => ([BitVec.ofNat 16 (n.toNat * 256 + (v.cell 0).toNat % 256)], v.regs.fl))) ∧
  Completes .nop 0 0 (fun v => ([], v.regs.fl)) ∧
  Completes .dup 1 2 (fun v => ([v.cell 0, v.cell 0], v.regs.fl)) ∧
  Completes .drop 1 0 (fun v => ([], v.regs.fl)) ∧
  Completes .swap 2 2 (fun v => ([v.cell 0, v.cell 1], v.regs.fl)) ∧
  Completes .overOp 2 3 (fun v => ([v.cell 1, v.cell 0, v.cell 1], v.regs.fl)) ∧
  Completes .rot 3 3 (fun v => ([v.cell 1, v.cell 0, v.cell 2], v.regs.fl)) ∧
  Completes .nip 2 1 (fun v => ([v.cell 0], v.regs.fl)) ∧
  Completes .tuck 2 3 (fun v => ([v.cell 0, v.cell 1, v.cell 0], v.regs.fl)) ∧
  Completes .twoDup 2 4 (fun v => ([v.cell 1, v.cell 0, v.cell 1, v.cell 0], v.regs.fl)) ∧
  Completes .twoDrop 2 0 (fun v => ([], v.regs.fl)) ∧
  Completes .twoSwap 4 4 (fun v => ([v.cell 1, v.cell 0, v.cell 3, v.cell 2], v.regs.fl)) ∧
  Completes .twoOver 4 6 (fun v => ([v.cell 3, v.cell 2, v.cell 1, v.cell 0, v.cell 3, v.cell 2], v.regs.fl)) ∧
  Completes .minusRot 3 3 (fun v => ([v.cell 0, v.cell 2, v.cell 1], v.regs.fl)) ∧
  (∀ k : BitVec 3, Completes (fun c => .pick c k) (k.toNat + 1) (k.toNat + 2)
    (fun v => ((List.range (k.toNat + 1)).map (fun i => v.cell (k.toNat - i)) ++ [v.cell k.toNat], v.regs.fl)))

/-- ADD, ADC, SUB, SBC, NEG, INC and DEC: 16-bit results with C the carry out or the borrow and V signed overflow (R231, Table 7.7).

A comparison pushes 0xFFFF when its relation holds and 0x0000 otherwise and leaves FL; SEL pushes a when f is not 0, b otherwise
(R234, Table 7.9). -/
def Obligations.SumsAndComparisons : Prop :=
  (Completes .add 2 1 (fun v => let a := v.cell 1; let b := v.cell 0; let r := BitVec.ofNat 16 (a.toNat + b.toNat)
    ([r], Flags.of16 r (decide (65536 ≤ a.toNat + b.toNat)) (outside 16 (a.toInt + b.toInt)))) ∧
  Completes .adc 2 1 (fun v => let a := v.cell 1; let b := v.cell 0; let k := v.regs.fl.c.toNat
    let r := BitVec.ofNat 16 (a.toNat + b.toNat + k)
    ([r], Flags.of16 r (decide (65536 ≤ a.toNat + b.toNat + k)) (outside 16 (a.toInt + b.toInt + k)))) ∧
  Completes .sub 2 1 (fun v => let a := v.cell 1; let b := v.cell 0; let r := BitVec.ofInt 16 (a.toInt - b.toInt)
    ([r], Flags.of16 r (decide (a.toNat < b.toNat)) (outside 16 (a.toInt - b.toInt)))) ∧
  Completes .sbc 2 1 (fun v => let a := v.cell 1; let b := v.cell 0; let k := v.regs.fl.c.toNat
    let r := BitVec.ofInt 16 (a.toInt - b.toInt - k)
    ([r], Flags.of16 r (decide (a.toNat < b.toNat + k)) (outside 16 (a.toInt - b.toInt - k)))) ∧
  Completes .neg 1 1 (fun v => let a := v.cell 0; let r := BitVec.ofInt 16 (-a.toInt)
    ([r], Flags.of16 r (decide (0 < a.toNat)) (outside 16 (-a.toInt)))) ∧
  Completes .inc 1 1 (fun v => let a := v.cell 0; let r := BitVec.ofNat 16 (a.toNat + 1)
    ([r], Flags.of16 r (decide (65536 ≤ a.toNat + 1)) (outside 16 (a.toInt + 1)))) ∧
  Completes .dec 1 1 (fun v => let a := v.cell 0; let r := BitVec.ofInt 16 (a.toInt - 1)
    ([r], Flags.of16 r (decide (a.toNat < 1)) (outside 16 (a.toInt - 1))))) ∧
  (let f := fun (v : View) (b : Bool) => (([if b then 0xFFFF else 0x0000], v.regs.fl) : List Word × Flags)
  Completes .eq 2 1 (fun v => f v (decide ((v.cell 1).toNat = (v.cell 0).toNat))) ∧
  Completes .ne 2 1 (fun v => f v (decide ((v.cell 1).toNat ≠ (v.cell 0).toNat))) ∧
  Completes .lt 2 1 (fun v => f v (decide ((v.cell 1).toInt < (v.cell 0).toInt))) ∧
  Completes .le 2 1 (fun v => f v (decide ((v.cell 1).toInt ≤ (v.cell 0).toInt))) ∧
  Completes .gt 2 1 (fun v => f v (decide ((v.cell 0).toInt < (v.cell 1).toInt))) ∧
  Completes .ge 2 1 (fun v => f v (decide ((v.cell 0).toInt ≤ (v.cell 1).toInt))) ∧
  Completes .ult 2 1 (fun v => f v (decide ((v.cell 1).toNat < (v.cell 0).toNat))) ∧
  Completes .ule 2 1 (fun v => f v (decide ((v.cell 1).toNat ≤ (v.cell 0).toNat))) ∧
  Completes .ugt 2 1 (fun v => f v (decide ((v.cell 0).toNat < (v.cell 1).toNat))) ∧
  Completes .uge 2 1 (fun v => f v (decide ((v.cell 0).toNat ≤ (v.cell 1).toNat))) ∧
  Completes .zeroEq 1 1 (fun v => f v (decide ((v.cell 0).toNat = 0))) ∧
  Completes .zeroLt 1 1 (fun v => f v (decide ((v.cell 0).toInt < 0))) ∧
  Completes .sel 3 1 (fun v => ([if (v.cell 0).toNat = 0 then v.cell 1 else v.cell 2], v.regs.fl)))

/-- The logic, shift, minimum, byte and bit-count instructions: results and flags of Table 7.7, shift counts and C by R232. -/
def Obligations.AluLogicAndShifts : Prop :=
  (let zs := fun (v : View) (r : Word) => (([r], Flags.of16 r v.regs.fl.c v.regs.fl.v) : List Word × Flags)
   Completes .and 2 1 (fun v => zs v (v.cell 1 &&& v.cell 0)) ∧
   Completes .or 2 1 (fun v => zs v (v.cell 1 ||| v.cell 0)) ∧
   Completes .xor 2 1 (fun v => zs v (v.cell 1 ^^^ v.cell 0)) ∧
   Completes .not 1 1 (fun v => zs v (BitVec.ofNat 16 (65535 - (v.cell 0).toNat))) ∧
   Completes .rol 2 1 (fun v => let n := (v.cell 0).toNat % 16
     zs v (BitVec.ofNat 16 ((v.cell 1).toNat * 2 ^ n + (v.cell 1).toNat / 2 ^ (16 - n)))) ∧
   Completes .min 2 1 (fun v => zs v (if (v.cell 1).toInt ≤ (v.cell 0).toInt then v.cell 1 else v.cell 0)) ∧
   Completes .max 2 1 (fun v => zs v (if (v.cell 1).toInt ≤ (v.cell 0).toInt then v.cell 0 else v.cell 1)) ∧
   Completes .umin 2 1 (fun v => zs v (if (v.cell 1).toNat ≤ (v.cell 0).toNat then v.cell 1 else v.cell 0)) ∧
   Completes .umax 2 1 (fun v => zs v (if (v.cell 1).toNat ≤ (v.cell 0).toNat then v.cell 0 else v.cell 1)) ∧
   Completes .sext8 1 1 (fun v => let b := (v.cell 0).toNat % 256
     zs v (BitVec.ofInt 16 (if b < 128 then (b : Int) else b - 256))) ∧
   Completes .zext8 1 1 (fun v => zs v (BitVec.ofNat 16 ((v.cell 0).toNat % 256))) ∧
   Completes .popc 1 1 (fun v => zs v (BitVec.ofNat 16 (((List.range 16).map (fun i => (v.cell 0).toNat / 2 ^ i % 2)).sum))) ∧
   Completes .clz 1 1 (fun v => zs v (BitVec.ofNat 16
     (if (v.cell 0).toNat = 0 then 16 else 15 - Nat.log2 (v.cell 0).toNat)))) ∧
  Completes .abs 1 1 (fun v => let a := v.cell 0; let r := BitVec.ofNat 16 a.toInt.natAbs
    ([r], Flags.of16 r v.regs.fl.c (decide (a.toNat = 0x8000)))) ∧
  (let shl := fun (v : View) (a n : Nat) => let r := BitVec.ofNat 16 (a * 2 ^ n)
      (([r], Flags.of16 r (if n = 0 then v.regs.fl.c else decide (a / 2 ^ (16 - n) % 2 = 1)) v.regs.fl.v) : List Word × Flags)
   let shr := fun (v : View) (a n : Nat) => let r := BitVec.ofNat 16 (a / 2 ^ n)
      (([r], Flags.of16 r (if n = 0 then v.regs.fl.c else decide (a / 2 ^ (n - 1) % 2 = 1)) v.regs.fl.v) : List Word × Flags)
   let sra := fun (v : View) (a : Word) (n : Nat) => let r := BitVec.ofInt 16 (a.toInt / 2 ^ n)
      (([r], Flags.of16 r (if n = 0 then v.regs.fl.c else decide (a.toNat / 2 ^ (n - 1) % 2 = 1)) v.regs.fl.v) : List Word × Flags)
   Completes .shl 2 1 (fun v => shl v (v.cell 1).toNat ((v.cell 0).toNat % 16)) ∧
   Completes .shr 2 1 (fun v => shr v (v.cell 1).toNat ((v.cell 0).toNat % 16)) ∧
   Completes .sra 2 1 (fun v => sra v (v.cell 1) ((v.cell 0).toNat % 16)) ∧
   (∀ k : BitVec 4, k ≠ 0 →
     Completes (fun c => .shli c k) 1 1 (fun v => shl v (v.cell 0).toNat k.toNat) ∧
     Completes (fun c => .shri c k) 1 1 (fun v => shr v (v.cell 0).toNat k.toNat) ∧
     Completes (fun c => .srai c k) 1 1 (fun v => sra v (v.cell 0) k.toNat)))

/-- Multiply, divide and pair instructions: exact integer results, truncation toward zero, the named corners and the flags of R231 and R233
(Table 7.8). -/
def Obligations.MultiplyDividePairs : Prop :=
  Completes .mul 2 2 (fun v => let r := BitVec.ofInt 32 ((v.cell 1).toInt * (v.cell 0).toInt); (cells32 r, Flags.of32 r false false)) ∧
  Completes .mulu 2 2 (fun v => let r := BitVec.ofNat 32 ((v.cell 1).toNat * (v.cell 0).toNat); (cells32 r, Flags.of32 r false false)) ∧
  Completes .mull 2 1 (fun v => let x := (v.cell 1).toInt * (v.cell 0).toInt; let r := BitVec.ofInt 16 x
    ([r], Flags.of16 r false (outside 16 x))) ∧
  Completes .div 2 2 (fun v => let a := v.cell 1; let b := v.cell 0
    if b.toInt = 0 then ([0xFFFF, a], Flags.of16 0xFFFF false true)
    else if a.toInt = -32768 ∧ b.toInt = -1 then ([0x8000, 0], Flags.of16 0x8000 false true)
    else let q := BitVec.ofInt 16 (Int.tdiv a.toInt b.toInt)
      ([q, BitVec.ofInt 16 (Int.tmod a.toInt b.toInt)], Flags.of16 q false false)) ∧
  Completes .divu 2 2 (fun v => let a := v.cell 1; let b := v.cell 0
    if b.toNat = 0 then ([0xFFFF, a], Flags.of16 0xFFFF false true)
    else let q := BitVec.ofNat 16 (a.toNat / b.toNat); ([q, BitVec.ofNat 16 (a.toNat % b.toNat)], Flags.of16 q false false)) ∧
  Completes .div2u 3 2 (fun v => let n := (v.cell 1).toNat * 65536 + (v.cell 2).toNat; let b := (v.cell 0).toNat
    if b = 0 then ([0xFFFF, v.cell 2], Flags.of16 0xFFFF false true)
    else let q := BitVec.ofNat 16 (n / b); ([q, BitVec.ofNat 16 (n % b)], Flags.of16 q false (decide (65536 ≤ n / b)))) ∧
  Completes .add2 4 2 (fun v => let a := pair32 (v.cell 3) (v.cell 2); let b := pair32 (v.cell 1) (v.cell 0)
    let r := BitVec.ofNat 32 (a.toNat + b.toNat)
    (cells32 r, Flags.of32 r (decide (2 ^ 32 ≤ a.toNat + b.toNat)) (outside 32 (a.toInt + b.toInt)))) ∧
  Completes .sub2 4 2 (fun v => let a := pair32 (v.cell 3) (v.cell 2); let b := pair32 (v.cell 1) (v.cell 0)
    let r := BitVec.ofInt 32 (a.toInt - b.toInt)
    (cells32 r, Flags.of32 r (decide (a.toNat < b.toNat)) (outside 32 (a.toInt - b.toInt)))) ∧
  Completes .neg2 2 2 (fun v => let a := pair32 (v.cell 1) (v.cell 0); let r := BitVec.ofInt 32 (-a.toInt)
    (cells32 r, Flags.of32 r (decide (0 < a.toNat)) (outside 32 (-a.toInt))))

/-- Flow changes: the target of a flow word at A is (A + 1 + offset) mod 2^22; CALL and CALLS push A + 1; BZ and BNZ take their cell
either way (R228, Tables 7.2 and 7.10).

The return-stack moves and the reads and writes of flags, loop and repeat state (Tables 7.10 to 7.12, R212). The loop test of an instruction at LE
goes by LC, LS and LE as older instructions leave them (R271).
Model's choice: assumption 96. -/
def Obligations.FlowAndLoopRegisters : Prop :=
  (let target := fun (v : View) (off : BitVec 10) => BitVec.ofInt 22 ((v.regs.pc.toNat : Int) + 1 + off.toInt)
  let far := fun (v : View) => BitVec.ofNat 22 ((v.cell 0).toNat % 64 * 65536 + (v.cell 1).toNat)
  let next := fun (v : View) => BitVec.ofNat 22 (v.regs.pc.toNat + 1)
  let goes := fun (f : View → Option PC) (v : View) => v.regs.complete (f v)
  (∀ off, CompletesPlain (fun c => .br c off) 0 0 0 0 (fun _ => []) (fun _ => []) (goes (fun v => some (target v off))) true) ∧
  (∀ off, CompletesPlain (fun c => .bz c off) 1 0 0 0 (fun _ => []) (fun _ => [])
    (goes (fun v => if (v.cell 0).toNat = 0 then some (target v off) else none)) true) ∧
  (∀ off, CompletesPlain (fun c => .bnz c off) 1 0 0 0 (fun _ => []) (fun _ => [])
    (goes (fun v => if (v.cell 0).toNat = 0 then none else some (target v off))) true) ∧
  (∀ off, CompletesPlain (fun c => .call c off) 0 0 0 1 (fun _ => []) (fun v => [next v]) (goes (fun v => some (target v off))) true) ∧
  CompletesPlain .ret 0 0 1 0 (fun _ => []) (fun _ => []) (goes (fun v => some (v.ret 0))) true ∧
  CompletesPlain .jmps 2 0 0 0 (fun _ => []) (fun _ => []) (goes (fun v => some (far v))) true ∧
  CompletesPlain .calls 2 0 0 1 (fun _ => []) (fun v => [next v]) (goes (fun v => some (far v))) true) ∧
  (let keep := fun (v : View) => v.regs.complete none
  let test := fun (own : Bool) (f : View → Regs) (v : View) => v.regs.loopTest own (f v)
  let lo := fun (a : PC) => BitVec.ofNat 16 a.toNat
  let hi := fun (a : PC) => BitVec.ofNat 16 (a.toNat / 65536)
  let addr := fun (v : View) => BitVec.ofNat 22 ((v.cell 0).toNat % 64 * 65536 + (v.cell 1).toNat)
  let word := fun (w : Word) => BitVec.ofNat 22 w.toNat
  CompletesPlain .toR 1 0 0 1 (fun _ => []) (fun v => [word (v.cell 0)]) keep false ∧
  CompletesPlain .rFrom 0 1 1 0 (fun v => [lo (v.ret 0)]) (fun _ => []) keep false ∧
  CompletesPlain .rFetch 0 1 1 1 (fun v => [lo (v.ret 0)]) (fun v => [v.ret 0]) keep false ∧
  CompletesPlain .lpush 0 0 0 3 (fun _ => []) (fun v => [word v.regs.lc, v.regs.ls, v.regs.le]) keep false ∧
  CompletesPlain .lpop 0 0 3 0 (fun _ => []) (fun _ => [])
    (test true (fun v => { v.regs with le := v.ret 0, ls := v.ret 1, lc := lo (v.ret 2) })) true ∧
  CompletesPlain .leave 0 0 0 0 (fun _ => []) (fun _ => []) (test true (fun v => { v.regs with lc := 0 })) false ∧
  CompletesPlain .flFetch 0 1 0 0 (fun v => [BitVec.ofNat 16 (v.regs.fl.z.toNat + 2 * v.regs.fl.s.toNat + 4 * v.regs.fl.c.toNat
    + 8 * v.regs.fl.v.toNat)]) (fun _ => []) keep false ∧
  CompletesPlain .flStore 1 0 0 0 (fun _ => []) (fun _ => []) (test false (fun v => { v.regs with fl := {
    z := decide ((v.cell 0).toNat % 2 = 1), s := decide ((v.cell 0).toNat / 2 % 2 = 1), c := decide ((v.cell 0).toNat / 4 % 2 = 1),
    v := decide ((v.cell 0).toNat / 8 % 2 = 1) } })) false ∧
  CompletesPlain .lcFetch 0 1 0 0 (fun v => [v.regs.lc]) (fun _ => []) keep false ∧
  CompletesPlain .lcStore 1 0 0 0 (fun _ => []) (fun _ => []) (test true (fun v => { v.regs with lc := v.cell 0 })) false ∧
  CompletesPlain .lsFetch 0 2 0 0 (fun v => [lo v.regs.ls, hi v.regs.ls]) (fun _ => []) keep false ∧
  CompletesPlain .lsStore 2 0 0 0 (fun _ => []) (fun _ => []) (test false (fun v => { v.regs with ls := addr v })) true ∧
  CompletesPlain .leFetch 0 2 0 0 (fun v => [lo v.regs.le, hi v.regs.le]) (fun _ => []) keep false ∧
  CompletesPlain .leStore 2 0 0 0 (fun _ => []) (fun _ => []) (test false (fun v => { v.regs with le := addr v })) false ∧
  CompletesPlain .rcFetch 0 1 0 0 (fun v => [v.regs.rc]) (fun _ => []) keep false ∧
  (∀ d : BitVec 8, CompletesPlain (fun c => .loop c d) 1 0 0 0 (fun _ => []) (fun _ => [])
    (fun v => let r := { v.regs with ls := BitVec.ofNat 22 (v.regs.pc.toNat + 1), le := BitVec.ofNat 22 (v.regs.pc.toNat + 1 + d.toNat),
                                     lc := v.cell 0 }
      if (v.cell 0).toNat = 0 then { r with pc := BitVec.ofNat 22 (v.regs.pc.toNat + d.toNat + 2) } else v.regs.loopTest true r) true)) ∧
  (∀ (r x : Regs) (own : Bool),
    (r.pc ≠ r.le ∨ r.lc = 0 → r.loopTest own x = { x with pc := BitVec.ofNat 22 (r.pc.toNat + 1) }) ∧
    (r.pc = r.le → r.lc = 1 → r.loopTest own x = { x with lc := if own then x.lc else 0, pc := BitVec.ofNat 22 (r.pc.toNat + 1) }) ∧
    (r.pc = r.le → 1 < r.lc.toNat →
      r.loopTest own x = { x with lc := if own then x.lc else BitVec.ofNat 16 (r.lc.toNat - 1), pc := r.ls }))

/-! ### Sprin: loops, repeats, illegal opcodes and control (chapters 06, 07 and 09) -/

/-- What an execution leaves of the sequencing registers: a taken flow change goes to its target with LC unchanged; under REP the count falls
and the target runs again until it is 0; the loop test at LE decrements LC and goes to LS while LC exceeds 1 (R213, R214, R217).

REP and REPI latch their count into RC and go on at their target, whose fault would return the state before them; with a count of 0 a
legal target does not execute, and any other instruction takes an illegal-opcode fault with cause REP-target as one fault of prefix and
target: the cell REP took is restored, the return point is the prefix, RC is 0 and a0 is the count (R214, R215, R243, R245). -/
def Obligations.LoopAndRepeatCounts : Prop :=
  (∀ (r : Regs) (t : PC),
    r.complete (some t) = { r with pc := t } ∧
    (1 < r.rc.toNat → r.complete none = { r with rc := BitVec.ofNat 16 (r.rc.toNat - 1) }) ∧
    (r.rc.toNat ≤ 1 → r.pc ≠ r.le → r.complete none = { r with rc := 0, pc := BitVec.ofNat 22 (r.pc.toNat + 1) }) ∧
    (r.rc.toNat ≤ 1 → r.pc = r.le → 1 < r.lc.toNat →
      r.complete none = { r with rc := 0, lc := BitVec.ofNat 16 (r.lc.toNat - 1), pc := r.ls }) ∧
    (r.rc.toNat ≤ 1 → r.pc = r.le → r.lc.toNat ≤ 1 → r.complete none = { r with rc := 0, lc := 0, pc := BitVec.ofNat 22 (r.le.toNat + 1) })) ∧
  ((∀ (s : State) (c : CoreId) (v : View), s.still c v → s.takes c v 1 0 0 0 → ∃ t v', exec (.rep c) s = .next t ∧ t.view c = some v' ∧
    v.leaves v' 1 [] ∧ v'.regs = { v.regs.advance with rc := v.cell 0 } ∧
    (t.core c).rep = some { regs := v.regs, bank := v.bank, count := v.cell 0 } ∧ s.onlyCore t c) ∧
  (∀ (s : State) (c : CoreId) (v : View) (k : BitVec 6), s.still c v → s.takes c v 0 0 0 0 → ∃ t v', exec (.repi c k) s = .next t ∧
    t.view c = some v' ∧ v.leaves v' 0 [] ∧ v'.regs = { v.regs.advance with rc := BitVec.ofNat 16 k.toNat } ∧
    (t.core c).rep = some { regs := v.regs, bank := v.bank, count := BitVec.ofNat 16 k.toNat } ∧ s.onlyCore t c) ∧
  (∀ (s : State) (c : CoreId) (v : View) (i : Instr) (r : Rep), i.wf = true → sprinCore i = some c → (sprinEncode i).isSome = true →
    s.ready c v → v.regs.rc = 0 → (s.core c).rep = some r → repTarget i = true →
    ∃ t, exec i s = .next t ∧ t.view c = some { v with regs := v.regs.advance } ∧ s.onlyLevel t c false) ∧
  (∀ (s : State) (c : CoreId) (v : View) (i : Instr) (r : Rep), i.wf = true → sprinCore i = some c → (sprinEncode i).isSome = true →
    c ≠ .moth → s.ready c v → (s.core c).rep = some r → repTarget i = false →
    ∃ t, exec i s = .next t ∧ t.view c = some { v with regs := { r.regs with rc := 0 }, bank := r.bank } ∧
      (t.core c).fault = some { cls := 6, cause := 1, addr := BitVec.ofNat 48 r.count.toNat } ∧ (t.core c).rep = none ∧ s.onlyCore t c))

/-- An undefined word takes an illegal-opcode fault with cause UNDEF; LR, SC and the vector group take cause BUILD on Sprin-S; RETI, RETT and
TRAP take cause LEVEL at a level that is not theirs; nothing else changes (R226, R230, R236, R261, R305).

The depth check, shown on an instruction that takes two cells and one that leaves one: in a live bank an underflow asks for a fill when OSC is
not 0 and faults with cause 0 otherwise, an overflow asks for a spill; in a handler's frame both fault; the instruction does not
execute (R206, R207, R209, Table 6.6).
Model's choice: assumption 60. -/
def Obligations.IllegalAndDepthFaults : Prop :=
  (∀ (s : State) (c : CoreId) (v : View), s.ready c v → s.noRep c v →
    (∀ w, sprinDecode c w = none → exec (.undefinedWord c w) s = .next (s.setCore c { s.core c with fault := some ⟨6, 0, 0⟩ })) ∧
    (c = .moth → ∀ i ∈ ([.vwait c, .vresume c, .vtest c, .vprFetch c, .vprStore c] : List Instr) ++
        (List.range 8).flatMap (fun r => [.lr c (BitVec.ofNat 3 r), .sc c (BitVec.ofNat 3 r), .vissue c (BitVec.ofNat 3 r)]),
      exec i s = .next (s.setCore c { s.core c with fault := some ⟨6, 2, 0⟩ })) ∧
    (((s.core c).level = 0 ∨ (s.core c).level = 8) → exec (.reti c) s = .next (s.setCore c { s.core c with fault := some ⟨6, 3, 0⟩ })) ∧
    ((s.core c).level ≠ 8 → exec (.rett c) s = .next (s.setCore c { s.core c with fault := some ⟨6, 3, 0⟩ })) ∧
    ((s.core c).level ≠ 0 → ∀ n us, exec (.trap c n us) s = .next (s.setCore c { s.core c with fault := some ⟨6, 3, 0⟩ }))) ∧
  (∀ (s : State) (c : CoreId) (v : View), s.still c v → v.bounded →
    let k := (s.entered c).core c
    let asks := fun (i : Instr) (n : Need) => exec i s = .next ((s.entered c).setCore c { k with need := some n, rsv := none })
    let faults := fun (i : Instr) (cause : BitVec 4) => exec i s = .next ((s.entered c).setCore c { k with fault := some ⟨7, cause, 0⟩ })
    (v.depth < 2 → if k.level = 0 then (if (s.spilled c).1 ≠ 0 then asks (.add c) .fillOps else faults (.add c) 0) else faults (.add c) 2) ∧
    (v.bank.opd = v.ocap → ∀ x, if k.level = 0 then asks (.lit c x) .spillOps else faults (.lit c x) 1) ∧
    (v.rdepth < 1 → if k.level = 0 then (if (s.spilled c).2 ≠ 0 then asks (.ret c) .fillRets else faults (.ret c) 0) else faults (.ret c) 2) ∧
    (v.bank.rtd = v.rcap → ∀ off, if k.level = 0 then asks (.call c off) .spillRets else faults (.call c off) 1))

/-- NIWO opens a window with the level's budget at a handler level that has none open, and does nothing elsewhere; NIWC closes an open
window; SYNCI discards what was fetched and takes over the vector shadow and the settings of SUP_CS_CFG; SEV n raises E(448 + n); DEPTH
and RDEPTH count the spilled words too, at context level; CTXID pushes the identity of R242 (R237 to R239, R242, R257, R290, R309,
R314).

FENCE completes once no store or atomic operation of the context is in flight, and waits while one is. WAIT at a handler
level completes at once and stops nothing; at context level the Moth core waits at it, a supervisor context waits on the granule its
reservation names and leaves the core, a sequencer context that watches a granule of its own scratch waits there with the PC past the
WAIT, and without a watch WAIT only advances (R238, R240, R336, R346, R424).
Model's choice: assumption 7. -/
def Obligations.ControlInstructions : Prop :=
  (∀ (s : State) (c : CoreId) (v : View), s.still c v → (∀ q, q ≤ 1 → v.bank.opd + q ≤ v.ocap) → v.bank.rtd ≤ v.rcap →
    let after := fun (t : State) => t.view c = some { v with regs := v.regs.complete none }
    let pushes := fun (i : Instr) (w : Word) => ∃ t v', exec i s = .next t ∧ t.view c = some v' ∧ v.leaves v' 0 [w] ∧
      v'.regs = v.regs.complete none ∧ s.onlyLevel t c false
    let budget := if (s.core c).level = 8 then (s.core c).trapBud else s.fld (SEQ_EXC_CFG_NIW_MAX (corePage c))
    (∃ t, exec (.niwo c) s = .next t ∧ after t ∧ s.onlyCore t c ∧
      (t.core c).niw = if (s.core c).level ≠ 0 ∧ (s.core c).niw = none ∧ budget ≠ 0 then some budget else (s.core c).niw) ∧
    (∃ t, exec (.niwc c) s = .next t ∧ after t ∧ s.onlyCore t c ∧ (t.core c).niw = none) ∧
    (∃ t, exec (.synci c) s = .next t ∧ after t ∧ s.onlyCore t c ∧ (c ≠ .moth →
      (t.core c).held = none ∧ (t.core c).ahead = none ∧ (t.core c).lineReq = none ∧ (t.core c).vecBuf = (s.core c).vecShadow ∧
      (t.core c).lcEn = s.on SUP_CS_CFG_LC_EN ∧ (t.core c).btbEn = s.on SUP_CS_CFG_BTB_EN ∧ (t.core c).dualEn = s.on SUP_CS_CFG_DUAL_EN)) ∧
    (∀ n : BitVec 6, s.evcOn = true → ∃ t, exec (.sev c n) s = .next t ∧ after t ∧
      t.evc = { s.evc with raised := s.evc.raised ++ [(448 + n.toNat, s.clk.tb)] } ∧ s.onlyCore { t with evc := s.evc } c) ∧
    pushes (.depth c) (BitVec.ofNat 16 (v.bank.opd - v.base + if (s.core c).level = 0 then (s.spilled c).1.toNat else 0)) ∧
    pushes (.rdepth c) (BitVec.ofNat 16 (v.bank.rtd - v.rbase + if (s.core c).level = 0 then (s.spilled c).2.toNat else 0)) ∧
    pushes (.ctxid c) (match c with
      | .moth => 0x8001
      | .sup => BitVec.ofNat 16 (0x4000 + (s.core c).live.getD 0)
      | .seq n => match s.lsOfSeq n, (s.core c).live with
        | some l, some i => BitVec.ofNat 16 (512 * l + i)
        | some l, none => BitVec.ofNat 16 (0xC000 + l)
        | none, _ => BitVec.ofNat 16 (0xC000 + n))) ∧
  ((∀ (s : State) (c : CoreId) (v : View), s.ready c v → s.takes c v 0 0 0 0 → s.noRep c v →
    ((∀ f ∈ (s.core c).flight, f.done = true ∨ ∃ p n, f.kind = .load p n) →
      ∃ t, exec (.fence c) s = .next t ∧ t.view c = some { v with regs := v.regs.complete none } ∧ s.onlyLevel t c false) ∧
    ((∃ f ∈ (s.core c).flight, f.done = false ∧ (f.kind = .store ∨ ∃ p, f.kind = .tas p ∨ f.kind = .lr p ∨ f.kind = .sc p)) →
      exec (.fence c) s = .next (s.entered c))) ∧
  (∀ (s : State) (c : CoreId) (v : View), s.still c v → s.takes c v 0 0 0 0 →
    let done := fun (t : State) => t.view c = some { v with regs := v.regs.complete none } ∧ s.onlyLevel t c false
    ((s.core c).level ≠ 0 → ∃ t, exec (.wait c) s = .next t ∧ done t) ∧
    ((s.core c).level = 0 → c = .moth → ∃ t, exec (.wait c) s = .next t ∧ (t.core c).waiting = true ∧ t.view c = some v ∧ s.onlyCore t c) ∧
    ((s.core c).level = 0 → c ≠ .moth → (c = .sup → (s.core c).rsv = none) → s.ownWatch c = none → ∃ t, exec (.wait c) s = .next t ∧ done t) ∧
    (∀ g i, (s.core c).level = 0 → c = .sup → (s.core c).rsv = some g → s.liveKey c = some i → ∃ t, exec (.wait c) s = .next t ∧
      (t.core c).live = none ∧ (t.core c).rsv = none ∧
      t.ctxAt i = { s.ctxAt i with r := v.regs.complete none, state := .wait, warm := true, watch := g } ∧ s.onlyCore t c) ∧
    (∀ w i, (s.core c).level = 0 → s.ownWatch c = some w → s.liveKey c = some i → (s.ctxAt i).parkRq = false →
      ∃ t, exec (.wait c) s = .next t ∧ (t.core c).live = none ∧
        t.ctxAt i = { s.ctxAt i with r := v.regs.complete none, state := .wait, warm := true, wgran := BitVec.ofNat 13 w } ∧
        s.onlyCore t c)))

/-! ### Handler levels (chapter 09) -/

/-- RETI at an interrupt, fault or double-fault level and RETT at the trap level: an open window closes, the level's frame is discarded, and
level, CPL, frame bases and sequencing registers return from the save set, whose VALID clears; RETI of a sequencer pops its priority
stack; RETT then places ( r s ) on the restored stack (R235, R236, R316, R415).

A return restores each capability register from the save set with the tag that the save set still holds, so a window write to a saved
capability returns it untagged (R317, R321).
Model's choice: assumption 47. -/
def Obligations.HandlerReturns : Prop :=
  (∀ (s : State) (c : CoreId) (v : View), s.still c v →
    let k := s.core c
    let n := levelSet k.level
    let x := k.saveSet n
    let back := fun (t : State) =>
      (t.core c).level = x.level ∧ (t.core c).cpl = x.cpl ∧ (t.core c).niw = none ∧ (t.core c).base = x.base.toNat ∧
      (t.core c).rbase = x.rbase.toNat ∧ (t.core c).saveSet n = { x with valid := false } ∧
      (∀ w, t.view c = some w → w.regs = x.r) ∧ t.mem = s.mem ∧ t.scr = s.scr ∧ t.regs = s.regs ∧
      (∀ j, j ≠ coreKey c → t.coreAt j = s.coreAt j)
    (k.level ∈ ([1, 2, 3, 4, 5, 6, 7, 9, 10] : List (BitVec 4)) → v.bank.opd ≤ v.ocap → v.bank.rtd ≤ v.rcap →
      ∃ t, exec (.reti c) s = .next t ∧ back t ∧ (x.level ≠ 0 → (t.core c).sbh = { k.sbh with opd := k.base, rtd := k.rbase }) ∧
        (∀ m j, c = .seq m → s.lsOfSeq m = some j → k.level.toNat ≤ 7 → (t.target j).stack = (s.target j).stack.drop 1)) ∧
    (k.level = 8 → s.takes c v 2 0 0 0 → ∃ t, exec (.rett c) s = .next t ∧ back t ∧
      ∀ w, t.view c = some w → w.cell 1 = v.cell 1 ∧ w.cell 0 = v.cell 0)) ∧
  ((∀ (s : State) (c : CoreId) (v : View) (r : Nat), s.still c v → r < 8 →
    (s.core c).level ∈ ([1, 2, 3, 4, 5, 6, 7, 9, 10] : List (BitVec 4)) → v.bank.opd ≤ v.ocap → v.bank.rtd ≤ v.rcap →
    1 ≤ ((s.core c).saveSet (levelSet (s.core c).level)).level.toNat → ((s.core c).saveSet (levelSet (s.core c).level)).level.toNat ≤ 10 →
    ∃ t, exec (.reti c) s = .next t ∧
      t.capReg c r = Tbl.get Cap.null r ((s.core c).saveSet (levelSet (s.core c).level)).caps) ∧
  (∀ (x : SaveSet) (i : Nat) (w : Reg), 6 ≤ i → i < 38 →
    (Tbl.get Cap.null ((i - 6) / 4) (x.setWord i w).caps).tag = false))

/-- TRAP n through a gate in local scratch: VALID must be 1 and SEL at most 5; the trap level is entered through SVT with the caller's state past
the TRAP, CS(10 + SEL) in use with STACK in C7, ( a b ) moved to the new frame, the budget min(NIWB, NIW_MAX), and the PC at the
entry (R235, R312, R313).

An interrupt whose request priority exceeds CPL enters level RP at vector RP with the interrupted state in SVp, CPL and handler set RP, and
a new, empty frame; in-flight work is abandoned, and the target's priority stack records the level (R285, R304, R308, R413, R415). A
marked fault below the fault level enters it at its vector with the frame ( a0 a1 a2 code ), and one of SB0 the double-fault level (R208, R306,
R311). An expired window closes,
sets NIWOVR and counts (R315).
Model's choice: assumption 48. -/
def Obligations.TrapsAndHandlerEntries : Prop :=
  (∀ (s : State) (c : CoreId) (v : View) (n : BitVec 8) (us : List Upset), s.still c v → s.takes c v 2 0 0 0 → (s.core c).level = 0 →
    let gtc := (s.core c).gtc
    let w := gtc.base + 16 * n.toNat
    let d := s.scrData (scrGranOfWord (w + 8))
    s.check c gtc (16 * n.toNat) { perms := [0, 2, 4], st := false, n := 16, align := 8 } true false = none → s.region c w = .scratch →
    let valid := (granWord d 1).toNat / 2 ^ 15 % 2 = 1
    let sel := (granWord d 1).toNat / 256 % 16
    (¬ (valid ∧ sel ≤ 5) → ∃ t, exec (.trap c n us) s = .next t ∧ (t.core c).fault = some (mkFault 1 2 w) ∧ t.view c = some v ∧
      (t.core c).level = 0 ∧ t.mem.bytes = s.mem.bytes ∧ t.scr.bytes = s.scr.bytes ∧ t.scr.tags = s.scr.tags ∧ t.regs = s.regs) ∧
    (valid → sel ≤ 5 → ∃ t, exec (.trap c n us) s = .next t ∧
      (t.core c).level = 8 ∧ (t.core c).cset = BitVec.ofNat 4 (10 + sel) ∧ (t.core c).niw = none ∧
      (t.core c).hr = { pc := BitVec.ofNat 22 ((granWord d 1).toNat % 64 * 65536 + (granWord d 0).toNat),
                        fl := ⟨false, false, false, false⟩, rc := 0, lc := 0, ls := 0, le := 0 } ∧
      (t.core c).trapBud = min (granWord d 2).toNat (s.fld (SEQ_EXC_CFG_NIW_MAX (corePage c))) ∧
      ((t.core c).saveSet 0).r = v.regs.complete none ∧ ((t.core c).saveSet 0).level = 0 ∧ ((t.core c).saveSet 0).valid = true ∧
      (t.core c).base = (s.core c).sbh.opd ∧ (t.core c).sbh.opd = (s.core c).sbh.opd + 2 ∧
      (∀ u, t.view c = some u → u.cell 1 = v.cell 1 ∧ u.cell 0 = v.cell 0) ∧
      t.capReg c 7 = { bits := s.scrData (scrGranOfWord w), tag := s.scrTag (scrGranOfWord w) } ∧
      (∀ j, j ≠ coreKey c → t.coreAt j = s.coreAt j) ∧ t.mem.bytes = s.mem.bytes ∧ t.scr.bytes = s.scr.bytes ∧ t.scr.tags = s.scr.tags ∧
      t.regs = s.regs)) ∧
  ((∀ (s : State) (c : CoreId) (v : View) (j p : Nat), coreBuilt s.build c = true → s.coreOff c = false → s.canRecognise c = true →
    s.view c = some v → (s.core c).flight = [] → ((s.core c).orderFault = false ∨ c ≠ .sup) → s.targetOf c = some j → s.rp j = p →
    (s.core c).cpl.toNat < p → p ≤ 7 → ∃ t, exec (.interruptRecognise c) s = .next t ∧
      (t.core c).level.toNat = p ∧ (t.core c).cpl.toNat = p ∧ (t.core c).cset.toNat = p ∧
      (t.core c).hr = { pc := BitVec.ofNat 22 (8 * p), fl := ⟨false, false, false, false⟩, rc := 0, lc := 0, ls := 0, le := 0 } ∧
      ((t.core c).saveSet p).r = v.regs ∧ ((t.core c).saveSet p).level = (s.core c).level ∧ ((t.core c).saveSet p).valid = true ∧
      (t.core c).base = (s.core c).sbh.opd ∧ (t.core c).sbh = (s.core c).sbh ∧ (t.core c).rsv = none ∧
      (t.target j).stack = BitVec.ofNat 3 p :: (s.target j).stack ∧ t.mem = s.mem ∧
      (∀ i, i ≠ coreKey c → (t.coreAt i).level = (s.coreAt i).level)) ∧
  (∀ (s : State) (c : CoreId) (v : View) (f : FaultRec), coreBuilt s.build c = true → s.coreOff c = false → s.view c = some v →
    (s.core c).released = true → (s.core c).dstate = 0 → (s.core c).flight = [] → (s.core c).fault = some f → (s.core c).level.toNat ≤ 8 →
    ((s.core c).level ≠ 0 ∨ f.cls ≠ 4 ∨ isSeq c = false) → (s.core c).sbh.opd + 4 ≤ 32 →
    let double := f.cls = 7 ∧ f.cause = 4
    let set := if double then 9 else 8
    ∃ t, exec (.faultEntry c) s = .next t ∧
      (t.core c).level = (if double then 10 else 9) ∧ (t.core c).cset = (if double then 9 else 8) ∧ (t.core c).fault = none ∧ (t.core c).niw = none ∧
      (t.core c).hr = { pc := if double then 136 else BitVec.ofNat 22 (8 * faultVector f.cls.toNat), fl := ⟨false, false, false, false⟩, rc := 0,
                        lc := 0, ls := 0, le := 0 } ∧
      (double → t.on (SEQ_EXC_STAT_DBLF (corePage c)) = true) ∧
      ((t.core c).saveSet set).r = v.regs ∧ ((t.core c).saveSet set).level = (s.core c).level ∧ ((t.core c).saveSet set).valid = true ∧
      (t.core c).base = (s.core c).sbh.opd ∧ (t.core c).sbh.opd = (s.core c).sbh.opd + 4 ∧
      (∀ u, t.view c = some u → u.cell 3 = BitVec.ofNat 16 f.addr.toNat ∧ u.cell 2 = BitVec.ofNat 16 (f.addr.toNat / 2 ^ 16) ∧
        u.cell 1 = BitVec.ofNat 16 (f.addr.toNat / 2 ^ 32 % 256) ∧ u.cell 0 = BitVec.ofNat 16 (f.cause.toNat + 16 * f.cls.toNat)) ∧
      (∀ j, j ≠ coreKey c → t.coreAt j = s.coreAt j) ∧ t.mem = s.mem ∧ t.scr = s.scr) ∧
  (∀ (s : State) (c : CoreId), coreBuilt s.build c = true → s.coreOff c = false → (s.core c).niw = some 0 →
    ∃ t, exec (.niwExpiry c) s = .next t ∧ (t.core c).niw = none ∧ t.on (SEQ_EXC_STAT_NIWOVR (corePage c)) = true ∧
      t.fld (SEQ_EXC_CNT_NIWOVR (corePage c)) = min (s.fld (SEQ_EXC_CNT_NIWOVR (corePage c)) + 1) 0xFFFF ∧
      t.mem = s.mem ∧ t.scr = s.scr ∧ (∀ j, j ≠ coreKey c → t.coreAt j = s.coreAt j)))

/-! ### Sprin: memory (chapters 06, 07 and 09) -/

/-- Every load form: LD and LD2 at displacement d, LDX and LD2X at d plus an index cell, LDP and LD2P at a pair offset (R192, R194, R229,
Tables 7.3 and 7.13).

Every store form, with the words it stores in memory order (R192, R194, R229, Tables 7.3 and 7.13).
Model's choice: assumption 52. -/
def Obligations.LoadAndStoreForms : Prop :=
  ((∀ r d, LoadLaunches (fun c => .ld c r d) r 0 1 (fun _ => d.toNat)) ∧
  (∀ r d, LoadLaunches (fun c => .ld2 c r d) r 0 2 (fun _ => d.toNat)) ∧
  (∀ r d, LoadLaunches (fun c => .ldx c r d) r 1 1 (fun v => d.toNat + (v.cell 0).toNat)) ∧
  (∀ r d, LoadLaunches (fun c => .ld2x c r d) r 1 2 (fun v => d.toNat + (v.cell 0).toNat)) ∧
  (∀ r, LoadLaunches (fun c => .ldp c r) r 2 1 (fun v => (v.cell 1).toNat + 65536 * (v.cell 0).toNat)) ∧
  (∀ r, LoadLaunches (fun c => .ld2p c r) r 2 2 (fun v => (v.cell 1).toNat + 65536 * (v.cell 0).toNat))) ∧
  ((∀ r d, StoreLaunches (fun c => .st c r d) r 1 (fun v => [v.cell 0]) (fun _ => d.toNat)) ∧
  (∀ r d, StoreLaunches (fun c => .st2 c r d) r 2 (fun v => [v.cell 1, v.cell 0]) (fun _ => d.toNat)) ∧
  (∀ r d, StoreLaunches (fun c => .stx c r d) r 2 (fun v => [v.cell 1]) (fun v => d.toNat + (v.cell 0).toNat)) ∧
  (∀ r d, StoreLaunches (fun c => .st2x c r d) r 3 (fun v => [v.cell 2, v.cell 1]) (fun v => d.toNat + (v.cell 0).toNat)) ∧
  (∀ r, StoreLaunches (fun c => .stp c r) r 3 (fun v => [v.cell 2]) (fun v => (v.cell 1).toNat + 65536 * (v.cell 0).toNat)) ∧
  (∀ r, StoreLaunches (fun c => .st2p c r) r 4 (fun v => [v.cell 3, v.cell 2]) (fun v => (v.cell 1).toNat + 65536 * (v.cell 0).toNat)))

/-- TAS, LR and SC are checked under R195 (one word; the whole granule for LR), then leave as one indivisible request that reads or writes only at
its grant, the result cell pending; CLDC and CSTC move 128 bits and a tag at a multiple of 8; a step of LDM asks for the word of the highest
set bit, a step of STM stores the cell beneath for the lowest, and a mask of 0 ends either (R246 to R249, R256).
Model's choice: assumptions 54, 77. -/
def Obligations.AtomicAndCapabilityAccesses : Prop :=
  ∀ (s : State) (c : CoreId) (v : View) (r a : BitVec 3), s.still c v → v.bank.opd ≤ v.ocap → v.bank.rtd ≤ v.rcap →
    let k := s.core c
    let cap := s.capReg c r.toNat
    let x := cap.base + (v.cell 0).toNat
    let y := cap.base + (v.cell 1).toNat + 65536 * (v.cell 0).toNat
    let goes := fun (i : Instr) (p : Nat) (out : List Word) (fk : FKind) (w : Nat) (kind : Kind) =>
      ∃ t v', exec i s = .next t ∧ t.view c = some v' ∧ v'.regs = v.regs.complete none ∧ v.leaves v' p out ∧ s.asked t c k.tok cap w kind ∧
        s.launched t c v fk cap w
    (1 ≤ v.depth → s.check c cap (v.cell 0).toNat { perms := [0, 1], st := true, n := 1, align := 1 } true true = none → s.queued c x →
      goes (.tas c r) 1 [0] (.tas (v.bank.opd - 1)) x (.tas (x % 8))) ∧
    (1 ≤ v.depth → c ≠ .moth → s.check c cap (v.cell 0).toNat { perms := [0, 1], st := true, n := 8, align := 8 } true true = none →
      s.queued c x → goes (.lr c r) 1 [0] (.lr (v.bank.opd - 1)) x .lr) ∧
    (2 ≤ v.depth → c ≠ .moth → s.check c cap (v.cell 0).toNat { perms := [0, 1], st := true, n := 1, align := 8 } true true = none →
      s.queued c x → goes (.sc c r) 2 [0] (.sc (v.bank.opd - 2)) x (.sc (x % 8) (v.cell 1))) ∧
    (2 ≤ v.depth → s.check c cap ((v.cell 1).toNat + 65536 * (v.cell 0).toNat) { perms := [0, 2], st := false, n := 8, align := 8 } true false = none →
      s.queued c y → goes (.cldc c a r) 2 [] (.cldc a) y .read) ∧
    (2 ≤ v.depth → s.check c cap ((v.cell 1).toNat + 65536 * (v.cell 0).toNat) { perms := [1, 3], st := true, n := 8, align := 8 } true false = none →
      s.queued c y → goes (.cstc c a r) 2 [] .cstc y
        (.write (s.capReg c a.toNat).bits 0xFFFF (s.capTagged (s.capReg c a.toNat)))) ∧
    (2 ≤ v.depth → v.cell 0 = 0 → (∃ t v', exec (.ldmStep c r) s = .next t ∧ t.view c = some v' ∧ v.leaves v' 2 [] ∧
        v'.regs = v.regs.complete none ∧ s.onlyLevel t c false) ∧
      (∃ t v', exec (.stmStep c r) s = .next t ∧ t.view c = some v' ∧ v.leaves v' 2 [] ∧ v'.regs = v.regs.complete none ∧
        s.onlyLevel t c false)) ∧
    (∀ j, 2 ≤ v.depth → v.bank.opd + 1 ≤ v.ocap → (v.cell 0).getLsbD j = true → (∀ i, j < i → (v.cell 0).getLsbD i = false) →
      s.check c cap ((v.cell 1).toNat + j) { perms := [0], st := false, n := 1, align := 1 } true false = none →
      s.queued c (cap.base + ((v.cell 1).toNat + j)) → ∃ t, exec (.ldmStep c r) s = .next t ∧ t.view c = some v ∧
        s.asked t c k.tok cap (cap.base + ((v.cell 1).toNat + j)) .read ∧
        s.launched t c v (.ldm r) cap (cap.base + ((v.cell 1).toNat + j))) ∧
    (∀ j, 3 ≤ v.depth → (v.cell 0).getLsbD j = true → (∀ i, i < j → (v.cell 0).getLsbD i = false) →
      s.check c cap ((v.cell 1).toNat + j) { perms := [1], st := true, n := 1, align := 1 } true false = none →
      s.queued c (cap.base + ((v.cell 1).toNat + j)) → ∃ t, exec (.stmStep c r) s = .next t ∧ t.view c = some v ∧
        s.asked t c k.tok cap (cap.base + ((v.cell 1).toNat + j)) (.write (wordData (cap.base + ((v.cell 1).toNat + j)) (v.cell 2))
          (wordBe (cap.base + ((v.cell 1).toNat + j))) false) ∧
        s.launched t c v (.stm r) cap (cap.base + ((v.cell 1).toNat + j)))

/-- The checks of R195 in their order: tag, seal, permission and view, bounds, alignment, region; each fails with the class and cause of
Table 9.7 and the word address, and only when all before it pass.

What returns for an access in flight: a load's words fill its pending cells and it retires; a fault discards it and everything younger and
returns to the state before it; data for an access no longer in flight is dropped (R241, R265, R266, R286). -/
def Obligations.AccessChecksAndCompletion : Prop :=
  (∀ (s : State) (c : CoreId) (cap : Cap) (off : Nat) (k : Need195) (single atomic : Bool),
    let w := cap.base + off
    let addr := BitVec.ofNat 48 (w % 2 ^ 40)
    let tagged := cap.tag = true ∧ cap.owner / 512 < s.build.lss
    let permitted := (∀ b ∈ k.perms, cap.perm / 2 ^ b % 2 = 1) ∧
      (s.region c w = .stream → cap.view ≠ 3 ∧ (k.st = true → cap.view ≠ 1))
    (¬ tagged → s.check c cap off k single atomic = some ⟨1, 0, addr⟩) ∧
    (tagged → cap.otype ≠ 0 → s.check c cap off k single atomic = some ⟨1, 1, addr⟩) ∧
    (tagged → cap.otype = 0 → ¬ permitted → s.check c cap off k single atomic = some ⟨1, 2, addr⟩) ∧
    (tagged → cap.otype = 0 → permitted → cap.length < off + k.n → s.check c cap off k single atomic = some ⟨1, 3, addr⟩) ∧
    (tagged → cap.otype = 0 → permitted → off + k.n ≤ cap.length → w % k.align ≠ 0 →
      s.check c cap off k single atomic = some ⟨3, 0, addr⟩) ∧
    (tagged → cap.otype = 0 → permitted → off + k.n ≤ cap.length → w % k.align = 0 →
      ((∃ i, i < k.n ∧ s.region c (w + i) ≠ s.region c w) ∨ s.region c w = .none ∨
        (s.region c w = .regs ∧ (single = true ∨ regHole (2 * (w - 0x100000000)) = true)) ∨
        (s.region c w = .bulk ∧ (atomic = true ∨ s.bulkOk w = false))) →
      s.check c cap off k single atomic = some ⟨2, 0, addr⟩)) ∧
  (∀ (s : State) (c : CoreId) (v : View) (f : Flight), s.view c = some v → (s.core c).flight = [f] → f.fail = none →
    f.done = false →
    (∀ p n d tag, f.kind = .load p n → p + n ≤ v.bank.opd → ∃ t v', coreData c f.tok (.ok d tag) s = some t ∧ (t.core c).flight = [] ∧
      t.view c = some v' ∧ v'.regs = v.regs ∧ v'.bank.opd = v.bank.opd ∧
      (∀ j, j < n → Tbl.get 0 (p + j) v'.bank.cells = granWord d (f.addr.toNat % 8 + j)) ∧
      (∀ j, j < p ∨ p + n ≤ j → Tbl.get 0 j v'.bank.cells = Tbl.get 0 j v.bank.cells) ∧ t.mem = s.mem) ∧
    (∀ p n, f.kind = .load p n → ∃ t, coreData c f.tok .ue s = some t ∧ (t.core c).flight = [] ∧
      t.view c = some { v with regs := f.regs, bank := f.bank } ∧
      (t.core c).fault = some ⟨2, 1, BitVec.ofNat 48 (f.addr.toNat % 2 ^ 40)⟩ ∧ t.mem = s.mem) ∧
    (∀ r d tag, f.kind = .cldc r → (s.liveKey c).isSome = true → ∃ t, coreData c f.tok (.ok d tag) s = some t ∧ (t.core c).flight = [] ∧
      t.capReg c r.toNat = { bits := d, tag := tag } ∧ t.mem = s.mem) ∧
    (∀ tok m, tok ≠ f.tok → coreData c tok m s = some s))

/-! ### Stream memory and the epoch unit (chapters 02 and 03) -/

/-- A CURRENT write of its group's present group-epoch never changes what PRIOR readers of its granule see, whichever entry it takes or reuses
(R78, R90 to R93, Table 3.5). One that a flip overtook belongs to the group-epoch the flip ended: it joins that version where its entry holds it
(R33).
Model's choice: assumptions 54, 93. -/
def Obligations.CurrentWritesHideFromPrior : Prop :=
  ∀ (s t : State) (a : Access) (d x : Gran) (be : BitVec 16) (tag y : Bool), a.view = 2 → a.gran < s.build.granules →
    writeGranule a d be tag s = (.ok x y, t) →
    let b := bankOf s.build a.gran
    let h := homeOf s.build a.gran
    (∀ e i, a.late = some e → s.entryFor b h = some i → let v := s.entry (512 * b + i)
      v.epoch = e → v.group = a.group → v.owner = a.owner →
      t.rowData (t.rowKey b (4096 + i)) = x ∧ t.rowTag (t.rowKey b (4096 + i)) = tag ∧ t.entry (512 * b + i) = v) ∧
    (a.late = none → ∀ g, t.rowData (t.rowKey b (t.readRowOf 1 g b h)) = s.rowData (s.rowKey b (s.readRowOf 1 g b h)) ∧
      t.rowTag (t.rowKey b (t.readRowOf 1 g b h)) = s.rowTag (s.rowKey b (s.readRowOf 1 g b h)))

/-- A read through CURRENT by the writing group sees the bytes its last write left, and a PLAIN store outside any version is read by every
view: the enabled bytes are the written ones and the others as before, whatever the row's history (R54, R78, R92).

A group that no open command, sweep or lease holds back advances at cycle 0 of a flip: GEPOCH takes WEPOCH and WEPOCH counts on, so its WORK
entries are DONE and read by every view; a leased group is deferred (R96, R107, R85, R87).
Model's choice: assumption 63. -/
def Obligations.WritesAndFlips : Prop :=
  (∀ (s t : State) (a : Access) (d x : Gran) (be : BitVec 16) (tag y : Bool), a.gran < s.build.granules →
    let b := bankOf s.build a.gran
    let h := homeOf s.build a.gran
    let named := fun (i : Nat) => i < 512 ∧ (s.entry (512 * b + i)).home.toNat = h ∧ s.estateAt b i ≠ .free ∧ s.estateAt b i ≠ .borrowed
    (∀ i j, named i → named j → i = j) → (∀ e, a.late = some e → (e - (s.group a.group.toNat).gepoch).sle 0 = true) → writeGranule a d be tag s = (.ok x y, t) →
    let now := t.rowKey b (t.readRowOf a.view a.group.toNat b h)
    t.rowData now = x ∧ t.rowTag now = tag ∧ (∀ i, i < 16 → be.getLsbD i = true → x.extractLsb' (8 * i) 8 = d.extractLsb' (8 * i) 8) ∧
      t.rowEcc now = none) ∧
  (∀ (s : State) (g : Nat), let x := s.group g
    (x.opens = 0 → x.sweep = false → x.deferred = false → s.leased g = false →
      (flipGroup g s).2 = true ∧ ((flipGroup g s).1.group g).gepoch = x.wepoch ∧ ((flipGroup g s).1.group g).wepoch = x.wepoch + 1 ∧
      (∀ e : Entry, e.group.toNat = g → s.estate e = .work → (flipGroup g s).1.estate e = .done) ∧
      (∀ j, j ≠ g → (flipGroup g s).1.group j = s.group j) ∧ (flipGroup g s).1.mem = s.mem) ∧
    (x.opens = 0 → x.sweep = false → x.deferred = false → s.leased g = true →
      (flipGroup g s).2 = false ∧ (flipGroup g s).1 = s.setGroup g { x with deferred := true }) ∧
    (x.opens ≠ 0 ∨ x.sweep = true → flipGroup g s = (s, false)))

/-- The arbiter of a bank grants its winner: the request leaves the queue, every other request in the arbiter ages by 1 up to 15; a granted read
of a clean row waits for delivery with the data of the row its view reads; a granted PLAIN write of a whole granule that has no version lies in
its home row, and its store retires; without a request nothing happens (R48 to R50, Table 3.5).

Granted data reach the access that waits for them; a scratch access is granted whole, behind those of its core to its granule: a read returns the
granule, a store writes its enabled bytes alone and its instruction retires (R48, R79, R198, R200).
Model's choice: assumptions 7, 22. -/
def Obligations.ArbiterGrants : Prop :=
  (∀ (s : State) (b : Nat), b < 127 * s.build.slices → s.islandOn (17 + b / 127) = true → s.mem.init = none →
    (s.winner b = none → ∀ us, exec (.arbiterGrant b us) s = .next s) ∧
    (∀ w, s.winner b = some w → bankOf s.build w.acc.gran = b →
      let h := homeOf s.build w.acc.gran
      (w.acc.kind = .read → w.pre = none → (∃ c tok, w.acc.dest = .core c tok) ∨ (∃ t i j, w.acc.dest = .npxRd t i j) ∨
          (∃ p e i, w.acc.dest = .podLd p e i) →
        let row := s.rowKey b (s.readRowOf w.acc.view w.acc.group.toNat b h)
        s.rowEcc row = none → Tbl.get none row s.mem.odd = none → ∃ t, exec (.arbiterGrant b []) s = .next t ∧
          t.arb.reqs = s.agedReqs b w ∧ t.arb.arbs = s.arb.arbs + 1 ∧
          t.arb.granted = s.arb.granted ++ [{ id := w.id, dest := w.acc.dest, gran := w.acc.gran, res := .ok (s.rowData row) (s.rowTag row) }] ∧
          t.mem = s.mem ∧ t = { s with arb := t.arb, pmu := { s.pmu with now := t.pmu.now } }) ∧
      (∀ c tok d tag f us, w.acc.kind = .write d 0xFFFF tag → w.acc.view = 0 → w.acc.dest = .core c tok → s.on EPC_STAT_FROZEN = false →
        s.entryFor b h = none → (s.core c).flight = [f] → f.tok = tok → f.kind = .store → f.fail = none → f.done = false →
        let row := s.rowKey b (s.homeRow b h)
        ∃ t, exec (.arbiterGrant b us) s = .next t ∧ t.arb.arbs = s.arb.arbs + 1 ∧ (∀ r ∈ t.arb.reqs, r.id ≠ w.id) ∧ t.rowData row = d ∧
          t.rowTag row = tag ∧ (t.core c).flight = [] ∧ (∀ k, k ≠ row → t.rowData k = s.rowData k)))) ∧
  ((∀ (s : State) (g : Granted) (c : CoreId) (tok p n : Nat) (f : Flight) (d : Gran) (tag : Bool) (v : View),
    s.crp.live = true → s.fld CRP_PWR_STAT_STATE = 1 → s.arb.granted.find? (fun x => decide (x.id = g.id)) = some g → g.dest = .core c tok →
    g.res = .ok d tag → s.view c = some v → (s.core c).flight = [f] → f.tok = tok → f.kind = .load p n → f.fail = none → f.done = false →
    ∃ t v', exec (.smemReadData g.id) s = .next t ∧ t.arb.granted = s.arb.granted.filter (fun x => decide (x.id ≠ g.id)) ∧
      (t.core c).flight = [] ∧ t.view c = some v' ∧
      (∀ j, j < n → Tbl.get 0 (p + j) v'.bank.cells = granWord d (f.addr.toNat % 8 + j)) ∧ t.mem = s.mem) ∧
  (∀ (s : State) (r : ScrReq) (f : Flight) (v : View) (us : List Upset),
    s.crp.live = true → s.coreOff r.core = false → s.scr.reqs.find? (fun x => decide (x.id = r.id)) = some r →
    (∀ x ∈ s.scr.reqs, x.id < r.id → x.core = r.core → x.gran ≠ r.gran) →
    s.view r.core = some v → (s.core r.core).flight = [f] → f.tok = r.tok → f.fail = none → f.done = false →
    (∀ d be tag, r.kind = .write d be tag → f.kind = .store → ∃ t, exec (.scratchGrant (r.id, us)) s = .next t ∧
      t.scr.reqs = s.scr.reqs.filter (fun x => decide (x.id ≠ r.id)) ∧
      (t.core r.core).flight = [] ∧ t.view r.core = some v ∧ t.scrTag r.gran = tag ∧
      (∀ a, Tbl.get 0 a t.scr.bytes = if 16 * r.gran ≤ a ∧ a < 16 * r.gran + 16 ∧ be.getLsbD (a - 16 * r.gran) = true
        then d.extractLsb' (8 * (a - 16 * r.gran)) 8 else Tbl.get 0 a s.scr.bytes) ∧ t.mem = s.mem) ∧
    (∀ p n, r.kind = .read → f.kind = .load p n → ∃ t v', exec (.scratchGrant (r.id, us)) s = .next t ∧
      t.scr.reqs = s.scr.reqs.filter (fun x => decide (x.id ≠ r.id)) ∧ (t.core r.core).flight = [] ∧ t.view r.core = some v' ∧
      v'.regs = v.regs ∧ v'.bank.opd = v.bank.opd ∧
      (∀ j, j < n → Tbl.get 0 (p + j) v'.bank.cells = granWord (s.scrData r.gran) (f.addr.toNat % 8 + j)) ∧
      (∀ j, j < p ∨ p + n ≤ j → Tbl.get 0 j v'.bank.cells = Tbl.get 0 j v.bank.cells) ∧ t.scr.bytes = s.scr.bytes ∧ t.mem = s.mem)))

/-- The scrubber corrects a single error in its row and moves on; the initialiser takes over on a write of INIT and zeroes everything at its end;
a frozen stream memory is not initialised (R55, R59, R60, R111).
Model's choice: assumptions 7, 57, 87. -/
def Obligations.ScrubAndInitialise : Prop :=
  (∀ s : State, s.crp.live = true → s.fld CRP_PWR_STAT_STATE = 1 → s.on SMEM_CFG_SCRUB_EN = true → s.mem.scrubIn = 0 → s.mem.init = none →
    ∀ us, ∃ t, exec (.scrubAccess us) s = .next t ∧ t.mem.scrubRow = (s.mem.scrubRow + 1) % 4608 ∧
      t.mem.scrubIn = 2 ^ s.fld SMEM_CFG_SCRUB_SHIFT ∧ t.mem.bytes = s.mem.bytes) ∧
  (∀ (s : State) (k : Nat), s.crp.live = true → s.fld CRP_PWR_STAT_STATE = 1 → s.on SMEM_CFG_SCRUB_EN = true → s.mem.scrubIn = 0 →
    s.mem.init = none → s.arb.reqs = [] → s.mem.odd = [] → s.mem.ecc = [(k, some .single)] → k % 4608 = s.mem.scrubRow → ∃ t, exec (.scrubAccess []) s = .next t ∧ t.rowEcc k = none ∧
      t.on SMEM_ERR_STAT_CE = true ∧ Tbl.get 0 (k / 4608) t.mem.ceCnt = min (Tbl.get 0 (k / 4608) s.mem.ceCnt + 1) 0xFFFF ∧
      t.mem.scrubRow = (s.mem.scrubRow + 1) % 4608 ∧ t.mem.bytes = s.mem.bytes ∧ t.mem.tags = s.mem.tags) ∧
  (∀ s : State, s.crp.live = true → s.fld CRP_PWR_STAT_STATE = 1 → s.mem.init.isSome = true → ∃ t, exec .initDone s = .next t ∧
    t.mem.init = none ∧ t.fld SMEM_CFG_INIT = 0 ∧ (∀ k, t.rowTag k = false ∧ t.rowEcc k = none ∧ t.rowData k = 0) ∧
    (∀ o, o ≠ SMEM_CFG → t.reg o = s.reg o) ∧ t = { s with regs := t.regs, mem := t.mem }) ∧
  (∀ (s : State) (a : Agent), s.writes a SMEM_CFG → s.mem.init = none →
    (s.on EPC_STAT_FROZEN = false → ∃ t, exec (.smemInit a) s = .next t ∧ t.mem = { s.mem with init := some 0 } ∧
      t.reg SMEM_CFG = s.reg SMEM_CFG ||| 2 ∧ s.onlyRegs t [SMEM_CFG] ∧ t = { s with regs := t.regs, mem := t.mem }) ∧
    (s.on EPC_STAT_FROZEN = true → ∃ t, exec (.smemInit a) s = .next t ∧ t.mem = s.mem ∧ s.onlyRegs t [] ∧ t = { s with regs := t.regs }))

/-! ### Capability registers (Tables 7.18 and 7.19) -/

/-- CMOV and CCLR write their register whole; CDERIVE forms a capability inside Cb, with no permission Cb lacks, or faults by the first check
that fails; CSEAL and CUNSEAL apply and remove the sealer's object type; CPRIOR takes VIEW from CURRENT to PRIOR; a fault leaves every
register; every other register stays (R253 to R255).

The field reads push the fields of Table 9.1 of any register, tagged or not, and fault for none: BASE in three cells and LENGTH in two, low
cell first, PERM, VIEW with GROUP and OTYPE, OWNER, TAG as seen by R8, SKEY (R255). -/
def Obligations.CapabilityRegisters : Prop :=
  (∀ (s : State) (c : CoreId) (v : View) (a b : BitVec 3), s.still c v → v.bounded → ((s.core c).level = 12 → (s.liveKey c).isSome = true) →
    let x := s.capReg c a.toNat
    let y := s.capReg c b.toNat
    let tagged := fun (z : Cap) => z.tag = true ∧ z.owner / 512 < s.build.lss
    let writes := fun (i : Instr) (p : Nat) (z : Cap) => ∃ t v', exec i s = .next t ∧ t.view c = some v' ∧ v.leaves v' p [] ∧
      v'.regs = v.regs.complete none ∧ s.capBecame t c a z ∧ s.onlyCaps t c
    let faults := fun (i : Instr) (cause : BitVec 4) =>
      exec i s = .next ((s.entered c).setCore c { (s.entered c).core c with fault := some ⟨1, cause, 0⟩ })
    writes (.cmov c a b) 0 y ∧ writes (.cclr c a) 0 { bits := 0, tag := false } ∧
    (s.takes c v 5 0 0 0 →
      let off := (v.cell 4).toNat + 65536 * (v.cell 3).toNat
      let len := (v.cell 2).toNat + 65536 * (v.cell 1).toNat
      let perm := (v.cell 0).toNat
      (¬ tagged y → faults (.cderive c a b) 0) ∧ (tagged y → y.otype ≠ 0 → faults (.cderive c a b) 1) ∧
      (tagged y → y.otype = 0 → y.perm / 64 % 2 = 0 → faults (.cderive c a b) 2) ∧
      (tagged y → y.otype = 0 → y.perm / 64 % 2 = 1 → y.length < off + len → faults (.cderive c a b) 3) ∧
      (tagged y → y.otype = 0 → y.perm / 64 % 2 = 1 → off + len ≤ y.length →
        ((∃ k, perm.testBit k = true ∧ y.perm.testBit k = false) → faults (.cderive c a b) 2) ∧
        ((∀ k, perm.testBit k = true → y.perm.testBit k = true) → ∃ z, writes (.cderive c a b) 5 z ∧ z.tag = true ∧
          z.base = (y.base + off) % 2 ^ 40 ∧ z.length = len ∧ z.perm = perm ∧ z.group = y.group ∧ z.view = y.view ∧ z.otype = 0 ∧
          z.owner = y.owner ∧ z.skey = if perm.testBit 7 then y.skey else 0))) ∧
    (let sealer := tagged y ∧ y.otype = 0 ∧ y.perm.testBit 7 = true ∧ y.skey ≠ 0;
      (∀ i ∈ [Instr.cseal c a b, .cunseal c a b], (¬ tagged y → faults i 0) ∧ (tagged y → y.otype ≠ 0 → faults i 1) ∧
        (tagged y → y.otype = 0 → (y.perm.testBit 7 = false ∨ y.skey = 0) → faults i 2) ∧ (sealer → ¬ tagged x → faults i 0)) ∧
      (sealer → tagged x → x.otype ≠ 0 → faults (.cseal c a b) 1) ∧
      (sealer → tagged x → x.otype = 0 → writes (.cseal c a b) 0 (x.with 96 8 y.skey)) ∧
      (sealer → tagged x → (x.otype = 0 ∨ x.otype ≠ y.skey) → faults (.cunseal c a b) 1) ∧
      (sealer → tagged x → x.otype = y.skey → writes (.cunseal c a b) 0 (x.with 96 8 0))) ∧
    (¬ tagged x → faults (.cprior c a) 0) ∧ (tagged x → x.otype ≠ 0 → faults (.cprior c a) 1) ∧
    (tagged x → x.otype = 0 → x.view ≠ 2 → faults (.cprior c a) 2) ∧
    (tagged x → x.otype = 0 → x.view = 2 → writes (.cprior c a) 0 (x.with 94 2 1))) ∧
  (∀ (s : State) (c : CoreId) (v : View) (r : BitVec 3), s.ready c v → s.noRep c v →
    let x := s.capReg c r.toNat
    let n := x.bits.toNat
    let cell := fun (lo w : Nat) => (BitVec.ofNat 16 (n / 2 ^ lo % 2 ^ w) : Word)
    let pushes := fun (i : Instr) (q : Nat) (out : List Word) => s.takes c v 0 q 0 0 → ∃ t v', exec i s = .next t ∧ t.view c = some v' ∧
      v.leaves v' 0 out ∧ v'.regs = v.regs.complete none ∧ s.onlyLevel t c false
    pushes (.cbase c r) 3 [cell 0 16, cell 16 16, cell 32 8] ∧ pushes (.clen c r) 2 [cell 40 16, cell 56 16] ∧
    pushes (.cperm c r) 1 [cell 72 16] ∧
    pushes (.cattr c r) 1 [BitVec.ofNat 16 (n / 2 ^ 94 % 4 + n / 2 ^ 88 % 64 * 4 + n / 2 ^ 96 % 256 * 256)] ∧
    pushes (.cowner c r) 1 [cell 104 14] ∧
    pushes (.ctag c r) 1 [if x.tag = true ∧ x.owner / 512 < s.build.lss then 0xFFFF else 0] ∧ pushes (.cskey c r) 1 [cell 118 8])

/-! ### Vector instructions, traps of SB0 and the scheduler (Table 7.17, chapters 06 and 10) -/

/-- VISSUE and VRESUME hand their request to the allocator, and the core waits for its ticket; VWAIT on an ENDED ticket pushes its status, frees
the ticket and, after a cut or a fault, loads the VPR, on a QUEUED or RUNNING one makes the context leave the core in VWAIT, or the core wait in place at a handler level, and on any
other answers 0x8000; VTEST tells a ticket's state; VPR@ and VPR! read and write a VPR word but for its reserved bits; without a live
sequencer context they answer as R561 and R252 say (R139, R143, R176, R177, R180, R251, R252, R561).

In local scratch, the spill trap moves the eight oldest cells to the segment at OSC, or the four oldest entries down from the segment's end, and
counts them in OSC or RSC; the fill trap moves the newest back under the others; the instruction can then execute. A segment without
room, and a filled entry with bits beyond the PC, are stack faults, the counters unchanged (R207, R211, R341, R342).
Model's choice: assumptions 49, 53. -/
def Obligations.VectorAndSpillInstructions : Prop :=
  (∀ (s : State) (c : CoreId) (v : View), s.still c v → v.bounded → c ≠ .moth →
    let waits := fun (i : Instr) (q : VReq) => exec i s = .next ((s.entered c).setCore c { (s.entered c).core c with vreq := some q })
    let bus := fun (i : Instr) => exec i s = .next ((s.entered c).setCore c { (s.entered c).core c with fault := some ⟨2, 0, 0⟩ })
    let pushes := fun (i : Instr) (w : Word) => ∃ t v', exec i s = .next t ∧ t.view c = some v' ∧ v.leaves v' 1 [w] ∧
      v'.regs = v.regs.complete none ∧ s.onlyLevel t c false
    (∀ r, s.takes c v 2 1 0 0 → (s.vecKey c = none → bus (.vissue c r)) ∧
      (∀ k, s.vecKey c = some k → waits (.vissue c r) { creg := r, off := v.cell 0 ++ v.cell 1, resume := false, since := s.clk.pclk })) ∧
    (s.takes c v 0 1 0 0 → (s.vecKey c = none → bus (.vresume c)) ∧
      (∀ k, s.vecKey c = some k → waits (.vresume c) { creg := 0, off := 0, resume := true, since := s.clk.pclk })) ∧
    (s.takes c v 1 1 0 0 → s.vecKey c = none → pushes (.vwait c) 0x8000 ∧ pushes (.vtest c) 0 ∧ pushes (.vprFetch c) 0) ∧
    (s.takes c v 2 0 0 0 → s.vecKey c = none → ∃ t v', exec (.vprStore c) s = .next t ∧ t.view c = some v' ∧ v.leaves v' 2 [] ∧
      v'.regs = v.regs.complete none ∧ s.onlyLevel t c false) ∧
    (∀ k n ls, s.vecKey c = some k → c = .seq n → s.lsOfSeq n = some ls →
      let tk := if v.cell 0 = 0 ∨ 255 < (v.cell 0).toNat then none else s.ticket ls (v.cell 0).toNat
      (s.takes c v 1 1 0 0 →
        (tk = none → pushes (.vwait c) 0x8000 ∧ pushes (.vtest c) 0) ∧
        (∀ x, tk = some x → pushes (.vtest c) (match x.st with
          | .queued => 1
          | .running => 2
          | .ended => 3)) ∧
        pushes (.vprFetch c) ((s.ctxAt k).vpr.extractLsb' (16 * ((v.cell 0).toNat % 16)) 16) ∧
        (∀ x, tk = some x → x.st = .ended → x.status.getLsbD 8 = false → ∃ t v', exec (.vwait c) s = .next t ∧ t.view c = some v' ∧
          v.leaves v' 1 [x.status] ∧ v'.regs = v.regs.complete none ∧ t.ticket ls (v.cell 0).toNat = none ∧
          (t.ctxAt k).vpr = (if x.status.getLsbD 7 then x.prog ||| 1 else (s.ctxAt k).vpr) ∧ t.mem = s.mem ∧ t.regs = s.regs) ∧
        (∀ x, tk = some x → x.st ≠ .ended → (s.core c).level = 0 → (s.ctxAt k).parkRq = false → ∃ t, exec (.vwait c) s = .next t ∧
          (t.core c).live = none ∧
          t.ctxAt k = { s.ctxAt k with state := .vwait, vpend := true, ticket := BitVec.ofNat 8 (v.cell 0).toNat } ∧
          s.onlyCore t c) ∧
        (∀ x, tk = some x → x.st ≠ .ended → (s.core c).level ≠ 0 →
          exec (.vwait c) s = .next ((s.entered c).setCore c { (s.entered c).core c with vwait := some (v.cell 0).toNat }))) ∧
      (s.takes c v 2 0 0 0 → ∃ t v', exec (.vprStore c) s = .next t ∧ t.view c = some v' ∧ v.leaves v' 2 [] ∧
        v'.regs = v.regs.complete none ∧ s.onlyCore t c ∧
        let w := 16 * ((v.cell 0).toNat % 16)
        ∀ j, (t.ctxAt k).vpr.getLsbD j = (vprMask.getLsbD j &&
          if w ≤ j ∧ j < w + 16 then (v.cell 1).getLsbD (j - w) else (s.ctxAt k).vpr.getLsbD j)))) ∧
  (∀ (s : State) (c : CoreId) (key : Nat) (us : List Upset), s.runs → coreBuilt s.build c = true → s.liveKey c = some key →
    let x := s.ctxAt key
    let cap := Tbl.get Cap.null 7 x.caps
    let osc := x.osc.toNat
    let rsc := x.rsc.toNat
    let opd := x.bank.opd
    let rtd := x.bank.rtd
    let word := fun (t : State) (w : Nat) => granWord (t.scrData (scrGranOfWord w)) w
    x.state = .running → cap.tag = true → cap.owner / 512 < s.build.lss → cap.otype = 0 → cap.perm % 4 = 3 → c ≠ .moth →
    0 < cap.length → 0x10000000 ≤ cap.base → cap.base + cap.length ≤ 0x10000000 + s.build.lss * 0x10000 → cap.base % 2 = 0 →
    cap.length % 2 = 0 → osc % 2 = 0 → (s.core c).level = 0 → s.capReg c 7 = cap → (s.core c).sb0 = Bank.init →
    let others := fun (t : State) => (t.core c).need = none ∧ (t.core c).sb0 = Bank.init ∧
      (∀ k, k ≠ key → (s.ctxAt k).state ≠ .wait → t.ctxAt k = s.ctxAt k) ∧ t.mem.bytes = s.mem.bytes ∧ t.regs = s.regs
    let done := fun (t : State) => (t.core c).fault = (s.core c).fault ∧ others t
    let fails := fun (t : State) (cause : BitVec 4) => (t.core c).fault = some ⟨7, cause, 0⟩ ∧ others t ∧ t.ctxAt key = x ∧
      t.scr.bytes = s.scr.bytes
    ((s.core c).need = some .spillOps → osc + 8 + 2 * rsc ≤ cap.length → ∃ t, exec (.spillTrap c us) s = .next t ∧ done t ∧
      t.ctxAt key = { x with bank := (t.ctxAt key).bank, osc := x.osc + 8 } ∧ (t.ctxAt key).bank.opd = opd - 8 ∧
      (∀ i, Tbl.get 0 i (t.ctxAt key).bank.cells = Tbl.get 0 (if i < opd - 8 then i + 8 else i) x.bank.cells) ∧
      (t.ctxAt key).bank.rtd = rtd ∧ (t.ctxAt key).bank.rets = x.bank.rets ∧
      (∀ i, i < 8 → word t (cap.base + osc + i) = Tbl.get 0 i x.bank.cells) ∧
      (∀ w, 0x10000000 ≤ w → (w < cap.base + osc ∨ cap.base + osc + 8 ≤ w) → word t w = word s w)) ∧
    ((s.core c).need = some .spillRets → osc + 2 * (rsc + 4) ≤ cap.length → ∃ t, exec (.spillTrap c us) s = .next t ∧ done t ∧
      t.ctxAt key = { x with bank := (t.ctxAt key).bank, rsc := x.rsc + 4 } ∧ (t.ctxAt key).bank.rtd = rtd - 4 ∧
      (∀ i, Tbl.get 0 i (t.ctxAt key).bank.rets = Tbl.get 0 (if i < rtd - 4 then i + 4 else i) x.bank.rets) ∧
      (t.ctxAt key).bank.opd = opd ∧ (t.ctxAt key).bank.cells = x.bank.cells ∧
      (∀ i, i < 4 → let w := cap.base + cap.length - 2 * (rsc + i + 1)
        word t w ++ word t (w + 1) = (((Tbl.get 0 i x.bank.rets).extractLsb' 0 16 ++
          BitVec.zeroExtend 16 ((Tbl.get 0 i x.bank.rets).extractLsb' 16 6) : BitVec 32)))) ∧
    ((s.core c).need = some .fillOps → 0 < osc → osc ≤ cap.length → let m := min 8 osc
      ∃ t, exec (.fillTrap c us) s = .next t ∧ done t ∧
      t.ctxAt key = { x with bank := (t.ctxAt key).bank, osc := BitVec.ofNat 16 (osc - m) } ∧ (t.ctxAt key).bank.opd = opd + m ∧
      (∀ i, i < m → Tbl.get 0 i (t.ctxAt key).bank.cells = word s (cap.base + osc - m + i)) ∧
      (∀ i, m ≤ i → Tbl.get 0 i (t.ctxAt key).bank.cells = Tbl.get 0 (if i < m + opd then i - m else i) x.bank.cells) ∧
      t.scr.bytes = s.scr.bytes ∧ t.scr.tags = s.scr.tags) ∧
    ((s.core c).need = some .fillRets → 0 < rsc → 2 * rsc ≤ cap.length → let m := min 4 rsc
      let w := fun (i : Nat) => cap.base + cap.length - 2 * (rsc - m + i + 1)
      ((∀ i, i < m → (word s (w i + 1)).toNat < 64) → ∃ t, exec (.fillTrap c us) s = .next t ∧ done t ∧
        t.ctxAt key = { x with bank := (t.ctxAt key).bank, rsc := BitVec.ofNat 16 (rsc - m) } ∧ (t.ctxAt key).bank.rtd = rtd + m ∧
        (∀ i, i < m → (Tbl.get 0 i (t.ctxAt key).bank.rets).toNat = (word s (w i)).toNat + 65536 * (word s (w i + 1)).toNat) ∧
        (∀ i, m ≤ i → Tbl.get 0 i (t.ctxAt key).bank.rets = Tbl.get 0 (if i < m + rtd then i - m else i) x.bank.rets) ∧
        t.scr.bytes = s.scr.bytes ∧ t.scr.tags = s.scr.tags) ∧
      ((∃ i, i < m ∧ 64 ≤ (word s (w i + 1)).toNat) → ∃ t, exec (.fillTrap c us) s = .next t ∧ fails t 3)) ∧
    ((s.core c).need = some .spillOps → cap.length < osc + 8 + 2 * rsc → ∃ t, exec (.spillTrap c us) s = .next t ∧ fails t 1) ∧
    ((s.core c).need = some .spillRets → cap.length < osc + 2 * (rsc + 4) → ∃ t, exec (.spillTrap c us) s = .next t ∧ fails t 1))

/-! ### Register accesses (chapters 01, 02 and the register tables) -/

/-- A read of each register whose read clears it answers the value it held and clears exactly the bits its table marks RC; POOL_CNT0 loads
POOL_CNT1 from the same instant, CE_CNT clears the selected count, the read of an even counter of a pair loads PMU_CHI (R20, R22, R72, R112,
R284, R315, R383, R437, R443, R460, R467, R524).

The reads that take something: a capture register's HI half ends its valid bit, a terminal's FIFO loses its oldest byte, a claim of the
supervisor or Moth target makes the first pending event of its TOP priority no longer pending and answers it with its PRIO and COUNT,
or NONE; a sequencer target answers its last automatic claim (R409, R414, R416, R440, R494).
Model's choice: assumption 61. -/
def Obligations.RegisterReads : Prop :=
  (∀ (s : State) (a : Agent),
    let clears := fun (i : Instr) (off : Nat) (mask : Reg) => s.reads a off → ∃ t, exec i s = .next t ∧ s.readCleared t a off mask
    clears (.allocWaitRead a) POD_ALLOC_WAIT 0xFFFFFF ∧
    (∀ c, coreBuilt s.build c = true → c ≠ .moth →
      clears (.seqDetRead a c true) (SEQ_DET_CNT (corePage c)) 0xFFFFFFFF ∧ clears (.seqDetRead a c false) (SEQ_DET_STAT (corePage c)) 0xFFFF0000) ∧
    (∀ c, coreBuilt s.build c = true → clears (.seqExcCntRead a c) (SEQ_EXC_CNT (corePage c)) 0xFFFFFFFF) ∧
    (∀ l, l < 4 → clears (.linkCntRead a l) (WIAN_LINK_CNT l) 0xFFFFFFFF) ∧
    (∀ k, k < 32 → clears (.cmpStatRead a k) (TBU_CMP_STAT k) 0xFFFF0000) ∧
    clears (.tickStatRead a) TBU_TICK_STAT 0xFFFF0000 ∧ clears (.pmuRlCntRead a) PMU_RL_CNT 0xFFFFFFFF ∧
    (∀ p, p < 20 → clears (.pmuBwMaxRead a p) (PMU_BW_MAX p) 0xFFFFFFFF) ∧ clears (.secRefuseRead a) SEC_REFUSE 0xFFFFFFFF ∧
    (s.reads a SMEM_CE_CNT → let k := s.fld SMEM_CE_SEL_SLICE * 128 + s.fld SMEM_CE_SEL_PBANK
      ∃ t, exec (.smemCeCntRead a) s = .next t ∧ s.answered t a SMEM_CE_CNT (BitVec.ofNat 32 (Tbl.get 0 k s.mem.ceCnt)) ∧
        Tbl.get 0 k t.mem.ceCnt = 0 ∧ (∀ j, j ≠ k → Tbl.get 0 j t.mem.ceCnt = Tbl.get 0 j s.mem.ceCnt) ∧
        t = { s with mem := { s.mem with ceCnt := t.mem.ceCnt }, replies := t.replies }) ∧
    (s.reads a EPC_POOL_CNT0 → let b := s.fld EPC_POOL_SEL_SLICE * 127 + s.fld EPC_POOL_SEL_LBANK
      ∃ t, exec (.poolCnt0Read a) s = .next t ∧ s.answered t a EPC_POOL_CNT0
          (BitVec.ofNat 32 (s.countState b .free + s.countState b .work * 1024 + s.countState b .done * 1048576)) ∧
        t.reg EPC_POOL_CNT1 = BitVec.ofNat 32 (s.countState b .stale + s.countState b .borrowed * 1024) ∧
        s.onlyRegs t [EPC_POOL_CNT1] ∧ t = { s with regs := t.regs, replies := t.replies }) ∧
    (∀ k, k < 256 → s.reads a (PMU_CNT k) → ∃ t, exec (.pmuCntRead a k) s = .next t ∧ s.answered t a (PMU_CNT k) (s.reg (PMU_CNT k)) ∧
        t = { s with regs := t.regs, replies := t.replies } ∧
        (if k % 2 = 0 ∧ s.chained (k + 1) = true then t.reg PMU_CHI = s.carried (k + 1) ∧ t.fld PMU_CHI_PAIR_K = k / 2 ∧
            t.on PMU_CHI_PAIR_VALID = true ∧ s.onlyRegs t [PMU_CHI, PMU_CHI_PAIR]
          else t.regs = s.regs)) ∧
    (s.reads a MOTH_RAIL_DATA → ∃ t, exec (.railDataRead a) s = .next t ∧ s.answered t a MOTH_RAIL_DATA (s.reg MOTH_RAIL_DATA) ∧
        t.fld MOTH_RAIL_DATA_MIN = 0 ∧ t.fld MOTH_RAIL_DATA_A = s.fld MOTH_RAIL_DATA_A ∧ t.hlt.minSet = false ∧
        s.onlyRegs t [MOTH_RAIL_DATA] ∧ t = { s with regs := t.regs, replies := t.replies, hlt := { s.hlt with minSet := false } }) ∧
    (s.reads a HLT_THERM_DATA → let n := s.fld HLT_THERM_SEL_SENSOR
      ∃ t, exec (.thermDataRead a) s = .next t ∧ s.answered t a HLT_THERM_DATA (BitVec.ofNat 32
          (((Tbl.get none n s.hlt.temp).getD 0).toNat + ((Tbl.get none n s.hlt.hot).getD 0).toNat * 2 ^ 16)) ∧
        Tbl.get none n t.hlt.hot = none ∧ (∀ j, j ≠ n → Tbl.get none j t.hlt.hot = Tbl.get none j s.hlt.hot) ∧
        t = { s with hlt := { s.hlt with hot := t.hlt.hot }, replies := t.replies })) ∧
  (∀ (s : State) (a : Agent),
    (∀ j, j < 16 →
      let takes := fun (i : Instr) (off : Nat) (valid : Fld) => s.reads a off → ∃ t, exec i s = .next t ∧ s.answered t a off (s.reg off) ∧
        t.fld valid = 0 ∧ (∀ f, f.off = TBU_CAP_STAT j → f.lo ≠ valid.lo → f.w = 1 → f.lo < 32 → t.fld f = s.fld f) ∧
        s.onlyRegs t [TBU_CAP_STAT j] ∧ t = { s with regs := t.regs, replies := t.replies }
      takes (.capRiseRead a j) (TBU_CAP_RISE_HI j) (TBU_CAP_STAT_RV j) ∧ takes (.capFallRead a j) (TBU_CAP_FALL_HI j) (TBU_CAP_STAT_FV j) ∧
        takes (.capWidthRead a j) (TBU_CAP_WIDTH j) (TBU_CAP_STAT_WV j)) ∧
    (∀ ch, ch < 4 →
      (s.reads a (DBG_VT_CDATA ch) → ∃ t, exec (.vtCdataRead a ch) s = .next t ∧ s.answered t a (DBG_VT_CDATA ch) (vtHead (s.vtRx ch)) ∧
        t.vtRx ch = (s.vtRx ch).tail ∧ (∀ k, k ≠ ch → t.vtRx k = s.vtRx k) ∧
        t = { s with dbg := { s.dbg with rx := t.dbg.rx }, replies := t.replies }) ∧
      (s.crp.live = true → s.on DBG_AUTH_STAT_GRANTED = true → ∃ t, exec (.vtDdataRead ch) s = .next t ∧
        s.answered t .dap (DBG_VT_DDATA ch) (vtHead (s.vtTx ch)) ∧ t.vtTx ch = (s.vtTx ch).tail ∧ (∀ k, k ≠ ch → t.vtTx k = s.vtTx k) ∧
        t = { s with dbg := { s.dbg with tx := t.dbg.tx }, replies := t.replies }) ∧
      (s.crp.live = true → s.on DBG_AUTH_STAT_GRANTED = false → ∃ t, exec (.vtDdataRead ch) s = .next t ∧
        s.answered t .dap (DBG_VT_DDATA ch) 0 ∧ t = { s with replies := t.replies })) ∧
    (∀ n, n < s.build.lss → s.reads a (EVC_TGT_CLAIM n) → ∃ t, exec (.evcClaim a n) s = .next t ∧
      s.answered t a (EVC_TGT_CLAIM n) (s.target n).claim ∧ t = { s with replies := t.replies }) ∧
    (∀ n, n = 32 ∨ n = 33 → s.reads a (EVC_TGT_CLAIM n) →
      (s.claimable n = none → ∃ t, exec (.evcClaim a n) s = .next t ∧ s.answered t a (EVC_TGT_CLAIM n) 0x8000 ∧
        t = { s with replies := t.replies }) ∧
      (∀ e, s.claimable n = some e → ∃ t, exec (.evcClaim a n) s = .next t ∧
        s.answered t a (EVC_TGT_CLAIM n) (BitVec.ofNat 32 (e + (s.source e).prio * 2 ^ 9 + (s.source e).count.toNat * 2 ^ 16)) ∧
        (t.source e).pend = false ∧ (t.target n).clts = (s.source e).ts ∧ (t.target n).stack = (s.target n).stack ∧
        (∀ x, x ≠ e → t.source x = s.source x) ∧ (∀ x, x ≠ n → t.target x = s.target x) ∧
        t = { s with evc := { s.evc with src := t.evc.src, tgt := t.evc.tgt }, pmu := { s.pmu with now := t.pmu.now },
                     replies := t.replies })))

/-- A register write by an agent its port lets through changes the RW bits of the register alone; a reserved encoding leaves its field; a W1C bit
clears where 1 is written; a write that nothing answers, or that SEC refuses and counts, is answered so and changes no register of the
unit; the aperture writes the page of every selected sequencer, and waits for the swap window (R13, R14, R19, R37, R372, R524).
Model's choice: assumptions 40, 43, 61. -/
def Obligations.RegisterWrites : Prop :=
  (∀ (s : State) (a : Agent) (v m : Reg) (off : Nat), s.writes a off →
    (off, m) ∈ ([(SMEM_CE_SEL, 0x7FF), (EPC_GSEL, 0x3F), (EVC_SRC_SEL, 0x1FF), (TBU_TB_SET_LO, 0xFFFFFFFF), (TBU_GRP_PER, 0xFFFFFFFF),
      (MOTH_WATCH, 0xFFFFFFFF), (HLT_CE_CFG, 0x1FFFFF), (WIAN_RT_IDX, 0xFFF), (HIF_POST 0, 0xFFFFFFFF), (CRP_PWR_CFG, 1)] : List (Nat × Reg)) →
    ∃ t, exec (.regWrite a off v) s = .next t ∧ t.reg off = (s.reg off &&& ~~~m) ||| (v &&& m) ∧ s.onlyRegs t [off] ∧
      t = { s with regs := t.regs }) ∧
  (∀ (s : State) (a : Agent) (v : Reg), s.writes a PMU_BW_CFG → ∃ t, exec (.regWrite a PMU_BW_CFG v) s = .next t ∧
    t.fld PMU_BW_CFG_WEXP = (if 10 ≤ v.toNat % 32 ∧ v.toNat % 32 ≤ 24 then v.toNat % 32 else s.fld PMU_BW_CFG_WEXP) ∧
    s.onlyRegs t [PMU_BW_CFG] ∧ t = { s with regs := t.regs }) ∧
  (∀ (s : State) (a : Agent) (v : Reg), s.writes a SMEM_ERR_STAT → ∃ t, exec (.regWrite a SMEM_ERR_STAT v) s = .next t ∧
    t.reg SMEM_ERR_STAT = s.reg SMEM_ERR_STAT &&& ~~~(v &&& 0xF) ∧ s.onlyRegs t [SMEM_ERR_STAT] ∧ t = { s with regs := t.regs }) ∧
  (∀ (s : State) (a : Agent) (off : Nat) (v : Reg), agentBuilt s.build a = true → s.agentOn a = true →
    (s.gate a true off = .error → s.mirrorDead a off = false →
      exec (.regWrite a off v) s = .next { s with replies := s.replies ++ [{ agent := a, off := off, data := none }] }) ∧
    (∀ k, s.gate a true off = .refused k → s.evcOn = true → ∃ t, exec (.regWrite a off v) s = .next t ∧
      t.replies = s.replies ++ [{ agent := a, off := off, data := none }] ∧
      t.fld ⟨SEC_REFUSE, 8 * k, 8⟩ = min (s.fld ⟨SEC_REFUSE, 8 * k, 8⟩ + 1) 255 ∧ s.onlyRegs t [SEC_REFUSE, SEC_AUD_SEQ, SEC_AUD_STAT] ∧
      t = { s with regs := t.regs, sec := t.sec, evc := t.evc, replies := t.replies })) ∧
  (∀ (s : State) (a : Agent) (o : BitVec 22) (v : Reg), s.writes a (0x800000 + o.toNat) → o.toNat % 0x100000 = 0x60 →
    1 ≤ bitsOf v.toNat 8 4 → bitsOf v.toNat 8 4 ≤ 8 →
    let sel := fun (n : Nat) => n < s.build.lss ∧ (s.reg (HIF_BCAST_SEQ (o.toNat / 0x100000))).getLsbD n = true
    let off := fun (n : Nat) => SEQ_SCHED_CFG (corePage (s.lsCore n))
    (s.castWaits = true → ∃ t, exec (.broadcastWrite a o v) s = .next t ∧ t.hif.casts.length = s.hif.casts.length + 1 ∧
      t = { s with hif := { s.hif with casts := t.hif.casts } }) ∧
    (s.castWaits = false → ∃ t, exec (.broadcastWrite a o v) s = .next t ∧
      (∀ n, sel n → t.reg (off n) = (s.reg (off n) &&& ~~~(0xFFF : Reg)) ||| (v &&& 0xFFF)) ∧
      (∀ x, (∀ n, sel n → x ≠ off n) → t.reg x = s.reg x) ∧ t = { s with regs := t.regs }))

/-! ### Contexts (chapter 10) -/

/-- At a context-level boundary with nothing in flight, the live context leaves its core PARKED with PCAUSE BUDGET when BUDGET reached 0, which
E(64 + 2n) reports, and READY with AGE 0 when its quantum is used up and another is READY; a PARK command that waited makes it PARKED
instead; nothing else of it changes (R329, R331, R337, R338, Table 10.3).

A sequencer without a live context dispatches the READY context that has been urgent longest, else the one of greatest PRIO + AGE div
AGE_STEP, then greatest AGE, then lowest slot; every other READY context of the sequencer ages by 1 up to 15 and is urgent from then on
(R330); the supervisor runs its lowest bank not in WAIT (R346).

The context mover writes back a PARKED or FREE context that is not live, and outside DET moves a READY context into an empty bank; its record
is the same in either place (R333, R334).
Model's choice: assumptions 7, 101. -/
def Obligations.ContextSwitches : Prop :=
  (∀ (s : State) (p l x : Nat), let c := CoreId.seq p
    coreBuilt s.build c = true → s.coreOff c = false → s.lsOfSeq p = some l → (s.core c).live = some x → (s.core c).level = 0 →
    s.atRest c = true → (s.core c).need = none → (s.core c).flight = [] →
    let key := l * 512 + x
    let y := s.ctxAt key
    let left := fun (t : State) (y' : Ctx) => t.ctxAt key = y' ∧ (∀ k, k ≠ key → t.ctxAt k = s.ctxAt k) ∧
      (∀ k, k ≠ coreKey c → t.coreAt k = s.coreAt k) ∧ (t.core c).live = none ∧ (t.core c).rsv = none ∧
      (t.core c).resident = (s.core c).resident ∧ (t.core c).cs = (s.core c).cs ∧ (t.core c).sv = (s.core c).sv
    (y.budEn = true → y.budget = 0 → ∃ t, exec (.budgetExhausted c) s = .next t ∧
      left t { y with state := .parked, pcause := 4, parkRq := false } ∧ t.on (SEQ_SCHED_STAT_PARK (corePage c)) = true ∧
      s.onlyRegs t [SEQ_SCHED_STAT (corePage c)] ∧ s.raises t [64 + 2 * l] ∧
      t = { endPieces c s with cores := t.cores, ctxs := t.ctxs, regs := t.regs, evc := t.evc }) ∧
    (let q := s.fld (SEQ_SCHED_CFG_QUANTUM (corePage c));
      0 < q → q * 64 ≤ (s.core c).quantum → (∃ z, z < 512 ∧ z ≠ x ∧ (s.ctxAt (l * 512 + z)).state = .ready) →
      ∃ t, exec (.quantumExpiry c) s = .next t ∧
        left t (if y.parkRq then { y with state := .parked, pcause := 1, age := 0, urgent := none, warm := false, parkRq := false }
          else { y with state := .ready, age := 0, urgent := none }) ∧ t = { endPieces c s with cores := t.cores, ctxs := t.ctxs })) ∧
  ((∀ (s : State) (p l x : Nat), let c := CoreId.seq p
    coreBuilt s.build c = true → s.coreOff c = false → s.lsOfSeq p = some l → (s.core c).live = none → (s.core c).level = 0 →
    s.atRest c = true → x < 512 →
    let ctx := fun (z : Nat) => s.ctxAt (l * 512 + z)
    let ready := fun (z : Nat) => z < 512 ∧ (ctx z).state = .ready
    let rank := fun (z : Nat) => (ctx z).prio.toNat + (ctx z).age.toNat / s.fld (SEQ_SCHED_CFG_AGE_STEP (corePage c))
    ready x →
    ((∃ i, (ctx x).urgent = some i ∧ ∀ z j, ready z → z ≠ x → (ctx z).urgent = some j → i < j ∨ (i = j ∧ x < z)) ∨
     ((∀ z, ready z → (ctx z).urgent = none) ∧ ∀ z, ready z → z ≠ x → rank z < rank x ∨ (rank z = rank x ∧
        ((ctx z).age.toNat < (ctx x).age.toNat ∨ ((ctx z).age = (ctx x).age ∧ x < z))))) →
    ∃ t, exec (.contextDispatch c) s = .next t ∧ (t.core c).live = some x ∧ (t.core c).quantum = 0 ∧
      t.ctxAt (l * 512 + x) = { ctx x with state := .running, age := 0, urgent := none, pflt := false } ∧
      (∀ z, ready z → z ≠ x → t.ctxAt (l * 512 + z) = if (ctx z).age.toNat < 15 then
        { ctx z with age := (ctx z).age + 1, urgent := if (ctx z).age.toNat = 14 then some ((s.core c).disp + 1) else (ctx z).urgent }
        else ctx z) ∧
      (∀ z, z < 512 → (ctx z).state ≠ .ready → t.ctxAt (l * 512 + z) = ctx z) ∧
      (∀ k, (k < l * 512 ∨ (l + 1) * 512 ≤ k) → t.ctxAt k = s.ctxAt k) ∧
      (∀ b, (s.core c).bankOf x = some b → (t.core c).resident = (s.core c).resident) ∧
      ((s.core c).bankOf x = none → Tbl.get none 1 (s.core c).resident = none →
        (t.core c).resident = Tbl.set none 1 (some x) (s.core c).resident) ∧
      (t.core c).fault = (if (ctx x).pflt then some ⟨(ctx x).vpr.extractLsb' 4 4, (ctx x).vpr.extractLsb' 8 4, 0⟩ else (s.core c).fault) ∧
      (∀ k, k ≠ coreKey c → t.coreAt k = s.coreAt k) ∧
      t = { s with cores := t.cores, ctxs := t.ctxs, pmu := { s.pmu with now := t.pmu.now } }) ∧
  (∀ (s : State) (b : Nat), s.coreOff .sup = false → (s.core .sup).level = 0 → s.atRest .sup = true → (s.core .sup).need = none →
    (s.core .sup).flight = [] → (s.core .sup).live ≠ some b → 1 ≤ b → b ≤ 4 → (s.ctxAt (0x4000 + b)).state ≠ .wait →
    (∀ d, 1 ≤ d → d < b → (s.ctxAt (0x4000 + d)).state = .wait) →
    ∃ t, exec (.contextDispatch .sup) s = .next t ∧ (t.core .sup).live = some b ∧ (endPieces .sup s).onlyCore t .sup ∧ t.ctxs = s.ctxs)) ∧
  (∀ (s : State) (p l : Nat) (x : BitVec 9), let c := CoreId.seq p
    coreBuilt s.build c = true → s.coreOff c = false → s.lsOfSeq p = some l →
    let k := s.core c
    let y := s.ctxAt (l * 512 + x.toNat)
    (∀ b, k.bankOf x.toNat = some b → k.live ≠ some x.toNat → y.state = .parked ∨ y.state = .free →
      exec (.contextEvict c x) s = .next (s.setCore c { k with resident := Tbl.set none b none k.resident })) ∧
    (k.live = some x.toNat → exec (.contextEvict c x) s = .next s) ∧
    (k.det = false → y.state = .ready → k.bankOf x.toNat = none →
      (∀ z, z < 512 → z ≠ x.toNat → (s.ctxAt (l * 512 + z)).state = .ready → k.bankOf z ≠ none) →
      ∀ b, 1 ≤ b → b ≤ 4 → Tbl.get none b k.resident = none → (∀ d, 1 ≤ d → d < b → Tbl.get none d k.resident ≠ none) →
      exec (.contextLoad c x) s = .next (s.setCore c { k with resident := Tbl.set none b (some x.toNat) k.resident,
                                                               lastLive := Tbl.set 0 b (k.disp + 1) k.lastLive })) ∧
    (k.det = true → exec (.contextLoad c x) s = .next s))

/-- Each context command acts on its slot as Table 10.5 gives, by the slot's state, on that record alone; a refused one sets CMDERR and changes
nothing else (R339).

The record window writes a FREE or PARKED context's selected word as Table 10.1 lays it out, and clears a capability's tag when one of its
words changes; another context's write only sets CMDERR (R347). The save-set window writes the selected word of a save set, GTC or a
handler set, and clears the tag of a capability it writes (R317, R321).
Model's choice: assumptions 68, 71. -/
def Obligations.ContextCommands : Prop :=
  (∀ (s : State) (n : Nat) (slot : BitVec 9), n < s.build.lss → s.pageOn (corePage (s.lsCore n)) = true →
    let c := s.lsCore n
    let key := n * 512 + slot.toNat
    let y := s.ctxAt key
    let sets := fun (i : Instr) (y' : Ctx) => ∃ t, exec i s = .next t ∧ t.ctxAt key = y' ∧ (∀ k, k ≠ key → t.ctxAt k = s.ctxAt k) ∧
      t = { s with ctxs := t.ctxs }
    let refused := fun (i : Instr) => ∃ t, exec i s = .next t ∧ t.reg (SEQ_SCHED_STAT (corePage c)) =
      s.reg (SEQ_SCHED_STAT (corePage c)) ||| 0x20000000 ∧ s.onlyRegs t [SEQ_SCHED_STAT (corePage c)] ∧ t = { s with regs := t.regs }
    let ready := { y with state := .ready, age := 0, urgent := none }
    (if y.state = .free then sets (.ctxLoad n slot) ready else refused (.ctxLoad n slot)) ∧
    (match y.state with
      | .free | .vwait => refused (.ctxWake n slot)
      | .ready | .running => sets (.ctxWake n slot) y
      | .wait => sets (.ctxWake n slot) { ready with warm := false }
      | .parked => sets (.ctxWake n slot) { ready with pcause := 0, vpend := false }) ∧
    ((∀ k, s.liveKey c = some k → (s.ctxAt k).parkRq = false) → match y.state with
      | .free => refused (.ctxPark n slot)
      | .ready | .vwait => sets (.ctxPark n slot) { y with state := .parked, pcause := 1 }
      | .wait => sets (.ctxPark n slot) { y with state := .parked, pcause := 1, warm := false }
      | .parked => sets (.ctxPark n slot) y
      | .running => ((s.core c).level ≠ 0 → sets (.ctxPark n slot) { y with parkRq := true }) ∧
        ((s.core c).live = some slot.toNat → (s.core c).level = 0 → s.atRest c = true → (s.core c).need = none → (s.core c).flight = [] →
          ∃ t, exec (.ctxPark n slot) s = .next t ∧ t.ctxAt key = { y with state := .parked, pcause := 1 } ∧ (t.core c).live = none ∧
            (endPieces c s).onlyCore t c)) ∧
    (match y.state with
      | .running | .vwait => refused (.ctxFree n slot)
      | .free => sets (.ctxFree n slot) y
      | .ready | .wait | .parked => ∃ t, exec (.ctxFree n slot) s = .next t ∧ (t.ctxAt key).state = .free ∧
          (∀ r, r < 8 → Tbl.get Cap.null r (t.ctxAt key).caps = { Tbl.get Cap.null r y.caps with tag := false }) ∧
          (∀ j, (t.ctxAt key).vpr.getLsbD j = (y.vpr.getLsbD j && decide (j ≠ 0))) ∧
          t.ctxAt key = { y with state := .free, vpend := false, caps := (t.ctxAt key).caps, vpr := (t.ctxAt key).vpr } ∧
          (∀ k, k ≠ key → t.ctxAt k = s.ctxAt k) ∧ t = { s with ctxs := t.ctxs }) ∧
    (if y.state = .free then refused (.ctxSetbud n slot) else sets (.ctxSetbud n slot) { y with
      budget := BitVec.ofNat 24 (s.fld (SEQ_CTX_BUD_VALUE (corePage c))), budEn := s.on (SEQ_CTX_BUD_EN (corePage c)) }) ∧
    exec (.ctxCmdNone n slot) s = .next s) ∧
  ((∀ (s : State) (n : Nat) (v : Reg), n < s.build.lss → s.pageOn (corePage (s.lsCore n)) = true →
    let pg := corePage (s.lsCore n)
    let key := n * 512 + s.fld (SEQ_CTX_SEL_SLOT pg)
    let w := s.fld (SEQ_CTX_SEL_WORD pg)
    let y := s.ctxAt key
    let open' := y.state = .free ∨ y.state = .parked
    (¬ open' → ∃ t, exec (.ctxDataWrite n v) s = .next t ∧ t.on (SEQ_SCHED_STAT_CMDERR pg) = true ∧ s.onlyRegs t [SEQ_SCHED_STAT pg] ∧
      t = { s with regs := t.regs }) ∧
    (open' → ∃ t, exec (.ctxDataWrite n v) s = .next t ∧ (∀ k, k ≠ key → t.ctxAt k = s.ctxAt k) ∧ t = { s with ctxs := t.ctxs } ∧
      let z := t.ctxAt key
      (w < 32 → let c := Tbl.get Cap.null (w / 4) y.caps
        let c' := Tbl.get Cap.null (w / 4) z.caps
        c'.bits.extractLsb' (32 * (w % 4)) 32 = v ∧ (∀ j, j < 4 → j ≠ w % 4 → c'.word j = c.word j) ∧
        c'.tag = (c.tag && decide (c.word (w % 4) = v)) ∧ (∀ r, r ≠ w / 4 → Tbl.get Cap.null r z.caps = Tbl.get Cap.null r y.caps) ∧
        z = { y with caps := z.caps }) ∧
      (32 ≤ w → w < 40 → (∀ j, z.vpr.getLsbD j = (vprMask.getLsbD j &&
          if 32 * (w - 32) ≤ j ∧ j < 32 * (w - 31) then v.getLsbD (j - 32 * (w - 32)) else y.vpr.getLsbD j)) ∧ z = { y with vpr := z.vpr }) ∧
      (40 ≤ w → w < 48 → let i := 2 * (w - 40)
        Tbl.get 0 i z.bank.cells = v.extractLsb' 0 16 ∧ Tbl.get 0 (i + 1) z.bank.cells = v.extractLsb' 16 16 ∧
        (∀ j, j ≠ i → j ≠ i + 1 → Tbl.get 0 j z.bank.cells = Tbl.get 0 j y.bank.cells) ∧
        z = { y with bank := { y.bank with cells := z.bank.cells } }) ∧
      (48 ≤ w → w < 56 → Tbl.get 0 (w - 48) z.bank.rets = v.extractLsb' 0 22 ∧
        (∀ j, j ≠ w - 48 → Tbl.get 0 j z.bank.rets = Tbl.get 0 j y.bank.rets) ∧ z = { y with bank := { y.bank with rets := z.bank.rets } }) ∧
      (w = 56 → z = { y with r := { y.r with pc := v.extractLsb' 0 22 } }) ∧
      (w = 57 → z = { y with r := { y.r with rc := v.extractLsb' 0 16, lc := v.extractLsb' 16 16 } }) ∧
      (w = 58 → z = { y with r := { y.r with ls := v.extractLsb' 0 22 } }) ∧ (w = 59 → z = { y with r := { y.r with le := v.extractLsb' 0 22 } }) ∧
      (w = 60 → z.bank.opd = (if v.toNat % 32 ≤ 16 then v.toNat % 32 else y.bank.opd) ∧
        z.bank.rtd = (if v.toNat / 256 % 16 ≤ 8 then v.toNat / 256 % 16 else y.bank.rtd) ∧
        z.r.fl = { z := v.getLsbD 16, s := v.getLsbD 17, c := v.getLsbD 18, v := v.getLsbD 19 } ∧
        z = { y with bank := { y.bank with opd := z.bank.opd, rtd := z.bank.rtd }, r := { y.r with fl := z.r.fl } }) ∧
      (w = 61 → z = { y with osc := v.extractLsb' 0 16, rsc := v.extractLsb' 16 16 }) ∧
      (w = 62 → z = { y with budget := v.extractLsb' 0 24, ticket := v.extractLsb' 24 8 }) ∧
      (w = 63 → z = { y with prio := v.extractLsb' 4 3, budEn := v.getLsbD 7 }))) ∧
  (∀ (s : State) (c : CoreId) (v : Reg), coreBuilt s.build c = true → s.pageOn (corePage c) = true →
    let set := s.fld (SEQ_SVW_SEL_SET (corePage c))
    let i := s.fld (SEQ_SVW_SEL_INDEX (corePage c))
    ∃ t, exec (.svwDataWrite c v) s = .next t ∧ t = { s with cores := t.cores } ∧ (∀ k, k ≠ coreKey c → t.coreAt k = s.coreAt k) ∧
      t.core c = { s.core c with sv := (t.core c).sv, gtc := (t.core c).gtc, cs := (t.core c).cs } ∧
      (set ≤ 9 → (∀ j, j ≠ set → Tbl.get SaveSet.init j (t.core c).sv = Tbl.get SaveSet.init j (s.core c).sv) ∧
        (6 ≤ i → i < 38 → let x' := Tbl.get Cap.null ((i - 6) / 4) (Tbl.get SaveSet.init set (t.core c).sv).caps
          x'.word ((i - 6) % 4) = v ∧ x'.tag = false)) ∧
      (9 < set → (t.core c).sv = (s.core c).sv) ∧
      (set = 15 → 6 ≤ i → i < 10 → (t.core c).gtc.word (i - 6) = v ∧ (t.core c).gtc.tag = false) ∧
      (set ≠ 15 → (t.core c).gtc = (s.core c).gtc) ∧ (set < 16 → (t.core c).cs = (s.core c).cs) ∧
      (16 ≤ set → 6 ≤ i → i < 38 → let j := 8 * (set - 16) + (i - 6) / 4
        let x' := Tbl.get Cap.null j (t.core c).cs
        x'.word ((i - 6) % 4) = v ∧ x'.tag = false ∧
        ∀ r, r ≠ j → Tbl.get Cap.null r (t.core c).cs = Tbl.get Cap.null r (s.core c).cs)))

/-! ### The mint path and program memory (chapters 08 and 09) -/

/-- A GO of the supervisor core in mint mode builds a tagged, unsealed capability from the SUP_MINT registers; in copy mode it takes the
register of its own context; BUSY is set; a GO while BUSY, and any other agent's, changes nothing (R299 to R301).

The mint path ends: it writes its capability to the target and sets DONE, or writes nothing and sets ERR with the first of ECAUSE 5, 1, 2,
3, 4 that applies, of which only 5 and 2 apply to a copy (R300, R301, R302, R340).
Model's choice: assumptions 46, 74. -/
def Obligations.MintSequences : Prop :=
  ((∀ (s : State) (src : BitVec 3), s.writes (.core .sup) SUP_MINT_CTL → s.on SUP_MINT_STAT_BUSY = false →
    let starts := fun (i : Instr) (copy : Bool) => ∃ t j, exec i s = .next t ∧ t.mint = some j ∧ j.copy = copy ∧ j.target = s.mintTarget ∧
      t.on SUP_MINT_STAT_BUSY = true ∧ t.on SUP_MINT_CTL_GO = true ∧ s.onlyRegs t [SUP_MINT_STAT, SUP_MINT_CTL] ∧
      t = { s with regs := t.regs, mint := t.mint } ∧ (if copy then j.cap = s.capReg .sup src.toNat else
        j.cap.tag = true ∧ j.cap.base = (s.reg64 SUP_MINT_BASE_LO SUP_MINT_BASE_HI).toNat % 2 ^ 40 ∧
        j.cap.length = (s.reg SUP_MINT_LEN).toNat ∧ j.cap.perm = s.fld SUP_MINT_ATTR_PERM ∧ j.cap.group.toNat = s.fld SUP_MINT_ATTR_GROUP ∧
        j.cap.view.toNat = s.fld SUP_MINT_ATTR_VIEW ∧ j.cap.otype = 0 ∧ j.cap.owner = s.fld SUP_MINT_OWNER_OWNER ∧
        j.cap.skey = s.fld SUP_MINT_ATTR_SKEY)
    starts (.mint (.core .sup)) false ∧ starts (.mintCopy (.core .sup) src) true) ∧
  (∀ (s : State) (a : Agent) (src : BitVec 3), s.writes a SUP_MINT_CTL → a ≠ .core .sup ∨ s.on SUP_MINT_STAT_BUSY = true →
    exec (.mint a) s = .next s ∧ exec (.mintCopy a src) s = .next s)) ∧
  (∀ (s : State) (j : MintJob), s.runs → s.mint = some j →
    let x := j.cap
    let busy := fun (t : MintTarget) => t.kind = 0 ∧ (s.core t.core).level ≠ 0 ∧ s.liveKey t.core = some (s.mintKey t)
    let priv := fun (t : MintTarget) => t.core ≠ .sup ∧ (x.has 10 = true ∨ x.has 8 = true ∨ s.region .sup x.base = .regs)
    let outside := fun (t : MintTarget) => let last := x.base + (x.length - 1)
      let r := s.region t.core x.base
      r = .none ∨ (r = .regs ∧ isSeq t.core = true) ∨ s.region t.core last ≠ r ∨ 2 ^ 40 ≤ last
    let bad := 2 ^ 11 ≤ x.perm ∨ x.view = 3 ∨ (x.skey ≠ 0 ∧ x.has 7 = false)
    let ends := fun (t : State) => t.mint = none ∧ t.on SUP_MINT_STAT_BUSY = false ∧ t.on SUP_MINT_CTL_GO = false ∧
      s.onlyRegs t [SUP_MINT_STAT, SUP_MINT_CTL]
    let refuses := fun (e : Nat) => ∃ t, exec .mintDone s = .next t ∧ ends t ∧ t.on SUP_MINT_STAT_DONE = false ∧
      t.on SUP_MINT_STAT_ERR = true ∧ t.fld SUP_MINT_STAT_ECAUSE = e ∧ t = { s with regs := t.regs, mint := none }
    let writes := fun (g : MintTarget) => ∃ t, exec .mintDone s = .next t ∧ ends t ∧ t.on SUP_MINT_STAT_DONE = true ∧
      t.on SUP_MINT_STAT_ERR = false ∧ t.fld SUP_MINT_STAT_ECAUSE = 0 ∧ t.mintReg g = x ∧
      t = { s with regs := t.regs, mint := none, cores := t.cores, ctxs := t.ctxs } ∧
      (g.kind = 0 → t.cores = s.cores ∧ (∀ k, k ≠ s.mintKey g → t.ctxAt k = s.ctxAt k) ∧
        (∀ r, r ≠ g.reg → Tbl.get Cap.null r (t.ctxAt (s.mintKey g)).caps = Tbl.get Cap.null r (s.ctxAt (s.mintKey g)).caps) ∧
        t.ctxAt (s.mintKey g) = { s.ctxAt (s.mintKey g) with caps := (t.ctxAt (s.mintKey g)).caps }) ∧
      (g.kind ≠ 0 → t.ctxs = s.ctxs ∧ (∀ k, k ≠ coreKey g.core → t.coreAt k = s.coreAt k) ∧
        t.core g.core = { s.core g.core with cs := (t.core g.core).cs, gtc := (t.core g.core).gtc } ∧
        (∀ r, (g.kind ≠ 1 ∨ r ≠ 8 * g.set + g.reg) → Tbl.get Cap.null r (t.core g.core).cs = Tbl.get Cap.null r (s.core g.core).cs) ∧
        (g.kind = 1 → (t.core g.core).gtc = (s.core g.core).gtc))
    (j.target = none → refuses 5) ∧
    (∀ g, j.target = some g →
      (busy g → refuses 5) ∧
      (¬ busy g → j.copy = true → (priv g → refuses 2) ∧ (¬ priv g → writes g)) ∧
      (¬ busy g → j.copy = false →
        (outside g → refuses 1) ∧ (¬ outside g → priv g → refuses 2) ∧ (¬ outside g → ¬ priv g → bad → refuses 3) ∧
        (¬ outside g → ¬ priv g → ¬ bad → s.build.lss ≤ x.owner / 512 → refuses 4) ∧
        (¬ outside g → ¬ priv g → ¬ bad → x.owner / 512 < s.build.lss → writes g))))

/-- The line write path: GO takes the image with its check bits, which make each 63-bit part of even parity, or sets WERR for a line no memory
has; when the write ends, the line holds it and no line cache does; a failed write sets WERR and leaves the line open (R272, R278 to R280).

A core requests the line its PC lies in and, outside DET, the next; its line cache delivers a copy, or the code-store port serves it, DET cores
first and refills in arrival order, four of a cluster at most. A line that passes its check enters the fetch buffer and, outside DET, its line
cache; one that fails is discarded and fetched again, and a
second failure is kept for the instruction that needs it, CHK and the line recorded once, CHKFAIL set; a line later than its DET time is
counted (R273 to R276, R284, R553).

SPLIT_EN comes into force at a boundary as CORE_CFG gives it, and a DET switch, once nothing is in flight, with its fetch buffer empty
(R219, R282).
Model's choice: assumptions 20, 22. -/
def Obligations.CodeLines : Prop :=
  ((∀ (s : State) (a : Agent), s.writes a SUP_CSW_CTL → s.on SUP_CS_STAT_BUSY = false →
    a = .core .sup ∨ (a = .master ∧ s.on DBG_AUTH_STAT_CODEWR = true) →
    let n := s.fld SUP_CSW_ADDR_LINE
    let moth := s.on SUP_CSW_ADDR_TGT
    (if moth then 256 ≤ n ∧ n < 768 else n < 233017) → ∃ t d, exec (.codeLineWrite a) s = .next t ∧ t.code.write = some (moth, n, d) ∧
      (∀ m, m < 8 → ∀ b, b < 32 → 32 * m + b < 252 → d.getLsbD (32 * m + b) = (s.reg (SUP_CSW_DATA m)).getLsbD b) ∧ lineOk d = true ∧
      t.on SUP_CS_STAT_BUSY = true ∧ t.on SUP_CSW_CTL_GO = true ∧ s.onlyRegs t [SUP_CS_STAT, SUP_CSW_CTL] ∧
      t = { s with regs := t.regs, code := { s.code with write := t.code.write } }) ∧
  (∀ (s : State) (a : Agent), s.writes a SUP_CSW_CTL → s.on SUP_CS_STAT_BUSY = false → a = .core .sup →
    let n := s.fld SUP_CSW_ADDR_LINE
    (if s.on SUP_CSW_ADDR_TGT then n < 256 ∨ 768 ≤ n else 233017 ≤ n) → ∃ t, exec (.codeLineWrite a) s = .next t ∧
      t.on SUP_CS_STAT_WERR = true ∧ t.on SUP_CS_STAT_BUSY = false ∧ s.onlyRegs t [SUP_CS_STAT] ∧ t = { s with regs := t.regs }) ∧
  (∀ (s : State) (n : Nat) (d : BitVec 256) (moth err : Bool), s.runs → s.code.write = some (moth, n, d) →
    ∃ t, exec (.codeWriteDone err) s = .next t ∧ t.code.write = none ∧ t.on SUP_CS_STAT_BUSY = false ∧ t.on SUP_CSW_CTL_GO = false ∧
      s.onlyRegs t [SUP_CS_STAT, SUP_CSW_CTL] ∧
      (moth = true → Tbl.get 0 n t.code.moth = d ∧ (∀ m, m ≠ n → Tbl.get 0 m t.code.moth = Tbl.get 0 m s.code.moth) ∧
        t = { s with regs := t.regs, code := { s.code with write := none, moth := t.code.moth } }) ∧
      (moth = false → t.code.moth = s.code.moth ∧ (∀ m, m ≠ n → Tbl.get 0 m t.code.store = Tbl.get 0 m s.code.store) ∧
        (∀ k x, k < 5 → (n, x) ∉ Tbl.get [] k t.code.caches) ∧
        (∀ k m x, m ≠ n → ((m, x) ∈ Tbl.get [] k t.code.caches ↔ (m, x) ∈ Tbl.get [] k s.code.caches)) ∧
        (err = false → Tbl.get 0 n t.code.store = d ∧ t.fresh = s.fresh) ∧
        (err = true → Tbl.get 0 n t.code.store = BitVec.ofNat 256 (Config.free s.fresh) ∧ t.fresh = s.fresh + 1 ∧
          t.on SUP_CS_STAT_WERR = true) ∧
        (∀ k, t.coreAt k = { s.coreAt k with vecShadow := (t.coreAt k).vecShadow }) ∧
        (n ≤ 28 → ∀ k, k < 37 → Tbl.get 0 n (t.coreAt k).vecShadow = Tbl.get 0 n t.code.store) ∧
        t = { s with regs := t.regs, code := t.code, cores := t.cores, sec := { s.sec with lines := t.sec.lines }, fresh := t.fresh })) ∧
  (∀ (s : State) (a : Agent), s.writes a SUP_CS_CFG → ∃ t, exec (.lcInvalidate a) s = .next t ∧ (∀ k, Tbl.get [] k t.code.caches = []) ∧
    s.onlyRegs t [] ∧ t = { s with regs := t.regs, code := { s.code with caches := t.code.caches, invAt := some s.clk.pclk } })) ∧
  (∀ (s : State) (c : CoreId), coreBuilt s.build c = true → s.coreOff c = false → c ≠ .moth →
    let k := s.core c
    let cache := (cacheOf c).1
    let wait := s.fld SUP_CS_CFG_WAIT
    (∀ (v : View) (n : BitVec 18), s.view c = some v → k.released = true → k.lineReq = none → n.toNat < 233017 → k.line n.toNat = none →
      k.badLine ≠ some n.toNat → (let here := v.regs.pc.toNat / 18
        n.toNat = here ∨ (n.toNat = here + 1 ∧ k.det = false ∧ k.line here ≠ none ∧ k.badLine ≠ some here)) →
      (∀ d, k.det = false → k.lcEn = true → s.cached c n.toNat = some d → exec (.lineRequest c n) s = .next (s.setCore c
        { k with lineReq := some { line := n.toNat, again := false, copy := some d, due := s.clk.pclk }, badLine := none })) ∧
      (k.det = true ∨ k.lcEn = false ∨ s.cached c n.toNat = none →
        (∀ x, coreBuilt s.build x = true → x ≠ .moth → (s.core x).det = true → (k.det = true → portRank x < portRank c) → s.wantedLine x = none) →
        (s.refilling.countP (fun x => decide ((cacheOf x).1 = cache)) < 4) → ∃ t, exec (.lineRequest c n) s = .next t ∧
          t.core c = { k with lineReq := some { line := n.toNat, again := false, copy := none, due := s.clk.pclk + wait + 2 }, badLine := none } ∧
          (∀ j, j ≠ coreKey c → t.coreAt j = s.coreAt j) ∧
          t.code.refills = (if k.det then s.code.refills else s.code.refills.filter (fun x => decide (x ≠ c)) ++ [c]) ∧
          t = { s with cores := t.cores, code := { s.code with refills := t.code.refills }, pmu := { s.pmu with now := t.pmu.now } })) ∧
    (∀ q, k.lineReq = some q → ∀ (w : BitVec 252) (chk : BitVec 4) err v, s.view c = some v →
      q.copy ≠ none ∨ (if k.det then q.due ≤ s.clk.pclk else s.refilling.head? = some c) →
      let n := q.line
      let x := q.copy.getD (chk ++ w)
      let here := v.regs.pc.toNat / 18
      let good := err = false ∧ lineOk x = true ∧ (q.copy = none → s.lineBarred n = false)
      ∃ t, exec (.lineDelivered c w chk err) s = .next t ∧ (∀ j, j ≠ coreKey c → t.coreAt j = s.coreAt j) ∧
        (good → (n = here → t.core c = { k with held := some (n, x), ahead := none, lineReq := none }) ∧
          (n = here + 1 → k.det = false → t.core c = { k with
            held := if k.ahead.any (fun e => decide (e.1 = here)) then k.ahead else k.held, ahead := some (n, x), lineReq := none }) ∧
          (k.det = false → k.lcEn = true → s.code.invAt ≠ some s.clk.pclk → (n, x) ∈ Tbl.get [] cache t.code.caches) ∧
          (k.det = true ∨ k.lcEn = false ∨ s.code.invAt = some s.clk.pclk → t.code.caches = s.code.caches)) ∧
        (¬ good → (∀ y, (n, y) ∉ Tbl.get [] cache t.code.caches) ∧ t.on SUP_CS_STAT_CHK = true ∧
          (s.on SUP_CS_STAT_CHK = false → n < 2 ^ 18 → t.fld SUP_CS_ERRLOC_LINE = n) ∧
          (s.on SUP_CS_STAT_CHK = true → t.reg SUP_CS_ERRLOC = s.reg SUP_CS_ERRLOC) ∧
          (q.again = false → t.core c = { k with lineReq := some { line := n, again := true, copy := none, due := s.clk.pclk + wait + 2 } }) ∧
          (q.again = true → t.core c = { k with lineReq := none, badLine := some n } ∧ t.on SUP_CS_STAT_CHKFAIL = true)) ∧
        (∀ m, m ≠ cache → Tbl.get [] m t.code.caches = Tbl.get [] m s.code.caches) ∧
        (k.det = true → q.copy = none → q.due < s.clk.pclk → t.on (SEQ_DET_STAT_FETCH_LATE (corePage c)) = true ∧
          t.reg (SEQ_DET_CNT (corePage c)) = (if s.reg (SEQ_DET_CNT (corePage c)) = 0xFFFFFFFF then 0xFFFFFFFF
            else s.reg (SEQ_DET_CNT (corePage c)) + 1) ∧
          t.fld (SEQ_DET_STAT_MAXEX (corePage c)) = max (s.fld (SEQ_DET_STAT_MAXEX (corePage c))) (min (s.clk.pclk - q.due) 65535)) ∧
        s.onlyRegs t [SUP_CS_STAT, SUP_CS_ERRLOC, SEQ_DET_STAT (corePage c), SEQ_DET_CNT (corePage c)] ∧
        t = { s with regs := t.regs, cores := t.cores, code := { s.code with caches := t.code.caches, refills := t.code.refills },
                     pmu := { s.pmu with now := t.pmu.now } })) ∧
  (∀ (s : State) (c : CoreId), coreBuilt s.build c = true → s.coreOff c = false → c ≠ .moth →
    exec (.splitEnApply c) s = .next (s.setCore c { s.core c with splitEn := s.on (SEQ_CORE_CFG_SPLIT_EN (corePage c)) }) ∧
    ((s.core c).flight = [] → exec (.detSwitch c) s = .next (s.setCore c
      { s.core c with det := s.on (SEQ_CORE_CFG_DET (corePage c)), held := none, ahead := none, lineReq := none, badLine := none,
                      quick := none })))

/-! ### Bulk memory ports (chapter 02) -/

/-- Training starts with TRAINED and TRAIN_FAIL clear; a report of success within the timeout loads BMP_CAP and BMP_MARGIN and sets TRAINED, a
report of failure, or the timeout, sets TRAIN_FAIL; both raise E(212 + n); a later report is ignored (R66, R552).

A read beat gives the waiting load its words; an UNCORRECTABLE or DECODE one records the beat's address once in BMP_ERR_LOC, sets UE and
raises E(212 + n), and the load faults (R65). BMP_ILV takes a write only while every port is idle and WAYS fits PORTS (R67).

A copy starts only between a bulk and a stream-memory address, in a legal view; each granule copied, in either direction, advances both addresses by 8 and takes
one from LEN; at LEN 0 it sets CPY_DONE and raises E(212 + n); one that fails, or an abort, stops it with CPY_ERR and its cause (R68, R69,
R70).
Model's choice: assumptions 14, 50, 86, 89, 91. -/
def Obligations.BulkPorts : Prop :=
  (∀ (s : State) (n : Nat), s.runs → s.hasBmp n = true →
    let late := ∃ t, (s.bmpOf n).trainTb = some t ∧ t.toNat + s.fld (BMP_CTRL_TRN_TIMEOUT n) * 1000000 < s.clk.tb.toNat
    let fails := fun (i : Instr) => ∃ t, exec i s = .next t ∧ (t.bmpOf n).trainTb = none ∧ t.on (BMP_STAT_TRAIN_FAIL n) = true ∧
      t.on (BMP_STAT_TRAINED n) = s.on (BMP_STAT_TRAINED n) ∧ t.on (BMP_CTRL_TRAIN n) = false ∧ s.onlyRegs t [BMP_CTRL n, BMP_STAT n] ∧
      s.raises t [212 + n] ∧ t = { s with regs := t.regs, bmp := t.bmp, evc := t.evc }
    ((s.bmpOf n).trainTb = none → ∃ t, exec (.bmpTrain n) s = .next t ∧ t.bmpOf n = { s.bmpOf n with trainTb := some s.clk.tb } ∧
      t.on (BMP_CTRL_TRAIN n) = true ∧ t.on (BMP_STAT_TRAIN_FAIL n) = false ∧ t.on (BMP_STAT_TRAINED n) = false ∧
      (∀ m, m ≠ n → t.bmpOf m = s.bmpOf m) ∧ s.onlyRegs t [BMP_CTRL n, BMP_STAT n] ∧ t = { s with regs := t.regs, bmp := t.bmp }) ∧
    ((s.bmpOf n).trainTb ≠ none → ¬ late →
      (∀ cap rd wr rep, fails (.bmpTrainReport n false cap rd wr rep)) ∧
      (∀ cap rd wr rep, ∃ t, exec (.bmpTrainReport n true cap rd wr rep) s = .next t ∧ (t.bmpOf n).trainTb = none ∧
        t.on (BMP_STAT_TRAINED n) = true ∧ t.on (BMP_CTRL_TRAIN n) = false ∧ t.reg (BMP_CAP n) = BitVec.zeroExtend 32 cap ∧
        t.reg (BMP_MARGIN n) = BitVec.ofNat 32 (rd.toNat + 256 * wr.toNat + 65536 * rep.toNat) ∧
        (s.fld HLT_LANE_CFG_THR ≤ rd.toNat → s.fld HLT_LANE_CFG_THR ≤ wr.toNat →
          s.onlyRegs t [BMP_CTRL n, BMP_STAT n, BMP_CAP n, BMP_MARGIN n] ∧ s.raises t [212 + n] ∧
          t = { s with regs := t.regs, bmp := t.bmp, evc := t.evc }))) ∧
    (late → fails (.bmpTrainTimeout n) ∧ ∀ ok cap rd wr rep, exec (.bmpTrainReport n ok cap rd wr rep) s = .next s)) ∧
  ((∀ (s : State) (n p q : Nat) (tag : BitVec 6) (c : CoreId) (tok : Nat) (a : BitVec 40) (data : BitVec 1024) (stat : BitVec 2)
    (f : Flight) (v : View), s.runs → s.hasBmp n = true →
    (s.bmpOf n).reads = [(tag, c, tok, a)] → s.view c = some v → (s.core c).flight = [f] → f.tok = tok → f.kind = .load p q → f.fail = none →
    f.done = false → tok < 2 ^ 64 → ∃ t, exec (.bmpReadBeat n tag data stat) s = .next t ∧ (t.bmpOf n).reads = [] ∧ t.mem = s.mem ∧
      (stat.toNat < 2 → t.scr = s.scr ∧ t.arb = s.arb ∧ t.regs = s.regs ∧ t.evc = s.evc ∧ ∃ v', t.view c = some v' ∧ (t.core c).flight = [] ∧
        ∀ j, j < q → Tbl.get 0 (p + j) v'.bank.cells =
          granWord (data.extractLsb' (a.toNat % 128 / 16 * 128) 128) (f.addr.toNat % 8 + j)) ∧
      (2 ≤ stat.toNat → t.on (BMP_STAT_UE n) = true ∧ s.raises t [212 + n] ∧ s.onlyRegs t [BMP_STAT n, BMP_ERR_LOC n] ∧
        (s.on (BMP_STAT_UE n) = true → t.reg (BMP_ERR_LOC n) = s.reg (BMP_ERR_LOC n)) ∧
        (s.on (BMP_STAT_UE n) = false → t.reg (BMP_ERR_LOC n) = BitVec.ofNat 32 (a.toNat / 128)))) ∧
  (∀ (s : State) (v : Reg), s.crp.live = true →
    let ports := v.toNat / 256 % 2 ^ s.build.bmps
    let idle := ∀ n, n < s.build.bmps → s.on (BMP_STAT_CPY_BUSY n) = false ∧ (s.bmpOf n).reads = []
    let ways := (List.range 8).countP (fun i => ports.testBit i)
    (idle → ways = 2 ^ (v.toNat % 4) → ∃ t, exec (.bmpIlvWrite v) s = .next t ∧ t.reg BMP_ILV = BitVec.ofNat 32 (v.toNat % 4 + 256 * ports) ∧
      s.onlyRegs t [BMP_ILV] ∧ t = { s with regs := t.regs }) ∧
    (¬ idle ∨ ways ≠ 2 ^ (v.toNat % 4) → exec (.bmpIlvWrite v) s = .next s))) ∧
  (∀ (s : State) (n : Nat), s.runs → s.hasBmp n = true →
    let src := (s.reg64 (BMP_CPY_SRC_LO n) (BMP_CPY_SRC_HI n)).toNat / 8 * 8
    let dst := (s.reg64 (BMP_CPY_DST_LO n) (BMP_CPY_DST_HI n)).toNat / 8 * 8
    let len := s.fld (BMP_CPY_CMD_LEN n)
    let bulk := fun (w : Nat) => 0x8000000000 ≤ w
    let stream := fun (w : Nat) => w < s.build.granules * 8
    let addrs := [BMP_CPY_SRC_LO n, BMP_CPY_SRC_HI n, BMP_CPY_DST_LO n, BMP_CPY_DST_HI n, BMP_CPY_CMD n]
    (s.on (BMP_STAT_CPY_BUSY n) = false → ∀ v : Reg,
      let bad := ¬ (bulk src ∧ stream dst ∨ stream src ∧ bulk dst) ∨ v.toNat / 256 % 4 = 3 ∨ (v.toNat / 256 % 4 = 1 ∧ stream dst)
      ∃ t, exec (.bmpCpyGo n v) s = .next t ∧ t.fld (BMP_CPY_CTL_GROUP n) = v.toNat % 64 ∧ t.fld (BMP_CPY_CTL_VIEW n) = v.toNat / 256 % 4 ∧
        s.onlyRegs t [BMP_CPY_CTL n, BMP_STAT n] ∧ t = { s with regs := t.regs } ∧
        (bad → t.on (BMP_STAT_CPY_ERR n) = true ∧ t.fld (BMP_STAT_CPY_CAUSE n) = 1 ∧ t.on (BMP_STAT_CPY_BUSY n) = false) ∧
        (¬ bad → 0 < len → t.on (BMP_STAT_CPY_BUSY n) = true ∧ t.on (BMP_CPY_CTL_GO n) = true ∧ t.fld (BMP_STAT_CPY_CAUSE n) = 0)) ∧
    (s.on (BMP_STAT_CPY_BUSY n) = true → ∀ v, exec (.bmpCpyGo n v) s = .next s) ∧
    (∃ t, exec (.bmpCpyAbort n) s = .next t ∧ t.bmpOf n = (if s.on (BMP_STAT_CPY_BUSY n) then { s.bmpOf n with abort := true } else s.bmpOf n) ∧
      (∀ m, m ≠ n → t.bmpOf m = s.bmpOf m) ∧ t = { s with bmp := t.bmp }) ∧
    (s.on (BMP_STAT_CPY_BUSY n) = true → s.mem.init = none → 0 < len → s.arb.reqs = [] → s.endedOf (.copy n) = none →
      s.underway (.copy n) = false →
      let view := BitVec.ofNat 2 (s.fld (BMP_CPY_CTL_VIEW n))
      let group := s.fld (BMP_CPY_CTL_GROUP n)
      let acc := fun (w : Nat) (kind : Kind) =>
        ({ dest := .copy n, port := 72, gran := w / 8, view := view, group := BitVec.ofNat 6 group, owner := 0x4000, kind := kind } : Access)
      let rawS := (s.reg64 (BMP_CPY_SRC_LO n) (BMP_CPY_SRC_HI n)).toNat
      let rawD := (s.reg64 (BMP_CPY_DST_LO n) (BMP_CPY_DST_HI n)).toNat
      let moves := fun (t : State) => t.fld (BMP_CPY_CMD_LEN n) = len - 1 ∧
        t.reg64 (BMP_CPY_SRC_LO n) (BMP_CPY_SRC_HI n) = BitVec.ofNat 64 ((rawS + 8) % 2 ^ 40) ∧
        t.reg64 (BMP_CPY_DST_LO n) (BMP_CPY_DST_HI n) = BitVec.ofNat 64 ((rawD + 8) % 2 ^ 40) ∧
        (len = 1 → t.on (BMP_STAT_CPY_DONE n) = true ∧ t.on (BMP_STAT_CPY_BUSY n) = false ∧ t.on (BMP_CPY_CTL_GO n) = false ∧
          (212 + n, s.clk.tb) ∈ t.evc.raised) ∧
        (1 < len → (s.bmpOf n).abort = false → t.on (BMP_STAT_CPY_BUSY n) = true) ∧
        (1 < len → (s.bmpOf n).abort = true → t.on (BMP_STAT_CPY_BUSY n) = false ∧ t.on (BMP_STAT_CPY_ERR n) = true ∧
          t.fld (BMP_STAT_CPY_CAUSE n) = 5 ∧ (t.bmpOf n).abort = false ∧ (212 + n, s.clk.tb) ∈ t.evc.raised)
      let stops := fun (t : State) (cause : Nat) => t.fld (BMP_STAT_CPY_CAUSE n) = cause ∧ t.on (BMP_STAT_CPY_ERR n) = true ∧
        t.on (BMP_STAT_CPY_BUSY n) = false ∧ (∀ o, o ∈ addrs → t.reg o = s.reg o) ∧ t.mem.bytes = s.mem.bytes
      (bulk src → stream dst → ∀ (data : Gran) (stat : BitVec 2) (p l : Nat) (us : List Upset), s.cpyBulk src = .ok (p, l) →
        let a := acc dst (.write data 0xFFFF false)
        let b := bankOf s.build (dst / 8)
        let h := homeOf s.build (dst / 8)
        let named := fun (i : Nat) => i < 512 ∧ (s.entry (512 * b + i)).home.toNat = h ∧ s.estateAt b i ≠ .free ∧ s.estateAt b i ≠ .borrowed
        s.holds a = false →
        (stat.toNat < 2 → (∀ i j, named i → named j → i = j) → s.refusal a = none → ∃ t, exec (.bmpCpyGranuleDone n data stat us) s = .next t ∧
          t.rowData (t.rowKey b (t.readRowOf view group b h)) = data ∧ moves t) ∧
        (stat.toNat < 2 → ∀ r, s.refusal a = some r → ∃ t, exec (.bmpCpyGranuleDone n data stat us) s = .next t ∧ stops t (match r with
          | .capacity _ => 2
          | .conflict _ => 3
          | _ => 7)) ∧
        (2 ≤ stat.toNat → ∃ t, exec (.bmpCpyGranuleDone n data stat us) s = .next t ∧ stops t 4)) ∧
      (stream src → bulk dst → ∀ (data : Gran) (stat : BitVec 2) (p l : Nat), s.cpyBulk dst = .ok (p, l) → s.holds (acc src .read) = false →
        let b := bankOf s.build (src / 8)
        let row := s.rowKey b (s.readRowOf view group b (homeOf s.build (src / 8)))
        s.rowEcc row = none → Tbl.get none row s.mem.odd = none → ∃ t, exec (.bmpCpyGranuleDone n data stat []) s = .next t ∧ moves t ∧
          t.mem = s.mem ∧ t.bulkOut = s.bulkOut ++ [{ addr := BitVec.ofNat 40 dst, words := (List.range 8).map (granWord (s.rowData row)) }])))

/-! ### Time (chapter 14) -/

/-- A compare channel fires when an update carries TB to or past CMP, at most once per update; a write to CMP's low half is only staged; a commit,
and a rise of EN, fires at once with LATE when CMP is not ahead of TB, a reserved ACT keeping the field (R14); a group load spaces its channels evenly over a period, or is refused
with GERR (R434 to R438).

An accepted edge latches TB − (2 + FILT), in LF mode TB, into RISE or FALL, unless the last one is unread, which ROVR or FOVR records; a fall
after a rise also latches the width; E(48 + j) follows EVSEL (R439 to R441).
Model's choice: assumption 59. -/
def Obligations.TimerChannels : Prop :=
  (∀ (s : State) (k : Nat), k < 32 → s.crp.live = true → s.evcOn = true →
    let behind := fun (c : BitVec 64) => (c - s.clk.tb).toInt ≤ 0
    let lated := fun (s' t : State) => t.on (TBU_CMP_STAT_LATE k) = true ∧ s'.fired t k
    (let due := s.on (TBU_CMP_CFG_EN k) = true ∧ Tbl.get false k s.clk.cmpDone = false ∧ s.clk.prev.toNat < (s.cmp k).toNat ∧
        (s.cmp k).toNat ≤ s.clk.tb.toNat;
      (due → ∃ t, exec (.compareMatch k) s = .next t ∧ s.fired t k) ∧ (¬ due → exec (.compareMatch k) s = .next s)) ∧
    (∀ v, ∃ t, exec (.cmpStage k v) s = .next t ∧ Tbl.get 0 k t.clk.loStage = v ∧
      (∀ j, j ≠ k → Tbl.get 0 j t.clk.loStage = Tbl.get 0 j s.clk.loStage) ∧ t = { s with clk := { s.clk with loStage := t.clk.loStage } }) ∧
    (∀ v, let c : BitVec 64 := v ++ Tbl.get 0 k s.clk.loStage
      ∃ t, exec (.cmpCommit k v) s = .next t ∧
        (s.on (TBU_CMP_CFG_EN k) = true → behind c → c.toNat ≤ s.clk.tb.toNat →
          lated (s.setReg64 (TBU_CMP_LO k) (TBU_CMP_HI k) c) t) ∧
        (s.on (TBU_CMP_CFG_EN k) = false ∨ ¬ behind c → t.cmp k = c ∧ s.onlyRegs t [TBU_CMP_LO k, TBU_CMP_HI k] ∧
          t = { s with regs := t.regs, clk := { s.clk with cmpDone := t.clk.cmpDone } })) ∧
    (∀ v : Reg, v.getLsbD 0 = true → s.on (TBU_CMP_CFG_EN k) = false →
      let s' := s.setReg (TBU_CMP_CFG k) (if v.toNat / 2 % 8 < 5 then v &&& 0xF7F
        else (v &&& 0xF71) ||| (s.reg (TBU_CMP_CFG k) &&& 0xE))
      ∃ t, exec (.cmpEnable k v) s = .next t ∧ (behind (s.cmp k) → (s.cmp k).toNat ≤ s.clk.tb.toNat → lated s' t) ∧
        (¬ behind (s.cmp k) → t.regs = s'.regs ∧ t = { s with regs := t.regs, clk := { s.clk with cmpDone := t.clk.cmpDone } })) ∧
    (∀ v : Reg, v.getLsbD 24 = true → v.getLsbD 25 = false →
      let first := v.toNat % 32
      let count := v.toNat / 256 % 64
      (count = 0 ∨ 32 < first + count → ∃ t, exec (.groupLoad v) s = .next t ∧ t.on TBU_GRP_CTL_GERR = true ∧
        s.onlyRegs t [TBU_GRP_CTL] ∧ t = { s with regs := t.regs }) ∧
      (0 < count → first + count ≤ 32 → (∀ i, i < count → s.on (TBU_CMP_CFG_EN (first + i)) = false) →
        ∃ t, exec (.groupLoad v) s = .next t ∧ (∀ i, i < count →
          t.cmp (first + i) = s.reg64 TBU_GRP_BASE_LO TBU_GRP_BASE_HI + BitVec.ofNat 64 (i * (s.reg TBU_GRP_PER).toNat / count) ∧
          t.reg (TBU_CMP_PER (first + i)) = if v.getLsbD 16 then s.reg TBU_GRP_PER else 0) ∧
        (∀ o, o ≠ TBU_GRP_CTL → (∀ i, i < count → o ≠ TBU_CMP_LO (first + i) ∧ o ≠ TBU_CMP_HI (first + i) ∧ o ≠ TBU_CMP_PER (first + i)) →
          t.reg o = s.reg o) ∧
        t.on TBU_GRP_CTL_GERR = s.on TBU_GRP_CTL_GERR ∧ t = { s with regs := t.regs, clk := { s.clk with cmpDone := t.clk.cmpDone } }))) ∧
  (∀ (s : State) (j : Nat) (rising : Bool), j < 16 → s.crp.live = true → s.evcOn = true →
    let lf := s.on TBU_TB_STAT_LF
    let v := if lf then s.clk.tb else s.clk.tb - BitVec.ofNat 64 (2 + s.fld (TBU_CAP_CFG_FILT j))
    let sel := s.fld (TBU_CAP_CFG_EVSEL j)
    let full := if rising then s.on (TBU_CAP_STAT_RV j) else s.on (TBU_CAP_STAT_FV j)
    ∃ t, exec (.captureEdge j rising) s = .next t ∧ t.on (TBU_CAP_STAT_LVL j) = rising ∧ t = { s with regs := t.regs, evc := t.evc } ∧
      (s.on (TBU_CAP_CFG_EN j) = false → s.onlyRegs t [TBU_CAP_STAT j] ∧ t.evc = s.evc ∧
        t.on (TBU_CAP_STAT_RV j) = s.on (TBU_CAP_STAT_RV j) ∧ t.on (TBU_CAP_STAT_FV j) = s.on (TBU_CAP_STAT_FV j)) ∧
      (s.on (TBU_CAP_CFG_EN j) = true → full = true →
        (if rising then t.on (TBU_CAP_STAT_ROVR j) = true else t.on (TBU_CAP_STAT_FOVR j) = true) ∧ s.onlyRegs t [TBU_CAP_STAT j] ∧
        t.evc = s.evc) ∧
      (s.on (TBU_CAP_CFG_EN j) = true → full = false → t.on (TBU_CAP_STAT_LFR j) = lf ∧
        s.raises t (if (if rising then 1 else 2) = sel ∨ sel = 3 then [48 + j] else []) ∧
        (rising = true → t.reg64 (TBU_CAP_RISE_LO j) (TBU_CAP_RISE_HI j) = v ∧ t.on (TBU_CAP_STAT_RV j) = true ∧
          s.onlyRegs t [TBU_CAP_STAT j, TBU_CAP_RISE_LO j, TBU_CAP_RISE_HI j]) ∧
        (rising = false → t.reg64 (TBU_CAP_FALL_LO j) (TBU_CAP_FALL_HI j) = v ∧ t.on (TBU_CAP_STAT_FV j) = true ∧
          s.onlyRegs t [TBU_CAP_STAT j, TBU_CAP_FALL_LO j, TBU_CAP_FALL_HI j, TBU_CAP_WIDTH j] ∧
          (s.on (TBU_CAP_STAT_RV j) = true → t.on (TBU_CAP_STAT_WV j) = true ∧ t.reg (TBU_CAP_WIDTH j) =
            BitVec.ofNat 32 (min (v - s.reg64 (TBU_CAP_RISE_LO j) (TBU_CAP_RISE_HI j)).toNat 0xFFFFFFFF)) ∧
          (s.on (TBU_CAP_STAT_RV j) = false → t.reg (TBU_CAP_WIDTH j) = s.reg (TBU_CAP_WIDTH j)))))

/-- TB loads its set value before the first tick, and refuses the load with LOADERR after; arming the Tick Unit lets no instant at or below TB
act; a period in range is staged to the first of its multiples at or after the next instant, any other is ignored; at NEXT − the margin
the allocator holds new long chains, and from PCLK 3,000 after T0 lets them compete again (R36, R433, R442, R444 to R446).

A tick instant that acts raises E0 and sets STARTED; one multiple in RUN or DOZE sends the strobe, which begins the tick, cuts the running
chains and starts the tick flip; otherwise the multiples passed are added to SKIP (R35, R110, R442, R443).
Model's choice: assumptions 64, 76. -/
def Obligations.TickAndTimeSettings : Prop :=
  (∀ (s : State), s.crp.live = true →
    (s.on TBU_TICK_STAT_STARTED = true → ∃ t, exec .tbLoad s = .next t ∧ t.reg TBU_TB_STAT = s.reg TBU_TB_STAT ||| 2 ∧
      s.onlyRegs t [TBU_TB_STAT] ∧ t = { s with regs := t.regs }) ∧
    (s.on TBU_TICK_STAT_STARTED = false → ∃ t, exec .tbLoad s = .next t ∧ t.clk.tb = s.reg64 TBU_TB_SET_LO TBU_TB_SET_HI ∧
      t.clk.prev = s.clk.tb ∧ t.fld TBU_TB_STAT_FRAC = 0 ∧ (s.clk.perStage = none → t.reg64 TBU_TICK_NEXT_LO TBU_TICK_NEXT_HI =
        BitVec.ofNat 64 ((t.clk.tb.toNat / s.clk.per + 1) * s.clk.per)) ∧
      s.onlyRegs t [TBU_TB_STAT, TBU_TICK_STAT, TBU_TICK_NEXT_LO, TBU_TICK_NEXT_HI] ∧ t = { s with regs := t.regs, clk := t.clk }) ∧
    (s.on TBU_TICK_CTL_EN = false → ∃ t, exec .tickArm s = .next t ∧ t.on TBU_TICK_CTL_EN = true ∧ t.tickDue = false ∧
      s.onlyRegs t [TBU_TICK_CTL] ∧ t = { s with regs := t.regs, clk := { s.clk with tickDone := true } }) ∧
    (∀ v : Reg, let p := v.toNat % 2 ^ 27
      (p < 20000 ∨ 100000000 < p → exec (.tickPeriodWrite v) s = .next s) ∧
      (20000 ≤ p → p ≤ 100000000 → ∃ t b e, exec (.tickPeriodWrite v) s = .next t ∧ t.clk.perStage = some (p, b, e) ∧
        b = s.clk.nextAt s.clk.tb.toNat ∧ b ≤ e ∧ e % p = 0 ∧ e < b + p ∧ t.fld TBU_TICK_PER_PER = p ∧ t.on TBU_TICK_STAT_PEND = true ∧
        (s.clk.tb.toNat < b → t.reg64 TBU_TICK_NEXT_LO TBU_TICK_NEXT_HI = BitVec.ofNat 64 b) ∧
        s.onlyRegs t [TBU_TICK_PER, TBU_TICK_STAT, TBU_TICK_NEXT_LO, TBU_TICK_NEXT_HI] ∧
        t = { s with regs := t.regs, clk := { s.clk with perStage := t.clk.perStage } })) ∧
    (s.clk.quietDue = true → s.on TBU_TICK_CTL_EN = true → s.awake = true →
      let s' := { s with clk := { s.clk with margin := true, quietDue := false } }
      ∃ t, exec .quiesceMarginStart s = .next t ∧ t.clk = s'.clk ∧ t.hlt = { s.hlt with mapDue := true } ∧
        t.alloc = { s.alloc with queue := s.alloc.queue.map (fun r => if s'.fits r then r else { r with held := true }) } ∧
        t = { s with clk := t.clk, hlt := t.hlt, alloc := t.alloc, pmu := { s.pmu with now := t.pmu.now } }) ∧
    (s.awake = true → s.clk.margin = false → 3000 ≤ s.clk.pclk - s.clk.t0 → exec .allocHoldRelease s = .next
      { s with alloc := { s.alloc with queue := s.alloc.queue.map (fun r => { r with held := false }) } })) ∧
  (∀ (s : State), s.crp.live = true → s.evcOn = true →
    (s.tickDue = false → exec .tickInstant s = .next s) ∧
    (s.tickDue = true → ∃ t, exec .tickInstant s = .next t ∧ t.on TBU_TICK_STAT_STARTED = true ∧ t.clk.tickDone = true ∧
      (∃ l, t.evc.raised = s.evc.raised ++ (0, s.clk.tb) :: l) ∧ t.mem = s.mem ∧ t.ctxs = s.ctxs ∧ t.cores = s.cores ∧
      (s.clk.passed = 1 → s.awake = true → t.clk.t0 = s.clk.pclk ∧ t.clk.margin = false ∧
        t.fld TBU_TICK_STAT_SKIP = s.fld TBU_TICK_STAT_SKIP ∧ (s.epc.flip = none → t.epc.flip.isSome = true)) ∧
      (s.clk.passed ≠ 1 ∨ s.awake = false → t.fld TBU_TICK_STAT_SKIP = min (s.fld TBU_TICK_STAT_SKIP + s.clk.passed) 0xFFFF ∧
        t.epc = s.epc ∧ t.alloc = s.alloc)))

/-- The watchdog raises E1 at WARN; at 0 it asks for the reset ACTION names, cold or warm; its service takes the two keys in order, any other
value is a bad key; LOCK holds its settings (R447, R448, R450).
Model's choice: assumption 64. -/
def Obligations.Watchdog : Prop :=
  ∀ (s : State), s.crp.live = true → s.evcOn = true →
    (s.clk.warnDue = true → ∃ t, exec .wdgWarn s = .next t ∧ t.on MOTH_WDG_STAT_WARNED = true ∧ s.onlyRegs t [MOTH_WDG_STAT] ∧
      s.raises t [1] ∧ t = { s with regs := t.regs, evc := t.evc, clk := { s.clk with warnDue := false } }) ∧
    (exec (.wdgService 0x0000A5C3) s = .next (s.raiseBit MOTH_WDG_STAT_ARMED)) ∧
    (s.on MOTH_WDG_STAT_ARMED = true → ∃ t, exec (.wdgService 0x00003C5A) s = .next t ∧ t.on MOTH_WDG_STAT_ARMED = false ∧
      t.reg MOTH_WDG_CNT = BitVec.ofNat 32 (16 * s.fld MOTH_WDG_PER_PERIOD) ∧ t.on MOTH_WDG_STAT_BADKEY = s.on MOTH_WDG_STAT_BADKEY ∧
      s.onlyRegs t [MOTH_WDG_STAT, MOTH_WDG_CNT] ∧ t = { s with regs := t.regs }) ∧
    (∀ key : Reg, key ≠ 0x0000A5C3 → (key = 0x00003C5A → s.on MOTH_WDG_STAT_ARMED = false) → ∃ t, exec (.wdgService key) s = .next t ∧
      t.on MOTH_WDG_STAT_BADKEY = true ∧ t.on MOTH_WDG_STAT_ARMED = false ∧ s.onlyRegs t [MOTH_WDG_STAT] ∧ t = { s with regs := t.regs }) ∧
    (∀ v : Reg, ∃ t, exec (.wdgLock v) s = .next t ∧ t.on MOTH_WDG_CFG_LOCK = true ∧ s.onlyRegs t [MOTH_WDG_CFG] ∧ t = { s with regs := t.regs } ∧
      (s.on MOTH_WDG_CFG_LOCK = true → t.reg MOTH_WDG_CFG = s.reg MOTH_WDG_CFG) ∧
      (s.on MOTH_WDG_CFG_LOCK = false → t.on MOTH_WDG_CFG_EN = v.getLsbD 0 ∧ t.on MOTH_WDG_CFG_ACTION = v.getLsbD 1 ∧
        t.on MOTH_WDG_CFG_DBG = v.getLsbD 2))

/-! ### The Pod allocator and runs (chapters 04 and 05) -/

/-- A VISSUE or VRESUME the allocator accepts pushes the next ticket of its sequencer that is not live and queues a copy of the chain with AGE 0,
a resume with its element and segment; an illegal chain's ticket is ENDED with ILLEGAL and its cause; with 16 live tickets, and for a VRESUME
whose VPR is not valid, ticket 0 is pushed and nothing is read; a descriptor that fails a check is a fault and no ticket is issued; while a
granule of it has not arrived the acceptance waits (R134, R139 to R142, R145, R180).

The requests that compete are ranked: the one urgent longest first, else by PRIO + AGE div AGE_STEP, then by AGE, then in acceptance order,
where of two accepted in one PCLK the lower logical sequencer number counts as the earlier (R146).

A grant serves the first request in rank that fits a free logical Pod, or a free pair, and the lowest such: the request leaves the queue, its
ticket is RUNNING, its Pods are BUSY with it, and every other request that competes ages, becoming urgent at 15. A reserved pair is kept
until its request is granted (R142, R144 to R147, R151).
Model's choice: assumptions 66, 76. -/
def Obligations.AllocatorAcceptAndGrant : Prop :=
  (∀ (s0 : State) (us : List Upset) (n ls key : Nat) (q : VReq) (v : View), let c := CoreId.seq n
    let s := strikeRows us s0
    coreBuilt s.build c = true → s.coreOff c = false → s.lsOfSeq n = some ls → (s.core c).vreq = some q → s.liveKey c = some key →
    s.view c = some v → v.bounded →
    let pops := if q.resume then 0 else 2
    pops ≤ v.depth → v.bank.opd + 1 ≤ v.ocap + pops → (s.core c).pendingTop v.bank.opd pops = false →
    let vpr := (s.ctxAt key).vpr
    let cap := s.capReg c (if q.resume then vprField vpr 20 3 else q.creg.toNat)
    let w := if q.resume then vprField vpr 160 40 else cap.base + q.off.toNat
    let pushes := fun (u t : State) (x : Nat) => (t.core c).vreq = none ∧ (∃ v', t.view c = some v' ∧ v.leaves v' pops [BitVec.ofNat 16 x] ∧
        v'.regs = v.regs.complete none) ∧
      t = { endPieces c u with alloc := t.alloc, cores := t.cores, ctxs := t.ctxs, regs := t.regs, pmu := { s.pmu with now := t.pmu.now } } ∧
      (∀ k, k ≠ coreKey c → t.coreAt k = s.coreAt k) ∧ (∀ k, k ≠ key → t.ctxAt k = s.ctxAt k) ∧
      u.onlyRegs t [SEQ_DET_STAT (corePage c), SEQ_DET_CNT (corePage c)] ∧ ((s.core c).det = false → t.regs = u.regs)
    ((q.resume = true ∧ vpr.getLsbD 0 = false) ∨ 16 ≤ (s.liveTickets ls).length → ∃ t, exec (.allocAccept c us) s0 = .next t ∧ pushes s t 0 ∧
      t.alloc = s.alloc) ∧
    ((q.resume = true → vpr.getLsbD 0 = true) → (s.liveTickets ls).length < 16 →
      let first := descFetch c ls cap w 0 (if s.isStream w ∧ (s.descCheck ls cap w 32).isNone then notFixed c s else s)
      let refused := fun (f : FaultRec) (u : State) => exec (.allocAccept c us) s0 =
        .next (let e := endPieces c (u.setCore c { u.core c with vreq := none }); e.setCore c { e.core c with fault := some f })
      let accepted := fun (r : RawChain) (r2 : Option RawChain) (u : State) =>
        let ch := chainOf r r2 (BitVec.ofNat 40 w) (if q.resume then BitVec.ofNat 3 (vprField vpr 20 3) else q.creg) (s.streamCaps c)
        let ill := legality (s.on POD_ALLOC_CFG_PAIR_EN) r r2 ch
        let index := if q.resume then vprField vpr 32 24 else 0
        let seg := if q.resume then vprField vpr 128 24 else 0
        ∃ t x, exec (.allocAccept c us) s0 = .next t ∧ pushes u t x ∧ 1 ≤ x ∧ x ≤ 255 ∧ s.ticket ls x = none ∧
          (let last := Tbl.get 0 ls s.alloc.last; ∃ d, d < 255 ∧ x = (last + d) % 255 + 1 ∧
            ∀ d', d' < d → s.ticket ls ((last + d') % 255 + 1) ≠ none) ∧ Tbl.get 0 ls t.alloc.last = x ∧
          (∀ ls' y, y < 256 → (ls' ≠ ls ∨ y ≠ x) → t.ticket ls' y = s.ticket ls' y) ∧
          (t.ctxAt key).vpr = (if q.resume then vpr &&& ~~~1#256 else vpr) ∧
          (ill ≠ 0 → t.ticket ls x = some { st := .ended, status := BitVec.ofNat 16 (512 + 1024 * ill), prog := 0 } ∧
            t.alloc.queue = s.alloc.queue) ∧
          (ill = 0 → t.ticket ls x = some { st := .queued, status := 0, prog := 0 } ∧
            let after := fun (y : AReq) => decide (y.since = s.clk.pclk ∧ ls < y.ls)
            t.alloc.queue = s.alloc.queue.filter (fun y => !after y) ++
              [{ ls := ls, ticket := x, ctx := key, chain := ch, index := index, seg := seg, age := 0, urgent := none, since := s.clk.pclk,
                 bound := ch.bound index seg, held := false }] ++ s.alloc.queue.filter after) ∧
          t.alloc = { s.alloc with tickets := t.alloc.tickets, last := t.alloc.last, queue := t.alloc.queue }
      (∀ u, first = (none, u) → exec (.allocAccept c us) s0 = .next u) ∧
      (∀ f u, first = (some (.error f), u) → refused f u) ∧
      (∀ r u, first = (some (.ok r), u) → (r.hdrOk && r.pair) = false → accepted r none u) ∧
      (∀ r u, first = (some (.ok r), u) → (r.hdrOk && r.pair) = true →
        let second := descFetch c ls cap r.next 32 u
        (∀ u', second = (none, u') → exec (.allocAccept c us) s0 = .next u') ∧
        (∀ f u', second = (some (.error f), u') → refused f u') ∧
        (∀ r2 u', second = (some (.ok r2), u') → accepted r (some r2) u')))) ∧
  (∀ (s : State), s.ranked.Perm (s.alloc.queue.filter (fun r => !r.held)) ∧
    s.ranked.Pairwise (fun x y =>
      let rank := fun (r : AReq) => r.chain.prio + r.age / s.fld POD_ALLOC_CFG_AGE_STEP
      match x.urgent, y.urgent with
      | some i, some j => i ≤ j
      | some _, none => True
      | none, some _ => False
      | none, none => rank y < rank x ∨ (rank y = rank x ∧ y.age ≤ x.age))) ∧
  (∀ (s : State) (q : AReq) (k : Nat), q.chain.paired = false → (s.place q = some k ↔
    (k < s.build.lps ∧ s.lpFree k = true ∧ s.keptFrom q (k / 2) = false) ∧ ∀ j, j < k → s.lpFree j = false ∨ s.keptFrom q (j / 2) = true)) ∧
  (∀ (s : State) (q : AReq) (k : Nat), q.chain.paired = true → (s.place q = some k ↔
    (k % 2 = 0 ∧ k + 1 < s.build.lps ∧ s.lpFree k = true ∧ s.lpFree (k + 1) = true ∧ s.keptFrom q (k / 2) = false) ∧
      ∀ j, j % 2 = 0 → j < k → s.lpFree j = false ∨ s.lpFree (j + 1) = false ∨ s.keptFrom q (j / 2) = true)) ∧
  (∀ (s : State) (q : AReq) (pre post : List AReq) (k p : Nat) (x : Ticket), s.runs → s.on POD_ALLOC_CFG_EN = true → s.clk.margin = false →
    let u := reservePair s
    s.ranked = pre ++ q :: post → (∀ r, r ∈ pre → u.place r = none) → u.place q = some k → s.podOfLp k = some p →
    s.ticket q.ls q.ticket = some x → q.ticket < 256 →
    let p2 := if q.chain.paired then s.podOfLp (k + 1) else none
    ∃ t, exec .allocGrant s = .next t ∧
      t.alloc.queue = (s.alloc.queue.filter (fun r => decide (r.ls ≠ q.ls ∨ r.ticket ≠ q.ticket))).map (fun r =>
        if r.held then r
        else { r with age := min (r.age + 1) 15, urgent := if r.urgent.isNone ∧ 14 ≤ r.age then some s.alloc.grants else r.urgent }) ∧
      t.ticket q.ls q.ticket = some { x with st := .running } ∧
      (∀ ls y, y < 256 → (ls ≠ q.ls ∨ y ≠ q.ticket) → t.ticket ls y = s.ticket ls y) ∧ t.alloc.last = s.alloc.last ∧
      t.run p = some (Run.init q p p2) ∧ (∀ j, j ≠ p → t.run j = s.run j) ∧ t.alloc.grants = s.alloc.grants + 1 ∧
      (∀ l y i, u.alloc.reserve = some (l, y, i) → (∃ r, r ∈ t.alloc.queue ∧ r.ls = l ∧ r.ticket = y) → t.alloc.reserve = some (l, y, i)) ∧
      (∀ i, i = p ∨ p2 = some i → t.on (POD_STAT_BUSY i) = true ∧ t.on (POD_STAT_PAIRED i) = q.chain.paired ∧
        t.fld (POD_STAT_CTX i) = q.ctx % 2 ^ 14 ∧ t.fld (POD_TICKET_TICKET i) = q.ticket ∧ t.reg (POD_FLAGS i) = 0 ∧
        t.reg64 (POD_CHAIN_LO i) (POD_CHAIN_HI i) = q.chain.addr.zeroExtend 64) ∧
      t.fld POD_ALLOC_WAIT_MAXWAIT = max (s.fld POD_ALLOC_WAIT_MAXWAIT) (min (s.clk.pclk - q.since) 0xFFFFFF) ∧
      s.onlyRegs t (POD_ALLOC_WAIT :: (p :: p2.toList).flatMap (fun i =>
        [POD_STAT i, POD_TICKET i, POD_FLAGS i, POD_CHAIN_LO i, POD_CHAIN_HI i, POD_RUNS i])) ∧
      t = { s with regs := t.regs, alloc := t.alloc, pmu := { s.pmu with now := t.pmu.now } })

/-- A load or store streamer takes its elements in order: an active element that passes the checks of Table 5.3 is requested through the
capability copied at acceptance, one that fails starts a drain with its fault recorded, and one that is not active is skipped. Elements of one
granule issued in one PCLK share one read, and one write; a streamer requests at most eight granules in a PCLK, and its writes stand in the
arbiter one after another (R45, R46, R54, R126, R160, R163, R166, R170).

A run ends with DONE, CUT or FAULT: its Pod is idle and raises E(128 + 4n), with + 1 for FAULT and + 2 for CUT; its ticket ends with the
status and the sticky flags, or, where contexts wait in VWAIT, each receives the status in place of the ticket and becomes READY (R143,
R150, R172, R173, R335, Table 4.15).

An ABORT of a busy Pod, of either half of a pair, cuts its run: nothing more is issued, and its requests not granted are withdrawn (R152,
R172).
Model's choice: assumptions 45, 72. -/
def Obligations.PodRuns : Prop :=
  (∀ (s : State) (p k i lp : Nat) (r : Run) (e : PEntry) (d : PStream), s.runs → s.hasPod p = true → s.runOn p = some r →
    s.run r.pod = some r → s.lpOfPod p = some lp → bitsOf (s.fld ⟨DBG_FREEZE, 0, 16⟩) lp 1 = 0 → r.chain.entry k = some e →
    r.chain.stream e = some d → (if k < 10 then p = r.pod else r.pod2 = some p) → e.idx = k → e.streams = true → r.cut = false →
    i = r.nextOf e → r.req.index < r.n →
    let cap := Tbl.get Cap.null d.creg r.chain.caps
    let a := fun (o : Int) => (2 * (cap.base : Int) + o).toNat
    let size := if d.kind = 3 then 1 else if d.kind = 2 then 4 else d.size
    let acc := fun (o : Int) (dest : Dest) (kind : Kind) =>
      ({ dest := dest, port := if e.slot = 9 then 3 + lp else 19 + 3 * lp + e.slot, gran := a o / 16, view := cap.view, group := cap.group,
         owner := BitVec.ofNat 16 cap.owner, kind := kind } : Access)
    let passes := fun (o : Int) => r.elemAddr d i = some o ∧ s.elemCheck cap e.isSt o size = none
    let presents := fun (t : State) (x : Access) => t.arb = if s.holds x then { s.arb with held := s.arb.held ++ [x] }
      else { s.arb with reqs := s.arb.reqs ++ [{ id := s.arb.nextId, acc := x, age := 0, urgent := none, pre := none }],
                        nextId := s.arb.nextId + 1 }
    let only := fun (t : State) => (∀ j, j ≠ r.pod → t.run j = s.run j) ∧
      t = { s with arb := t.arb, alloc := { s.alloc with runs := t.alloc.runs }, pmu := { s.pmu with now := t.pmu.now } }
    let loads := fun (o : Int) =>
      let l := match Tbl.get none e.idx r.asked with
        | some (now, l) => if now = s.clk.pclk then l else []
        | none => []
      match l.find? (fun x => decide (x.1 = a o / 16) && s.awaits (.podLd p k x.2)) with
      | some x => ∃ t, exec (.streamElementIssue p k i) s = .next t ∧ only t ∧ t.arb = s.arb ∧
          t.run r.pod = some { r.setNext e (i + 1) with rides := r.rides ++ [(k, x.2, i)] }
      | none => if 8 ≤ l.length then exec (.streamElementIssue p k i) s = .next s
        else ∃ t, exec (.streamElementIssue p k i) s = .next t ∧ only t ∧ presents t (acc o (.podLd p k i) .read) ∧
          t.run r.pod = some { r.setNext e (i + 1) with asked := Tbl.set none k (some (s.clk.pclk, l ++ [(a o / 16, i)])) r.asked }
    let faults := fun (o : Int) (felem : Nat) => r.elemAddr d i = some o → ∀ x, s.elemCheck cap e.isSt o size = some x → r.fault = none →
      ∃ t r', exec (.streamElementIssue p k i) s = .next t ∧ t.run r.pod = some r' ∧ t.mem = s.mem ∧ t.regs = s.regs ∧ r'.fault = some
        { e := felem, entry := k, stream := e.imm % 4, cls := x.1, cause := x.2, foff := BitVec.ofInt 48 o }
    (e.isLd = true → e.op = 3 → i ≤ d.param.toNat → Tbl.get none (elemKey k i) r.bad = none → ∀ o, passes o → loads o) ∧
    (e.isLd = true → e.op ≠ 3 → r.mayLoad i = true →
      (r.active e i = some true → ∀ o, (passes o → loads o) ∧ faults o i) ∧
      (r.active e i = some false → ∃ t, exec (.streamElementIssue p k i) s = .next t ∧ only t ∧ t.arb = s.arb ∧
        t.run r.pod = some { r.setNext e (i + 1) with vals := Tbl.set none (elemKey k i) (some 0) r.vals })) ∧
    (e.isLd = false → e.isSt = true → r.mayStore e i = true →
      (r.active e i = some false → ∃ t, exec (.streamElementIssue p k i) s = .next t ∧ only t ∧ t.arb = s.arb ∧
        t.run r.pod = some (r.setNext e (i + 1))) ∧
      (r.active e i = some true → ∀ v o, r.source e i = some v →
        faults o (match r.reduceOf e with
          | some x => r.resultElem x i
          | none => i) ∧
        (passes o →
          let now := r.writes.filter (fun w => decide (w.ent = k ∧ w.when = s.clk.pclk))
          let lane := a o % 16
          if now.any (fun w => decide (w.acc.gran = a o / 16)) then
            ∃ t, exec (.streamElementIssue p k i) s = .next t ∧ only t ∧ ∃ r', t.run r.pod = some r' ∧ r'.nextOf e = i + 1 ∧
              r'.writes.map (fun w => (w.ent, w.acc.dest, w.acc.gran)) = r.writes.map (fun w => (w.ent, w.acc.dest, w.acc.gran)) ∧
              r'.writes.map (fun w => w.els) = r.writes.map (fun w =>
                if w.ent = k ∧ w.when = s.clk.pclk ∧ w.acc.gran = a o / 16 then w.els ++ [(i, lane, v)] else w.els)
          else if 8 ≤ now.length then exec (.streamElementIssue p k i) s = .next s
          else ∃ t data be, exec (.streamElementIssue p k i) s = .next t ∧ only t ∧
            (let x := acc o (.podSt p i) (.write data be false);
              (if r.writesOf e = [] then presents t x else t.arb = s.arb) ∧
                t.run r.pod = some { r.setNext e (i + 1) with
                                     writes := r.writes ++ [{ ent := k, els := [(i, lane, v)], acc := x, when := s.clk.pclk }] }) ∧
            (lane + d.size ≤ 16 → ∀ b, b < 16 → be.getLsbD b = decide (lane ≤ b ∧ b < lane + d.size) ∧
              (lane ≤ b → b < lane + d.size → (data.extractLsb' (8 * b) 8).toNat = v / 2 ^ (8 * (b - lane)) % 256)))))) ∧
  (∀ (s : State) (r : Run) (bit : Nat) (x : Ticket), s.runs → r.pod < s.build.pods → s.runOn r.pod = some r → s.run r.pod = some r →
    r.pod2 = none → r.orphan = false → r.outcome = some bit → s.ticket r.req.ls r.req.ticket = some x → Tbl.wf Ctx.init s.ctxs = true →
    let p := r.pod
    let c := CoreId.seq (s.seqOfLs r.req.ls)
    let stop := if bit = 6 then r.n else (r.progress (decide (bit = 8))).1
    let status := statusWord (r.flags stop) bit
    ∃ t, exec (.runEnd p) s = .next t ∧ t.run p = none ∧ t.mem = s.mem ∧
      (r.reset = [] → t.on (POD_STAT_BUSY p) = false ∧ t.fld (POD_INDEX_NEXT p) = stop % 2 ^ 24 ∧
        t.reg (POD_FLAGS p) = BitVec.ofNat 32 (r.flags stop).bits) ∧
      (r.reset = [p] → ∀ o, o ∈ [POD_STAT p, POD_INDEX p, POD_FLAGS p] → t.reg o = s.reg o) ∧
      ((s.core c).vwait ≠ some r.req.ticket → ∀ k, waitsOn r.req.ls r.req.ticket k (s.ctxAt k) = false → t.ctxAt k = s.ctxAt k) ∧
      ((∀ k, waitsOn r.req.ls r.req.ticket k (s.ctxAt k) = false) → (s.core c).vwait ≠ some r.req.ticket →
        t.ticket r.req.ls r.req.ticket = some { st := .ended, status := status, prog := if bit = 6 then 0 else r.record (decide (bit = 8)) } ∧
        s.raises t (if bit = 8 then [128 + 4 * p, 129 + 4 * p] else if bit = 7 then [128 + 4 * p, 130 + 4 * p] else [128 + 4 * p])) ∧
      (bit = 6 → (∀ k, waitsOn r.req.ls r.req.ticket k (s.ctxAt k) = false) → (s.core c).vwait = some r.req.ticket →
        t.ticket r.req.ls r.req.ticket = none ∧ (t.core c).vwait = none ∧ ∀ v, s.view c = some v → v.bounded → 1 ≤ v.depth →
          ∃ v', t.view c = some v' ∧ v.leaves v' 1 [status] ∧ v'.regs = v.regs.complete none) ∧
      (bit = 6 → (s.core c).vwait ≠ some r.req.ticket → ∀ k, waitsOn r.req.ls r.req.ticket k (s.ctxAt k) = true →
        t.ticket r.req.ls r.req.ticket = none ∧
        let y := s.ctxAt k
        let z := { y with bank := { y.bank with cells := Tbl.set 0 (y.bank.opd - 1) status y.bank.cells }, r := y.r.complete none, vpend := false }
        t.ctxAt k = if y.state = .parked then { z with pflt := false } else { z with state := .ready, age := 0, urgent := none, pflt := false })) ∧
  (∀ (s : State) (p : Nat), s.runs → s.hasPod p = true →
    (s.on (POD_STAT_BUSY p) = false → exec (.podAbort p) s = .next s) ∧
    (∀ r, s.on (POD_STAT_BUSY p) = true → s.runOn p = some r → s.run r.pod = some r → ∃ t, exec (.podAbort p) s = .next t ∧
      t.run r.pod = some r.cutOff ∧ r.cutOff.cut = true ∧ r.cutOff.writes = [] ∧ (∀ q, q ≠ r.pod → t.run q = s.run q) ∧
      (∀ x, x ∈ t.arb.reqs ↔ x ∈ s.arb.reqs ∧ ∀ q e i, (x.acc.dest = .podLd q e i ∨ x.acc.dest = .podSt q i) → q ≠ r.pod ∧ r.pod2 ≠ some q) ∧
      t = { s with alloc := { s.alloc with runs := t.alloc.runs }, arb := t.arb }))

/-! ### Commit groups, leases, the freeze and the flip's release (chapter 03) -/

/-- ADMIT and DONE count a group's jobs in OPEN, DISCARD ends its working versions, and its sweep frees their entries; each is refused with CMD_REF
alone where R83 says; OP 0 does nothing (R83, R84).

Outside a flip a free lease slot takes its group at once, with the group's epoch, TSEQ and FLIPS; during one it waits; a held slot ignores a
request; its release clears HELD (R104 to R106).
Model's choice: assumption 34. -/
def Obligations.GroupsAndLeases : Prop :=
  (∀ (s : State) (g : BitVec 6), s.runs →
    let x := s.group g.toNat
    let sets := fun (i : Instr) (y : Group) => ∃ t, exec i s = .next t ∧ t.group g.toNat = y ∧ (∀ h, h ≠ g.toNat → t.group h = s.group h) ∧
      s.onlyRegs t [HIF_STAT] ∧ t = { s with regs := t.regs, epc := { s.epc with groups := t.epc.groups }, hif := t.hif } ∧
      ((∀ q, q ∈ s.hif.queue → q.group ≠ g) ∨ i ≠ .gcmdDiscard g → t.regs = s.regs ∧ t.hif = s.hif) ∧
      (i = .gcmdDiscard g → t.hif.queue = s.hif.queue.filter (fun q => decide (q.group ≠ g)) ∧
        t.on HIF_STAT_CANCELLED = (s.on HIF_STAT_CANCELLED || s.hif.queue.any (fun q => decide (q.group = g))))
    let refused := fun (i : Instr) => ∃ t, exec i s = .next t ∧ t.on EPC_STAT_CMD_REF = true ∧ s.onlyRegs t [EPC_STAT] ∧
      t = { s with regs := t.regs }
    (if x.deferred = true ∨ x.sweep = true ∨ x.opens = 0xFFFF then refused (.gcmdAdmit g)
      else sets (.gcmdAdmit g) { x with opens := x.opens + 1 }) ∧
    (if x.opens = 0 ∨ x.sweep = true then refused (.gcmdDone g) ∧ refused (.gcmdDiscard g)
      else sets (.gcmdDone g) { x with opens := x.opens - 1 } ∧ sets (.gcmdDiscard g) { x with wepoch := x.wepoch + 1, sweep := true }) ∧
    exec .gcmdNone s = .next s ∧
    (x.sweep = true → ∃ t, exec (.sweepDone g) s = .next t ∧ t.group g.toNat = { x with sweep := false } ∧
      (∀ h, h ≠ g.toNat → t.group h = s.group h) ∧
      (∀ k, t.entry k = if (s.entry k).group = g ∧ s.estate (s.entry k) = .stale then Entry.free else s.entry k) ∧
      t = { s with epc := { s.epc with groups := t.epc.groups, remap := t.epc.remap } }) ∧
    (x.opens ≠ 0 → x.sweep = false → ∀ e : Entry, e.group = g → e.valid = true → e.borrowed = false → e.epoch = x.wepoch →
      (x.wepoch - x.gepoch).toInt = 1 → ∃ t, exec (.gcmdDiscard g) s = .next t ∧ t.estate e = .stale)) ∧
  (∀ (s : State) (n : Nat) (g : BitVec 6), s.runs → n < 4 →
    (s.on (EPC_LEASE_CTL_HELD n) = true ∨ s.on (EPC_LEASE_CTL_TAKE n) = true → exec (.leaseTake n g) s = .next s) ∧
    (s.on (EPC_LEASE_CTL_HELD n) = false → s.on (EPC_LEASE_CTL_TAKE n) = false → ∃ t, exec (.leaseTake n g) s = .next t ∧
      t.fld (EPC_LEASE_CTL_GROUP n) = g.toNat ∧ t = { s with regs := t.regs } ∧
      (s.epc.flip = none → t.on (EPC_LEASE_CTL_HELD n) = true ∧ t.on (EPC_LEASE_CTL_TAKE n) = false ∧
        t.reg (EPC_LEASE_EPOCH n) = (s.group g.toNat).gepoch ∧ t.fld (EPC_LEASE_CTL_TSEQ n) = s.fld EPC_STAT_TSEQ ∧
        t.reg64 (EPC_LEASE_FLIPS_LO n) (EPC_LEASE_FLIPS_HI n) = s.reg64 EPC_FLIPS_LO EPC_FLIPS_HI ∧
        s.onlyRegs t [EPC_LEASE_CTL n, EPC_LEASE_EPOCH n, EPC_LEASE_FLIPS_LO n, EPC_LEASE_FLIPS_HI n]) ∧
      (s.epc.flip ≠ none → t.on (EPC_LEASE_CTL_TAKE n) = true ∧ t.on (EPC_LEASE_CTL_HELD n) = false ∧ s.onlyRegs t [EPC_LEASE_CTL n])) ∧
    (s.on (EPC_LEASE_CTL_HELD n) = true → ∃ t, exec (.leaseRelease n) s = .next t ∧ t.on (EPC_LEASE_CTL_HELD n) = false ∧
      t.fld (EPC_LEASE_CTL_GROUP n) = s.fld (EPC_LEASE_CTL_GROUP n) ∧ s.onlyRegs t [EPC_LEASE_CTL n] ∧ t = { s with regs := t.regs }))

/-- A first freeze request starts the freeze flip, or waits for the running one, and a second changes nothing; the release of a flip records its
groups in FLIPPED, counts it in FLIPS, raises E(304 + g) for each of them, and lets the accesses held reach their arbiters in arrival order;
the freeze flip's release refuses the writes among them (R97, R110, R111, R114, Table 3.8).

A visit of the background walk frees a STALE entry, asks for the fold of a DONE one, and moves on, while BG_EN is set and no fold of the bank
waits (R98).
Model's choice: assumptions 65, 88. -/
def Obligations.FreezeReleaseReclaim : Prop :=
  ((∀ s : State, s.runs →
    (s.on EPC_CTL_FREEZE = true → exec .freezeRequest s = .next s) ∧
    (s.on EPC_CTL_FREEZE = false → ∃ t, exec .freezeRequest s = .next t ∧ t.on EPC_CTL_FREEZE = true ∧ t.mem = s.mem ∧
      (s.epc.flip = none → ∃ f, t.epc.flip = some { set := f, freeze := true, swaps := false, tb := s.clk.tb } ∧ t.on EPC_STAT_FLIP_BUSY = true ∧
        ∀ g, g < 64 → ((s.group g).opens = 0 ∧ (s.group g).sweep = false ∧ ((s.group g).deferred = true ∨ s.leased g = false) ↔
          f.getLsbD g = true)) ∧
      (s.epc.flip ≠ none → s.onlyRegs t [EPC_CTL] ∧ t = { s with regs := t.regs, epc := { s.epc with freezeWait := true } }))) ∧
  (∀ (s : State) (f : Flip), s.runs → s.epc.flip = some f → s.epc.freezeWait = false → s.epc.tickWait = false →
    (∀ l, l < 5 → (s.wlink l).held = []) → (∀ n, n < 4 → s.on (EPC_LEASE_CTL_TAKE n) = false) → s.hif.casts = [] →
    let refused := if f.freeze then s.arb.held.filter Access.writes else []
    refused = [] ∨ (∃ a c k, refused = [a] ∧ a.dest = .core c k ∧ ∃ d be tag, a.kind = .write d be tag) →
    ∃ t, exec .flipRelease s = .next t ∧ t.epc.flip = none ∧ t.on EPC_STAT_FLIP_BUSY = false ∧
      t.reg64 EPC_FLIPPED_LO EPC_FLIPPED_HI = f.set ∧ t.reg64 EPC_FLIPS_LO EPC_FLIPS_HI = s.reg64 EPC_FLIPS_LO EPC_FLIPS_HI + 1 ∧
      t.on EPC_STAT_FROZEN = (f.freeze || s.on EPC_STAT_FROZEN) ∧
      s.raises t (((List.range 64).filter (fun g => f.set.getLsbD g)).map (fun g => 304 + g)) ∧
      t.arb.held = [] ∧ (refused = [] → t.arb.reqs.map (fun r => r.acc) = s.arb.reqs.map (fun r => r.acc) ++ s.arb.held) ∧
      (∀ a c k x l, a ∈ refused → a.dest = .core c k → (s.core c).flight = x :: l → x.tok = k → (t.core c).fault = some (mkFault 2 4 x.word)) ∧
      (∀ r, r ∈ t.arb.reqs.drop s.arb.reqs.length → r.age = 0 ∧ r.urgent = none) ∧
      (refused = [] → s.onlyRegs t [EPC_FLIPPED_LO, EPC_FLIPPED_HI, EPC_FLIPS_LO, EPC_FLIPS_HI, EPC_STAT]) ∧ t.mem = s.mem ∧ t.epc.groups = s.epc.groups)) ∧
  (∀ (s : State) (b : Nat), s.runs → b < 127 * s.build.slices → s.on EPC_CTL_BG_EN = true → Tbl.get false b s.epc.folding = false →
    let i := Tbl.get 0 b s.epc.walk
    let e := s.entry (512 * b + i)
    ∃ t, exec (.backgroundReclaimVisit b) s = .next t ∧ Tbl.get 0 b t.epc.walk = (i + 1) % 512 ∧ t.mem = s.mem ∧ t.regs = s.regs ∧
      (∀ k, k ≠ 512 * b + i → t.entry k = s.entry k) ∧
      (s.estate e = .stale → t.entry (512 * b + i) = Entry.free ∧ t.arb = s.arb) ∧
      (s.estate e = .done → t.entry (512 * b + i) = e ∧ Tbl.get false b t.epc.folding = true ∧
        ∃ a, t.arb.reqs = s.arb.reqs ++ [{ id := s.arb.nextId, acc := a, age := 0, urgent := none, pre := none }] ∧ a.dest = .reclaim b i ∧
          a.port = 2 ∧ a.kind = .fold ∧ bankOf s.build a.gran = b ∧ homeOf s.build a.gran = e.home.toNat) ∧
      (s.estate e ≠ .stale → s.estate e ≠ .done → t.entry (512 * b + i) = e ∧ t.arb = s.arb))

/-! ### NPX and the host rings (chapter 11) -/

/-- The NPX target, with no transaction outstanding: a REG request of several beats and a request that crosses 4 KiB take ERR on every beat and
touch nothing, but that such a REG write marks the inline slots it covers, and those of a SMEM read carry its stamp; a one-beat REG read answers
its registers, and a REG write writes those whose four bytes are enabled; a SMEM read asks stream memory for its granules in the committed view
and a staging write for those with a byte enabled; a write of the committed window is ERR; a write to a broadcast aperture inside the window in
which a swap may be applied waits, unanswered (R10, R11, R24, R25, R351, R353, R354, R355, R356, R358, R368, R373).
Model's choice: assumption 51. -/
def Obligations.NpxRequests : Prop :=
  ∀ (s : State) (id : BitVec 8) (addr : BitVec 28) (qos : BitVec 4) (beats : List NpxBeat), s.runs → s.crp.phase = 2 → s.hif.txns = [] →
    let a := addr.toNat / 64 * 64
    (s.castWaits = true → inAperture a = true → regHole a = false → ∃ t, exec (.npxWriteRequest id false addr 0 qos beats) s = .next t ∧ t.regs = s.regs ∧
      t.hif = { s.hif with next := s.hif.next + 1,
                           casts := s.hif.casts ++ [.npx s.hif.next a (beats.getD 0 { data := 0, be := 0 })],
                           txns := [{ no := s.hif.next, id := id, write := true, sent := 0, beats :=
                             [{ wait := [0], resp := 0, data := 0, stamp := (0, 0, false) }] }] } ∧
      t = { s with hif := t.hif, pmu := t.pmu }) ∧
    (s.epc.flip = none → s.castWaits = false →
    let w := beats.getD 0 { data := 0, be := 0 }
    let sends := fun (t : State) (l : List NpxOut) => t.hif = { s.hif with next := s.hif.next + 1, sent := s.hif.sent ++ l }
    let only := fun (t : State) => t = { s with hif := t.hif, pmu := t.pmu, arb := t.arb }
    let reqs := fun (t : State) (qs : List Nat) (acc : Nat → Access) => t.arb.held = s.arb.held ∧
      t.arb.reqs.map (fun r => r.acc) = s.arb.reqs.map (fun r => r.acc) ++ qs.map acc ∧ t.arb.reqs.take s.arb.reqs.length = s.arb.reqs
    (∀ (len : BitVec 6) (smem : Bool), (smem = false ∧ 0 < len.toNat) ∨ a / 4096 ≠ (a + 64 * len.toNat + 63) / 4096 →
      (∃ t, exec (.npxReadRequest id smem addr len qos) s = .next t ∧ only t ∧ t.arb = s.arb ∧ sends t ((List.range (len.toNat + 1)).map (fun b =>
        .rd id b 1 0 (if smem then s.npxStamp (a + 64 * b) else (0, 0, false)) (decide (b = len.toNat))))) ∧
      (∃ t, exec (.npxWriteRequest id smem addr len qos beats) s = .next t ∧ sends t [.wr id 1] ∧ t = { s with regs := t.regs, hif := t.hif, pmu := t.pmu } ∧
        s.onlyRegs t ((List.range 64).map HIF_RING_STAT) ∧ ∀ n, n < 64 → (t.on (HIF_RING_STAT_INLINE_ERR n) = true ↔
          s.on (HIF_RING_STAT_INLINE_ERR n) = true ∨ (smem = false ∧ ∃ b, b ≤ len.toNat ∧ inlineSlot (a + 64 * b) = some n)))) ∧
    (∃ s', s' = { s with pmu := s'.pmu } ∧ ∀ f : Nat → Reg, regHole a = false → (∀ j, j < 16 → s.hostGate false (a + 4 * j) = .pass ∧
        regRead false (a + 4 * j) s' = (f j, s')) →
      ∃ t d, exec (.npxReadRequest id false addr 0 qos) s = .next t ∧ sends t [.rd id 0 0 d (0, 0, false) true] ∧
        (∀ j, j < 16 → d.extractLsb' (32 * j) 32 = f j) ∧ t.regs = s.regs ∧ t.mem = s.mem ∧ t.arb = s.arb) ∧
    (∀ j, j < 16 → regHole a = false → inAperture a = false → inlineSlot a = none → w.be = BitVec.ofNat 64 (15 * 2 ^ (4 * j)) →
      s.hostGate true (a + 4 * j) = .pass → ∃ t s', exec (.npxWriteRequest id false addr 0 qos beats) s = .next t ∧
        s' = { s with pmu := s'.pmu } ∧ t.regs = (regWrite .host 0 (a + 4 * j) (w.data.extractLsb' (32 * j) 32) s').2.regs ∧
        ((regWrite .host 0 (a + 4 * j) (w.data.extractLsb' (32 * j) 32) s').2.hif = s.hif → sends t
          [.wr id (if (regWrite .host 0 (a + 4 * j) (w.data.extractLsb' (32 * j) 32) s').1 then 1 else 0)])) ∧
    (a < 0x8000000 → a / 16 + 4 ≤ s.build.granules → s.on SEC_NARROW_H_CMT = false → let m := s.stamp (a / 65536)
      ∃ t, exec (.npxReadRequest id true addr 0 qos) s = .next t ∧ only t ∧ reqs t [0, 1, 2, 3] (fun q =>
          { dest := .npxRd s.hif.next 0 q, port := 0, gran := a / 16 + q, view := 1, group := m, owner := 0x8000, kind := .read }) ∧
        t.hif = { s.hif with next := s.hif.next + 1, txns := [{ no := s.hif.next, id := id, write := false, sent := 0, beats :=
          [{ wait := [0, 1, 2, 3], resp := 0, data := 0, stamp := (m, (s.group m.toNat).gepoch, false) }] }] }) ∧
    (a < 0x8000000 → a / 16 + 4 ≤ s.build.granules → ∃ t, exec (.npxWriteRequest id true addr 0 qos beats) s = .next t ∧ only t ∧
      t.arb = s.arb ∧ sends t [.wr id 1]) ∧
    (0x8000000 ≤ a → (a - 0x8000000) / 16 + 4 ≤ s.build.granules → s.on SEC_NARROW_H_STG = false → w.be ≠ 0 →
      let qs := ([0, 1, 2, 3] : List Nat).filter (fun q => decide (w.be.extractLsb' (16 * q) 16 ≠ 0))
      ∃ t, exec (.npxWriteRequest id true addr 0 qos beats) s = .next t ∧ only t ∧ reqs t qs (fun q =>
          { dest := .npxWr s.hif.next 0 q, port := 0, gran := (a - 0x8000000) / 16 + q, view := 2, group := 63, owner := 0x8000,
            kind := .write (w.data.extractLsb' (128 * q) 128) (w.be.extractLsb' (16 * q) 16) false }) ∧
        t.hif.sent = s.hif.sent ∧ ∃ x, t.hif.txns = [x] ∧ x.id = id ∧ x.write = true ∧ x.beats.map (fun b => b.wait) = [qs]))

/-- HIF_CTL.EN empties the inbox as it rises; a ring's EN takes its fields and starts it afresh; a disabled ring loses its pending records; the
doorbells set the tail and the head of an enabled ring, and DB_ERR otherwise (R360, R365, R366, R375, R376).

The next ring in round-robin order with descriptors has up to four of them read; those that return are stamped with ring and slot, written to
the inbox in order, and E(240 + n) raised; an error stops the ring with FETCH_ERR; an inline descriptor reaches its sequencer's mailbox
whole, or is refused with INLINE_ERR (R359 to R361, R368, R369).
Model's choice: assumptions 12, 67, 99. -/
def Obligations.HostRings : Prop :=
  (∀ (s : State) (n : Nat) (v : Reg), s.runs → n < 64 →
    let cfg := s.on (HIF_RING_CFG_EN n)
    let err := fun (i : Instr) => ∃ t, exec i s = .next t ∧ t.on (HIF_RING_STAT_DB_ERR n) = true ∧ s.onlyRegs t [HIF_RING_STAT n] ∧
      t = { s with regs := t.regs }
    (s.on HIF_CTL_EN = false → ∃ t, exec .hifEnable s = .next t ∧ t.on HIF_CTL_EN = true ∧ t.reg HIF_INBOX_PTR = 0 ∧
      (∀ m, (t.ring m).due = []) ∧ t = { s with regs := t.regs, hif := t.hif, pmu := t.pmu } ∧
      ((∀ m, (s.ring m).due = []) → s.onlyRegs t [HIF_CTL, HIF_INBOX_PTR] ∧ (∀ m, t.ring m = s.ring m) ∧ t.hif.sent = s.hif.sent)) ∧
    (cfg = true → exec (.ringEnable n v) s = .next s) ∧
    (cfg = false → ∃ t, exec (.ringEnable n v) s = .next t ∧ t.on (HIF_RING_CFG_EN n) = true ∧ t.reg (HIF_RING_PTR n) = 0 ∧
      (let k := v.toNat / 2 % 16; t.fld (HIF_RING_CFG_SQSIZE n) = if 2 ≤ k ∧ k ≤ 12 then k else s.fld (HIF_RING_CFG_SQSIZE n)) ∧
      (let k := v.toNat / 32 % 16; t.fld (HIF_RING_CFG_CQSIZE n) = if 2 ≤ k ∧ k ≤ 12 then k else s.fld (HIF_RING_CFG_CQSIZE n)) ∧
      t.fld (HIF_RING_CFG_QOS n) = v.toNat / 512 % 16 ∧ t.fld (HIF_RING_CFG_IRQLINE n) = v.toNat / 32768 % 16 ∧
      t.reg (HIF_DB_SQTAIL n) = 0 ∧ t.reg (HIF_DB_CQHEAD n) = 0 ∧ t.on (HIF_RING_STAT_STOPPED n) = false ∧ t.on (HIF_DB_IRQ_PEND n) = false ∧
      (t.ring n).phase = true ∧ (∀ m, m ≠ n → t.ring m = s.ring m) ∧ t.hif.queue = s.hif.queue ∧
      s.onlyRegs t [HIF_RING_CFG n, HIF_RING_PTR n, HIF_DB_SQTAIL n, HIF_DB_CQHEAD n, HIF_RING_STAT n, HIF_DB_IRQ n] ∧
      t = { s with regs := t.regs, hif := t.hif }) ∧
    (cfg = true → ∃ t, exec (.ringDisable n) s = .next t ∧ t.on (HIF_RING_CFG_EN n) = false ∧ (t.ring n).due = [] ∧
      (∀ x, x ∈ t.hif.inbox → x.1 ≠ n) ∧ (s.hif.inbox.head?.map Prod.fst ≠ some n →
      t.hif.queue = s.hif.queue.filter (fun r => !decide (r.ring = n)) ∧ (∀ f, (t.ring n).fetch = some f → f.drop = true) ∧
      (t.on HIF_STAT_CANCELLED = (s.on HIF_STAT_CANCELLED || s.hif.queue.any (fun r => decide (r.ring = n)))) ∧
      s.onlyRegs t [HIF_RING_CFG n, HIF_STAT] ∧ t = { s with regs := t.regs, hif := t.hif })) ∧
    (let x := v.toNat % 4096
      if cfg = true ∧ s.on (HIF_RING_BIND_EN n) = false ∧ x < 2 ^ s.fld (HIF_RING_CFG_SQSIZE n) then ∃ t, exec (.doorbellSqtail n v) s = .next t ∧
        t.fld (HIF_DB_SQTAIL_TAIL n) = x ∧ s.onlyRegs t [HIF_DB_SQTAIL n] ∧ t = { s with regs := t.regs }
      else err (.doorbellSqtail n v)) ∧
    (let x := v.toNat % 4096
      if cfg = true ∧ x < 2 ^ s.fld (HIF_RING_CFG_CQSIZE n) then ∃ t, exec (.doorbellCqhead n v) s = .next t ∧
        t.fld (HIF_DB_CQHEAD_HEAD n) = x ∧ s.onlyRegs t [HIF_DB_CQHEAD n] ∧ t = { s with regs := t.regs }
      else err (.doorbellCqhead n v))) ∧
  (∀ (s : State) (n : Nat), s.runs → n < 64 →
    (s.on HIF_CTL_EN = true → s.on HIF_STAT_INBOX_ERR = false → 0 < s.inboxFree → s.initOut < 128 →
      (∃ i, i < 64 ∧ n = (s.hif.last + 1 + i) % 64 ∧ s.ringWants n = true ∧ ∀ j, j < i → s.ringWants ((s.hif.last + 1 + j) % 64) = false) →
      let len := 2 ^ s.fld (HIF_RING_CFG_SQSIZE n)
      let head := s.fld (HIF_RING_PTR_SQ_HEAD n)
      ∃ t k, exec .descriptorFetch s = .next t ∧ (t.ring n).fetch = some { count := k, out := true, drop := false } ∧ t.hif.last = n ∧
        k = min (min 4 ((s.fld (HIF_DB_SQTAIL_TAIL n) + len - head) % len)) (min (len - head) s.inboxFree) ∧ t.regs = s.regs ∧
        (let at' := ((s.reg64 (HIF_RING_SQBASE_LO n) (HIF_RING_SQBASE_HI n)).toNat / 64 * 64 + 64 * head);
          t.hif.sent = s.hif.sent ++
            [.iread (BitVec.ofNat 8 n) (BitVec.ofNat 64 at') (64 * k) (BitVec.ofNat 4 (s.fld (HIF_RING_CFG_QOS n)))]) ∧
        (∀ m, m ≠ n → t.ring m = s.ring m) ∧ t = { s with hif := t.hif, pmu := t.pmu }) ∧
    (∀ (f : Fetch) (beats : List RdBeat), (s.ring n).fetch = some f → f.out = true → f.drop = false → beats.length = f.count →
      ((∃ b, b ∈ beats ∧ b.resp ≠ 0) → ∀ us, ∃ t, exec (.descriptorReadDone n beats us) s = .next t ∧ (t.ring n).fetch = none ∧
        t.on (HIF_RING_STAT_FETCH_ERR n) = true ∧ t.on (HIF_RING_STAT_STOPPED n) = true ∧ s.onlyRegs t [HIF_RING_STAT n] ∧
        s.raises t [240 + n] ∧ t.mem = s.mem) ∧
      (∀ (d : BitVec 512) (us : List Upset), beats = [⟨0, d⟩] → d.extractLsb' 64 8 = 1 → s.on HIF_STAT_INBOX_ERR = false → s.hif.inbox = [] →
        s.epc.flip = none → s.arb.reqs = [] → s.arb.held = [] → s.arb.ended = [] →
        let tail := s.fld HIF_INBOX_PTR_TAIL
        (s.mem.init = none → ∃ t, exec (.descriptorReadDone n beats us) s = .next t ∧ (t.ring n).fetch = none ∧ t.hif.inbox = [] ∧
          (240 + n, s.clk.tb) ∈ t.evc.raised ∧ t.hif.queue = s.hif.queue ∧
          t.fld HIF_INBOX_PTR_TAIL = (if t.on HIF_STAT_INBOX_ERR then tail else (tail + 1) % 2 ^ s.fld HIF_INBOX_CFG_SIZE % 4096) ∧
          (let slot := s.fld (HIF_RING_PTR_SQ_HEAD n); t.fld (HIF_RING_PTR_SQ_HEAD n) =
            if t.on HIF_STAT_INBOX_ERR then slot else (slot + 1) % 2 ^ s.fld (HIF_RING_CFG_SQSIZE n) % 4096)) ∧
        (s.mem.init ≠ none → s.fld HIF_INBOX_CFG_BASE / 4 * 4 + 4 * tail + 4 ≤ s.build.granules →
          ∃ t, exec (.descriptorReadDone n beats us) s = .next t ∧ t.hif.inbox = [(n, [d])] ∧ t.evc = s.evc ∧ t.regs = s.regs ∧
            (t.ring n).fetch = some { count := 1, out := false, drop := false } ∧ t.arb.reqs.map (fun r => r.acc.dest) =
              [.inbox 0, .inbox 1, .inbox 2, .inbox 3])) ∧
      (∀ (d : BitVec 512) (us : List Upset), beats = [⟨0, d⟩] → d.extractLsb' 64 8 ≠ 1 → s.hif.inbox = [] →
        ∃ t r, exec (.descriptorReadDone n beats us) s = .next t ∧
        t.hif.queue = s.hif.queue ++ [r] ∧ r.ring = n ∧ r.tag = d.extractLsb' 0 64 ∧ r.status = 1 ∧ r.hifrec = true ∧
        t.fld HIF_INBOX_PTR_TAIL = s.fld HIF_INBOX_PTR_TAIL ∧ s.raises t [240 + n] ∧ t.mem = s.mem)) ∧
    (∀ b : NpxBeat, let ls := s.fld (HIF_RING_BIND_LS n)
      let good := s.on (HIF_RING_BIND_EN n) = true ∧ b.be = 0xFFFFFFFFFFFFFFFF ∧ b.data.extractLsb' 64 8 = 1 ∧ ls < s.build.lss
      (¬ good → ∃ t, exec (.inlineDoorbell n b) s = .next t ∧ t.on (HIF_RING_STAT_INLINE_ERR n) = true ∧ s.onlyRegs t [HIF_RING_STAT n] ∧
        t = { s with regs := t.regs }) ∧
      (good → let g := ls * 8192 + s.fld (HIF_RING_BIND_MBOX n) / 4 * 4
        ∃ t, exec (.inlineDoorbell n b) s = .next t ∧ (∀ q, q < 4 → t.scrTag (g + q) = false) ∧
          (∀ q, q < 3 → t.scrData (g + q) = b.data.extractLsb' (128 * q) 128) ∧
          t.scrData (g + 3) = BitVec.ofNat 32 (n + 65536 * (s.ring n).inl.toNat) ++ b.data.extractLsb' 384 96 ∧
          (∀ h, h < g ∨ g + 4 ≤ h → t.scrData h = s.scrData h) ∧ (t.ring n).inl = (s.ring n).inl + 1 ∧ s.raises t [240 + n] ∧
          t.regs = s.regs ∧ t.mem = s.mem)))

/-- A post joins the pending queue, or is refused with POST_FULL; a ring's first released record is written at CQ_TAIL, which advances; its OK
response, the notification's last, notifies the ring and removes it, but with NMODE MSG it stays until the message returns OK, and with
HIF_CTL.EN 0 until the notification is made; an error stops the ring and keeps it (R363, R365, R367, R560, Table 11.3).
Model's choice: assumptions 67, 100. -/
def Obligations.CompletionRecords : Prop :=
  ∀ (s : State) (n : Nat), s.runs → n < 64 →
    (∀ v : Reg, v.toNat % 64 = n →
      (1024 ≤ s.hif.queue.length ∨ s.on (HIF_RING_CFG_EN n) = false → ∃ t, exec (.postRecord v) s = .next t ∧ t.on HIF_STAT_POST_FULL = true ∧
        t.hif = s.hif ∧ s.onlyRegs t [HIF_POST_CTL, HIF_STAT] ∧ t = { s with regs := t.regs }) ∧
      (s.hif.queue.length < 1024 → s.on (HIF_RING_CFG_EN n) = true → ∃ t r, exec (.postRecord v) s = .next t ∧
        t.hif.queue = s.hif.queue ++ [r] ∧ r.ring = n ∧ r.group.toNat = v.toNat / 256 % 64 ∧ r.tag = (s.reg (HIF_POST 1) ++ s.reg (HIF_POST 0) : BitVec 64) ∧
        r.status = (s.reg (HIF_POST 3)).extractLsb' 16 16 ∧ r.elems = s.reg (HIF_POST 4) ∧ r.detail = s.reg (HIF_POST 5) ∧
        r.rel.isSome = v.getLsbD 16 ∧ r.out = false ∧ s.onlyRegs t [HIF_POST_CTL] ∧ t = { s with regs := t.regs, hif := t.hif })) ∧
    (∀ r, s.nextRec n = some r → s.on HIF_CTL_EN = true → s.on (HIF_RING_CFG_EN n) = true → s.on (HIF_RING_STAT_STOPPED n) = false →
      s.cqFull n = false → s.initOut < 128 →
      let tail := s.fld (HIF_RING_PTR_CQ_TAIL n)
      ∃ t d, exec (.completionRecordWrite n) s = .next t ∧ t.hif.sent = s.hif.sent ++ [.iwrite (BitVec.ofNat 8 n)
          (BitVec.ofNat 64 ((s.reg64 (HIF_RING_CQBASE_LO n) (HIF_RING_CQBASE_HI n)).toNat / 32 * 32 + 32 * tail)) 32 d
          (BitVec.ofNat 4 (s.fld (HIF_RING_CFG_QOS n)))] ∧
        d.extractLsb' 0 64 = r.tag ∧ d.extractLsb' 96 6 = r.group ∧ d.getLsbD 102 = r.hifrec ∧ d.getLsbD 103 = (s.ring n).phase ∧
        d.extractLsb' 112 16 = r.status ∧ d.extractLsb' 128 32 = r.elems ∧ d.extractLsb' 160 32 = r.detail ∧
        (∀ e b, r.stamp = some (e, b) → d.extractLsb' 64 32 = e ∧ d.extractLsb' 192 64 = b) ∧
        (let tail' := (tail + 1) % 2 ^ s.fld (HIF_RING_CFG_CQSIZE n); t.fld (HIF_RING_PTR_CQ_TAIL n) = tail' % 4096 ∧
          (t.ring n).phase = (if tail' = 0 then !(s.ring n).phase else (s.ring n).phase)) ∧
        t.hif.queue = s.hif.queue.map (fun x => if x.rel = r.rel ∧ x.ring = n then { x with out := true } else x) ∧
        s.onlyRegs t [HIF_RING_PTR n] ∧ t = { s with regs := t.regs, hif := t.hif, pmu := t.pmu }) ∧
    (∀ (r : Rec) (resp : BitVec 2), s.hif.queue = [r] → r.ring = n → r.out = true → (s.ring n).stale = 0 → (s.ring n).due = [] →
      (resp = 0 → ∃ t, exec (.recordWriteResponse n resp) s = .next t ∧
        let waits := t.hif.queue = [{ r with out := false, landed := true }] ∧ t.regs = s.regs
        (s.on HIF_CTL_EN = false → waits ∧ t.hif.sent = s.hif.sent ∧ (t.ring n).due = [r.batch]) ∧
        (s.on HIF_CTL_EN = true → s.fld (HIF_RING_CFG_NMODE n) = 1 → t.hif.queue = [] ∧ t.on (HIF_DB_IRQ_PEND n) = true ∧
          t.hif.sent = s.hif.sent ∧ s.onlyRegs t [HIF_DB_IRQ n]) ∧
        (s.on HIF_CTL_EN = true → s.fld (HIF_RING_CFG_NMODE n) = 2 → waits ∧ (t.ring n).msgs = (s.ring n).msgs ++ [r.batch] ∧
          t.hif.sent = s.hif.sent ++ [.iwrite (BitVec.ofNat 8 (128 + n))
            (BitVec.ofNat 64 ((s.reg64 (HIF_RING_MSGADDR_LO n) (HIF_RING_MSGADDR_HI n)).toNat / 4 * 4)) 4
            (BitVec.zeroExtend 256 (s.reg (HIF_RING_MSGDATA n))) (BitVec.ofNat 4 (s.fld (HIF_RING_CFG_QOS n)))]) ∧
        (s.on HIF_CTL_EN = true → s.fld (HIF_RING_CFG_NMODE n) = 0 → t.hif.queue = [] ∧ t.hif.sent = s.hif.sent ∧ t.regs = s.regs)) ∧
      (resp ≠ 0 → ∃ t, exec (.recordWriteResponse n resp) s = .next t ∧ t.hif.queue = [{ r with out := false, landed := false }] ∧
        t.on (HIF_RING_STAT_WRITE_ERR n) = true ∧ t.on (HIF_RING_STAT_STOPPED n) = true ∧ s.onlyRegs t [HIF_RING_STAT n])) ∧
    (∀ (k : Nat) (ks : List Nat) (resp : BitVec 2), (s.ring n).msgs = k :: ks → ∃ t, exec (.recordWriteResponse (128 + n) resp) s = .next t ∧
      (t.ring n).msgs = ks ∧ t.hif.sent = s.hif.sent ∧
      (resp = 0 → t.regs = s.regs ∧
        t.hif.queue = s.hif.queue.filter (fun y => !(decide (y.ring = n) && decide (y.batch = k) && y.landed))) ∧
      (resp ≠ 0 → t.hif.queue = s.hif.queue ∧ (s.on (HIF_RING_CFG_EN n) = true → t.on (HIF_RING_STAT_WRITE_ERR n) = true ∧
        t.on (HIF_RING_STAT_STOPPED n) = true ∧ s.onlyRegs t [HIF_RING_STAT n])))

/-! ### Performance monitor (chapter 15) -/

/-- PMU_SNAP.GO copies every counter, with its carries, and TB; CLR clears every counter; a counter that passes 0xFFFF_FFFF wraps and sets its OVF,
and E370 with OVIE, but the even half of a pair carries; a port window's end moves its byte counts to BW_LAST and BW_MAX (R457 to R461, R467).

RL_EN, as it rises, empties the Ringlet; the entry a strobe latched is written to its slot, 544 words each, as the page table of bulk memory
places it, or lost with E369 when the buffer is full and keeps its oldest entries; its last response moves WPTR on and raises E368, and an
error stops the dump (R463 to R466).
Model's choice: assumption 19. -/
def Obligations.PerformanceMonitor : Prop :=
  (∀ (s : State) (n : Nat) (v : BitVec 32), s.runs → n < 256 →
    (∃ t, exec .pmuSnapshot s = .next t ∧ t.reg64 PMU_SNAP_TB_LO PMU_SNAP_TB_HI = s.clk.tb ∧
      t.reg (PMU_SNP n) = s.reg (PMU_CNT n) + (if n % 2 = 1 ∧ s.on (PMU_CFG_CHAIN n) = true ∧ Tbl.get false (n / 2) s.pmu.carry = true
        then 1 else 0) ∧
      t.reg (PMU_CNT n) = s.reg (PMU_CNT n) ∧ (∀ o, o ≠ PMU_SNAP_TB_LO → o ≠ PMU_SNAP_TB_HI → (∀ k, k < 256 → o ≠ PMU_SNP k) → t.reg o = s.reg o) ∧
      t = { s with regs := t.regs }) ∧
    (∃ t, exec .pmuClear s = .next t ∧ t.reg (PMU_CNT n) = 0 ∧ (∀ o, (∀ k, k < 256 → o ≠ PMU_CNT k) → t.reg o = s.reg o) ∧
      t = { s with regs := t.regs }) ∧
    (s.on PMU_CTL_EN = true → s.on (PMU_CFG_EN n) = true → (n % 2 = 0 ∨ s.on (PMU_CFG_CHAIN n) = false) →
      2 ^ 32 ≤ (s.reg (PMU_CNT n)).toNat + v.toNat → ∃ t, exec (.pmuCounterOverflow n v) s = .next t ∧
        t.reg (PMU_CNT n) = s.reg (PMU_CNT n) + v ∧
        (if n % 2 = 0 ∧ s.on (PMU_CFG_CHAIN (n + 1)) = true then Tbl.get false (n / 2) t.pmu.carry = true ∧ s.onlyRegs t [PMU_CNT n] ∧
          t = { s with regs := t.regs, pmu := t.pmu }
        else (t.reg (PMU_OVF (n / 32))).getLsbD (n % 32) = true ∧ s.onlyRegs t [PMU_CNT n, PMU_OVF (n / 32)] ∧
          (if s.on (PMU_CFG_OVIE n) then s.raises t [370] else t.evc = s.evc) ∧ t = { s with regs := t.regs, evc := t.evc })) ∧
    (∀ p, p < 20 → s.clk.bwDue = true → let b := min (Tbl.get 0 p s.pmu.bytes) 0xFFFFFFFF
      ∃ t, exec .bwWindowEnd s = .next t ∧ (t.reg (PMU_BW_LAST p)).toNat = b ∧
        (t.reg (PMU_BW_MAX p)).toNat = max b (s.reg (PMU_BW_MAX p)).toNat ∧ t.pmu.bytes = [] ∧
        (∀ o, (∀ q, q < 20 → o ≠ PMU_BW_LAST q ∧ o ≠ PMU_BW_MAX q) → t.reg o = s.reg o))) ∧
  (∀ (s : State) (v : Reg) (x : PmuLatch), s.runs →
    (∃ t, exec (.ringletEnable v) s = .next t ∧ t.on PMU_CTL_RL_EN = true ∧ t.on PMU_CTL_EN = v.getLsbD 0 ∧ t.on PMU_CTL_RL_MODE = v.getLsbD 2 ∧
      t.reg PMU_RL_PTR = (if s.on PMU_CTL_RL_EN then s.reg PMU_RL_PTR else 0) ∧ t = { s with regs := t.regs }) ∧
    (s.pmu.latch = some x → s.pmu.writing = false → s.epc.flip = none →
      let size := 2 ^ s.fld PMU_RL_CFG_SIZE
      let w := s.fld PMU_RL_PTR_WPTR
      let base := (s.reg64 PMU_RL_BASE_LO PMU_RL_BASE_HI).toNat / 8 * 8 + 544 * w
      let full := decide ((w + 1) % size = s.fld PMU_RL_PTR_RPTR)
      (full = true → s.on PMU_CTL_RL_MODE = true → ∃ t, exec .ringletWrite s = .next t ∧ t.pmu.latch = none ∧ t.on PMU_STAT_RL_BUSY = false ∧
        t.reg PMU_RL_PTR = s.reg PMU_RL_PTR ∧ s.onlyRegs t [PMU_RL_CNT, PMU_STAT] ∧ s.raises t [369] ∧ t.bulkOut = s.bulkOut) ∧
      (full && s.on PMU_CTL_RL_MODE = false → 0x8000000000 ≤ base → 2 * (base + 544 - 0x8000000000) ≤ s.bulkSize →
        (∀ n, n < 8 → s.on (BMP_CTRL_EN n) = true ∧ s.on (BMP_STAT_TRAINED n) = true) → (∀ a, a < s.bulkSize → (s.bulkPort a).isSome = true) →
        ∃ t, exec .ringletWrite s = .next t ∧ t.pmu.latch = some x ∧ t.pmu.writing = true ∧ t.pmu.ovf = full ∧ t.regs = s.regs ∧
          t.evc = s.evc)) ∧
    (s.pmu.writing = true → s.pmu.ovf = false → s.pmu.latch = some x → ∃ t, exec (.ringletWriteDone true) s = .next t ∧
      t.fld PMU_RL_PTR_WPTR = (s.fld PMU_RL_PTR_WPTR + 1) % 2 ^ s.fld PMU_RL_CFG_SIZE % 65536 ∧ t.fld PMU_RL_PTR_RPTR = s.fld PMU_RL_PTR_RPTR ∧
      t.on PMU_STAT_RL_BUSY = false ∧ t.pmu.latch = none ∧ t.pmu.writing = false ∧ t.pmu.seq = s.pmu.seq + 1 ∧
      s.onlyRegs t [PMU_RL_PTR, PMU_STAT] ∧ s.raises t [368]) ∧
    (s.pmu.writing = true → ∃ t, exec (.ringletWriteDone false) s = .next t ∧ t.on PMU_CTL_RL_EN = false ∧ t.on PMU_STAT_RL_ERR = true ∧
      t.on PMU_STAT_RL_BUSY = false ∧ t.pmu.latch = none ∧ t.pmu.seq = s.pmu.seq ∧ s.onlyRegs t [PMU_CTL, PMU_STAT] ∧ s.raises t [369]))

/-! ### The Wian fabric (chapter 12) -/

/-- A WR, RD, WRACK or RDR that arrives in sequence frees its buffer and is acknowledged; one for another device leaves on the link of its route;
a WR or RD for this device that fails a check is answered with that status and touches nothing; one that passes has its granules written
in CURRENT of group 62, or read from the committed view with their stamp, in ascending order, and is answered; without a route, and on a device
without an address where its route is no link of the tree, it is answered UNREACH. With nothing else waiting in stream memory its accesses are
granted at once (R95, R383, R388, R390, R398, R399, Tables 12.5 and 3.2).
Model's choice: assumption 86. -/
def Obligations.PeerRequests : Prop :=
  ∀ (s : State) (l : Nat) (f : Frame) (us : List Upset), s.runs → l < 4 → f.ok = true → s.lstate l = 3 → (s.wlink l).check f = .next →
    (s.wlink l).held = [] → (s.wlink 4).held = [] → s.wian.serving = [] → s.discovering = false →
    let p := s.routeOf f.dst
    let q := s.routeOf f.src
    let tree := fun (p : Nat) => s.fld WIAN_STAT_DSTATE ≠ 3 ∨ s.on (WIAN_LINK_STAT_TREE p) = true
    let took := fun (t : State) => (t.wlink l).rxSeq = (s.wlink l).rxSeq + 1 ∧ (t.wlink l).ackDue = true ∧
      (t.wlink l).freed.get f.vc = (s.wlink l).freed.get f.vc + f.flits (s.wlink l).enc
    let request := if f.type = 1 then Instr.wrFrame l f us else Instr.rdFrame l f us
    let answer := fun (t : State) (r : Frame) => (t.wlink q).txq = (s.wlink q).txq ++ [r] ∧ r.type = f.type + 1 ∧ r.dst = f.src ∧
      r.src = s.ownAddr ∧ r.tag = f.tag
    (∀ i, (i = .frameForward l f ∧ 1 ≤ f.type ∧ f.type ≤ 4 ∧ f.dst ≠ s.ownAddr) ∨ (i = .wrFrame l f us ∧ f.type = 1) ∨
        (i = .rdFrame l f us ∧ f.type = 3) ∨ (i = .wrackFrame l f ∧ f.type = 2) ∨ (i = .rdrFrame l f us ∧ f.type = 4) → p < 4 → p ≠ l → tree p →
      ∃ t, exec i s = .next t ∧ took t ∧ (t.wlink p).txq = (s.wlink p).txq ++ [f] ∧ t = { s with wian := t.wian, pmu := t.pmu }) ∧
    ((f.type = 1 ∨ f.type = 3) → p = 4 → q < 4 → s.peerCheck f ≠ 0 → ∃ t r, exec request s = .next t ∧ took t ∧ answer t r ∧
      r.status = s.peerCheck f ∧ t.on WIAN_STAT_REFUSED = true ∧ (226, s.clk.tb) ∈ t.evc.raised ∧ t.mem = s.mem ∧ t.epc = s.epc) ∧
    ((f.type = 1 ∨ f.type = 3) → p = 4 → q < 4 → s.peerCheck f = 0 → s.memIdle → ∃ t r u res, exec request s = .next t ∧ took t ∧ answer t r ∧
      u = { s with regs := u.regs, wian := u.wian, pmu := u.pmu, evc := u.evc } ∧ s.onlyRegs u [WIAN_STAT] ∧
      (f.type = 1 → u.on WIAN_STAT_LATE = (s.on WIAN_STAT_LATE || (s.on TBU_TICK_STAT_STARTED && decide (f.tick ≠ s.fabricTick)))) ∧
      u.performs t us (peerAccess l f) res f.n ∧ r.status = ((badGran ((List.range f.n).map res)).map (fun x => x.2)).getD 0 ∧
      ((∃ i x, i < f.n ∧ res i = .capacity x) → t.on EPC_STAT_PEER_CAP = true) ∧
      ((∃ i x, i < f.n ∧ res i = .conflict x) → t.on EPC_STAT_PEER_CONF = true) ∧
      (f.type = 3 → r.pay.take f.n = (List.range f.n).map (fun i => (res i).data) ∧
        r.fld 96 32 = (s.group (s.stamp (f.gran / 4096)).toNat).gepoch.toNat ∧ r.fld 128 6 = (s.stamp (f.gran / 4096)).toNat)) ∧
    ((f.type = 1 ∨ f.type = 3) → 4 < p ∨ p = l ∨ (p < 4 ∧ ¬ tree p) → q < 4 → ∃ t r, exec request s = .next t ∧ took t ∧ answer t r ∧
      r.status = 6 ∧ t.on WIAN_STAT_BADFRM = true ∧ t.mem = s.mem ∧ t.epc = s.epc)

/-- A frame takes effect once: one received before is acknowledged again and discarded, one after a gap is answered by a single NAK, one with a bad
CRC or tag is answered by a NAK, and one whose fields fail their checks is consumed and counted in BADFRM. A LINK frame returns credits, drops
what it acknowledges, and a NAK has the transmitter resend from there; FRAME_SEND gives VC2's LINK frame first, resends in order, and spends a
credit for each flit; a frame goes out with its CRC, and on an encrypting link with its GCM tag behind the clear bytes 0 to 7 (R380 to R383,
R528).
Model's choice: assumption 94. -/
def Obligations.FrameSequence : Prop :=
  ∀ (s : State) (l : Nat) (f : Frame), s.runs → l < 4 → s.lstate l = 3 →
    let k := s.wlink l
    let only := fun (t : State) => t = { s with wian := t.wian, pmu := t.pmu } ∧ ∀ m, m ≠ l → t.wlink m = s.wlink m
    let plain := fun (g : Wire) => g.pay = g.frame.pay ∧ g.hdr.extractLsb' 0 224 = g.frame.hdr ∧
      g.hdr.extractLsb' 224 32 = crc32 (bytesOf g.frame.hdr.toNat 28 ++ payBytes g.frame.pay)
    (∀ i us, (i = .wrFrame l f us ∧ f.type = 1) ∨ (i = .rdFrame l f us ∧ f.type = 3) ∨ (i = .wrackFrame l f ∧ f.type = 2) ∨
        (i = .rdrFrame l f us ∧ f.type = 4) ∨ (i = .capxFrame l f ∧ f.type = 0xD) ∨ (i = .discFrame l f ∧ f.type = 8) ∨
        (i = .joinFrame l f ∧ f.type = 9) ∨ (i = .assignFrame l f ∧ f.type = 0xA) ∨ (i = .tsyncFrame l f ∧ f.type = 0xB) →
      (k.check f = .old → ∃ t, exec i s = .next t ∧ t.wlink l = { k with ackDue := true } ∧ only t) ∧
      (k.check f = .gap → ∃ t, exec i s = .next t ∧ t.wlink l = { k with nakd := true, nakDue := k.nakDue || !k.nakd } ∧ only t)) ∧
    (∃ t, exec (.badFrame l .crc f) s = .next t ∧ t.wlink l = { k with nakd := true, nakDue := true } ∧ only t) ∧
    (k.check f = .next → f.ok = false → ∃ t, exec (.badFrame l .fields f) s = .next t ∧ t.on WIAN_STAT_BADFRM = true ∧
      (t.wlink l).rxSeq = k.rxSeq + 1 ∧ (t.wlink l).freed.get f.vc = k.freed.get f.vc + f.flits k.enc ∧ s.onlyRegs t [WIAN_STAT] ∧
      t.mem = s.mem) ∧
    (f.type = 0xC → f.ok = true → let r := dropAcked (f.fld 64 16) k.replay
      (f.fld 95 1 = 0 → ∃ t, exec (.linkFrame l f) s = .next t ∧ (t.wlink l).replay = r ∧
        (t.wlink l).credit = ⟨min 8192 (k.credit.vc0 + f.fld 96 16), min 8192 (k.credit.vc1 + f.fld 112 16),
          min 64 (k.credit.vc2 + f.fld 128 8)⟩ ∧ only t) ∧
      (∀ j x, f.fld 95 1 = 1 → r[j]? = some x → x.frame.seq % 2 ^ 15 = f.fld 80 15 →
        (∀ m y, m < j → r[m]? = some y → y.frame.seq % 2 ^ 15 ≠ f.fld 80 15) → k.failSeq ≠ BitVec.ofNat 16 x.frame.seq → ∃ t, exec (.linkFrame l f) s = .next t ∧ (t.wlink l).replay = r.drop j ∧
          (t.wlink l).resend = r.length - j ∧ (t.wlink l).fails = 1 ∧ only t)) ∧
    ((k.ackDue = true ∨ k.nakDue = true) → ∃ t g, exec (.frameSend l 2) s = .next t ∧ t.wian.sent = s.wian.sent ++ [(l, g)] ∧ g.frame.type = 0xC ∧
      g.frame.fld 64 16 = (k.rxSeq - 1).toNat ∧ (g.frame.fld 95 1 = 1 ↔ k.nakDue = true) ∧ g.tag = none ∧ plain g ∧ (t.wlink l).ackDue = false ∧ (t.wlink l).nakDue = false ∧
      only t) ∧
    (∀ vc : BitVec 2, vc ≠ 2 → k.resend = 0 → ∀ x, x.type ≠ 0xB → k.txq.find? (fun y => decide (y.vc = vc.toNat)) = some x → vc.toNat < 2 →
      x.flits k.enc ≤ k.credit.get vc.toNat → x.flits k.enc ≤ 8192 → k.replay = [] → ∃ t g, exec (.frameSend l vc) s = .next t ∧
        t.wian.sent = s.wian.sent ++ [(l, g)] ∧ g.frame = x.put 160 16 k.txSeq.toNat ∧ (t.wlink l).replay = [g] ∧
        (k.enc = false ∨ x.type = 0xC → g.tag = none ∧ plain g) ∧
        (k.enc = true → x.type ≠ 0xC → g.tag.isSome = true ∧ g.hdr.extractLsb' 0 64 = g.frame.hdr.extractLsb' 0 64 ∧
          (t.wlink l).fcTx = k.fcTx + 1) ∧
        (t.wlink l).txSeq = k.txSeq + 1 ∧ (t.wlink l).credit.get vc.toNat = k.credit.get vc.toNat - x.flits k.enc ∧
        (t.wlink l).txq.length + 1 = k.txq.length ∧ only t) ∧
    (∀ vc : BitVec 2, vc ≠ 2 → ∀ g, 0 < k.resend → k.resend ≤ k.replay.length → k.replay[k.replay.length - k.resend]? = some g →
      g.frame.vc = vc.toNat → ∃ t, exec (.frameSend l vc) s = .next t ∧ t.wian.sent = s.wian.sent ++ [(l, g)] ∧ (t.wlink l).resend = k.resend - 1 ∧
        (t.wlink l).replay = k.replay ∧ t.fld (WIAN_LINK_CNT_REPLAY l) = min (s.fld (WIAN_LINK_CNT_REPLAY l) + 1) (2 ^ (WIAN_LINK_CNT_REPLAY l).w - 1) ∧
        s.onlyRegs t [WIAN_LINK_CNT l])

/-- A CAPX loads the partner's registers; while the link is in AUTH its step carries the authentication on: UP at once when neither end asks for it,
FAIL with E403 without a fabric key, a nonce of the generator for step 1, the tag for step 2, and UP when the partner's tag is right
(R384, R527).

The link states (Table 12.3): DOWN empties a link and counts it, and an AUTO tree link begins a discovery of the next round; a lane that failed
hard has the spare staged, and the link waits for it; a link DOWN for 1 ms trains; a trained one enters AUTH and sends its CAPX; RETRAIN takes it DOWN and trains it at once; 1 ms without a step of AUTH is a failure; a
lane margin below its threshold is logged. Each change of STATE raises E(220 + n) (R384, R385, R391, R501, R527).
Model's choice: assumption 18. -/
def Obligations.LinkStatesAndAuthentication : Prop :=
  (∀ (s : State) (l : Nat) (f : Frame), s.runs → l < 4 → f.ok = true → f.type = 0xD → (s.wlink l).check f = .next →
    let k := s.wlink l
    let loaded := fun (t : State) => t.reg (WIAN_LINK_PART_ID l) = BitVec.ofNat 32 (f.fld 64 32) ∧
      t.reg64 (WIAN_LINK_PART_SER_LO l) (WIAN_LINK_PART_SER_HI l) = BitVec.ofNat 64 (f.fld 96 64) ∧
      t.reg (WIAN_LINK_PART_INFO l) = BitVec.ofNat 32 (f.fld 176 7) ∧ t.on (WIAN_LINK_STAT_PARTV l) = true
    let parts := [WIAN_LINK_PART_ID l, WIAN_LINK_PART_SER_LO l, WIAN_LINK_PART_SER_HI l, WIAN_LINK_PART_INFO l, WIAN_LINK_STAT l]
    let auth := s.on SEC_CTL_LINK_AUTH || s.on SEC_CTL_LINK_ENC
    let step := f.fld 184 2
    let failed := fun (t : State) => t.lstate l = 4 ∧ (220 + l, s.clk.tb) ∈ t.evc.raised ∧ (403, s.clk.tb) ∈ t.evc.raised ∧
      (t.wlink l).txq = []
    (s.lstate l = 3 → ∃ t, exec (.capxFrame l f) s = .next t ∧ loaded t ∧ s.onlyRegs t parts ∧ t.lstate l = 3 ∧ (t.wlink l).txq = k.txq ∧
      (t.wlink l).rxSeq = k.rxSeq + 1 ∧ t = { s with regs := t.regs, wian := t.wian, pmu := t.pmu }) ∧
    (s.lstate l = 2 → step = 0 →
      (auth = false → f.fld 183 1 = 0 → ∃ t c, exec (.capxFrame l f) s = .next t ∧ loaded t ∧ s.onlyRegs t parts ∧ t.lstate l = 3 ∧
        s.raises t [220 + l] ∧ (t.wlink l).txq = k.txq ++ [c] ∧ c.type = 0xD ∧ c.fld 184 2 = 0 ∧ c.fld 96 64 = s.serial.toNat) ∧
      ((auth = true ∨ f.fld 183 1 = 1) → s.on SEC_STAT_FABKEY = false → ∃ t, exec (.capxFrame l f) s = .next t ∧ failed t) ∧
      ((auth = true ∨ f.fld 183 1 = 1) → s.on SEC_STAT_FABKEY = true → s.on SEC_STAT_ENT_FAIL = false → s.sec.drawn < 2 ^ 20 →
        ∃ t c n, exec (.capxFrame l f) s = .next t ∧ loaded t ∧ s.onlyRegs t parts ∧ n = (Config.drbg s.sec.drbg).extractLsb' 0 256 ∧
          (t.wlink l).nonce = some n ∧ t.lstate l = 2 ∧ (t.wlink l).txq = k.txq ++ [c] ∧ c.type = 0xD ∧ c.fld 184 2 = 1 ∧
          (c.pay.getD 1 0 ++ c.pay.getD 0 0 : BitVec 256) = n)) ∧
    (∀ n, s.lstate l = 2 → step = 1 → k.nonce = some n → ∃ t c, exec (.capxFrame l f) s = .next t ∧ loaded t ∧ s.onlyRegs t parts ∧
      (t.wlink l).peerNon = some (f.pay.getD 1 0 ++ f.pay.getD 0 0) ∧ (t.wlink l).tagSent = true ∧ t.lstate l = 2 ∧
      (t.wlink l).txq = k.txq ++ [c] ∧ c.fld 184 2 = 2 ∧ c.pay = [t.linkTag l l n (f.pay.getD 1 0 ++ f.pay.getD 0 0), 0]) ∧
    (∀ n p, s.lstate l = 2 → step = 2 → k.nonce = some n → k.peerNon = some p → k.tagSent = true →
      ∃ t, exec (.capxFrame l f) s = .next t ∧ (if t.linkTag l (f.fld 180 3) n p = f.pay.getD 0 0
        then t.lstate l = 3 ∧ loaded t ∧ (t.wlink l).enc = (s.on SEC_CTL_LINK_ENC || decide (f.fld 179 1 = 1)) ∧ s.raises t [220 + l]
        else failed t))) ∧
  (∀ (s : State) (l : Nat), s.runs → l < 4 →
    let st := s.lstate l
    let alone := fun (t : State) => ∀ m, m ≠ l → t.wlink m = s.wlink m
    let down : WLink := { WLink.init with since := s.clk.tb, txq := (s.wlink l).txq.filter (fun f => decide (f.vc ≠ 2)) }
    (∀ lane, st ≠ 0 → st ≠ 4 → s.on WIAN_CTL_AUTO = false → ∃ t, exec (.linkDown (l, lane)) s = .next t ∧ t.lstate l = 0 ∧
      t.wlink l = down ∧ alone t ∧
      t.fld (WIAN_LINK_CNT_DOWNS l) = min (s.fld (WIAN_LINK_CNT_DOWNS l) + 1) (2 ^ (WIAN_LINK_CNT_DOWNS l).w - 1) ∧
      (s.on (WIAN_LINK_STAT_PARENT l) = true → t.fld WIAN_STAT_SYNC = 0) ∧ (220 + l, s.clk.tb) ∈ t.evc.raised) ∧
    (∀ lane, st ≠ 0 → st ≠ 4 → s.on WIAN_CTL_AUTO = true → s.on WIAN_CTL_EN = true → s.on (WIAN_LINK_STAT_TREE l) = true →
      ∃ t, exec (.linkDown (l, lane)) s = .next t ∧ t.lstate l = 0 ∧ t.on WIAN_CTL_DISC = true ∧ t.fld WIAN_STAT_DSTATE = 1 ∧
        t.fld WIAN_STAT_ROUND = (s.fld WIAN_STAT_ROUND + 1) % 65536) ∧
    (st = 4 → exec (.linkDown (l, none)) s = .next s) ∧
    (∀ (n : BitVec 3) (u : State), exec (.linkDown (l, none)) s = .next u → s.on HLT_CTL_AUTO = true → u.swapCause 4 l n.toNat 0 = none →
      ∃ t, exec (.linkDown (l, some n)) s = .next t ∧ t.on HLT_SWAP_STAT_STAGED = true ∧ t.on HLT_SWAP_STAT_READY = true ∧
        t.on (WIAN_LINK_STAT_LANE_DEG l) = true ∧ t.fld HLT_SWAP_KIND = 4 ∧ t.fld HLT_SWAP_GRP = l ∧ t.fld HLT_SWAP_UNIT = n.toNat ∧
        u.raises t [417] ∧ t.lstate l = u.lstate l) ∧
    (st = 0 → s.on (WIAN_LINK_STAT_LANE_DEG l) = true → exec (.linkTrainStart l) s = .next s) ∧
    (st = 0 → s.on (WIAN_LINK_STAT_LANE_DEG l) = false → s.on WIAN_CTL_EN = true → s.on (WIAN_LINK_CTL_EN l) = true →
      1000000 ≤ (s.clk.tb - (s.wlink l).since).toNat →
      ∃ t, exec (.linkTrainStart l) s = .next t ∧ t.lstate l = 1 ∧ s.onlyRegs t [WIAN_LINK_STAT l] ∧ s.raises t [220 + l] ∧ alone t ∧
        t = { s with regs := t.regs, wian := t.wian, evc := t.evc }) ∧
    (∀ lanes : BitVec 5, let idle := if s.hlt.laneUsed.getLsbD l then s.fld (WIAN_LINK_STAT_SPARE l) else 4
      (st = 1 → (∃ n, n < 5 ∧ n ≠ idle ∧ lanes.getLsbD n = false) → exec (.linkTrained l lanes) s = .next s) ∧
      (st = 1 → (∀ n, n < 5 → n ≠ idle → lanes.getLsbD n = true) → ∃ t c, exec (.linkTrained l lanes) s = .next t ∧ t.lstate l = 2 ∧
      t.fld (WIAN_LINK_STAT_SPARE l) = idle ∧
      s.onlyRegs t [WIAN_LINK_STAT l] ∧ s.raises t [220 + l] ∧ alone t ∧
      (t.wlink l).txq = (s.wlink l).txq ++ [c] ∧ c.type = 0xD ∧ c.fld 184 2 = 0 ∧ c.fld 64 32 = (s.reg CRP_ID).toNat ∧
      c.fld 96 64 = s.serial.toNat)) ∧
    (s.on WIAN_CTL_EN = true → s.on (WIAN_LINK_CTL_EN l) = true → ∃ t, exec (.linkRetrain l) s = .next t ∧ t.lstate l = 1 ∧
      (st ≠ 0 → s.on WIAN_CTL_AUTO = false → t.wlink l = down)) ∧
    (st = 2 → 1000000 ≤ (s.clk.tb - (s.wlink l).since).toNat → ∃ t, exec (.linkAuthTimeout l) s = .next t ∧ t.lstate l = 4 ∧ alone t ∧
      (220 + l, s.clk.tb) ∈ t.evc.raised ∧ (403, s.clk.tb) ∈ t.evc.raised) ∧
    (∀ (lane : BitVec 3) (m : BitVec 8), lane.toNat < 5 → m.toNat < s.fld HLT_LANE_CFG_THR → s.hlt.log.length < 64 →
      ∃ t r rest, exec (.laneMarginLow l lane m) s = .next t ∧ t.hlt.log = s.hlt.log ++ r :: rest ∧ r.extractLsb' 0 64 = s.clk.tb ∧
        r.extractLsb' 64 8 = 5 ∧ (r.extractLsb' 80 16).toNat = l ∧ (r.extractLsb' 96 32).toNat = lane.toNat ∧
        (s.on HLT_CTL_AUTO = false → rest = [] ∧ s.raises t (if s.hlt.log = [] then [421] else []))))

/-- Discovery: CTL.DISC begins it with this device's own candidacy; every µs a DISC leaves on the links that are UP; a DISC of a later round starts
that round, one of an earlier round does nothing, one of this round makes BEST, HOPS and the parent those of what has been heard; a JOIN is
recorded and passed to the parent, a quiet device sends its own, and the quiet Monarch gives itself its rank and every other its ASSIGN;
a device too far away, and two with one serial, are left without an address, which ERRC reports; an ASSIGN for this device ends discovery, one
for another goes down the tree with the path grown by the hop (R386 to R389).
Model's choice: assumption 95. -/
def Obligations.Discovery : Prop :=
  ∀ (s : State) (l : Nat) (f : Frame), s.runs → l < 4 →
    let in' := f.ok = true ∧ s.lstate l = 3 ∧ (s.wlink l).check f = .next
    let started := fun (t : State) (r : Nat) => t.on WIAN_CTL_DISC = true ∧ t.fld WIAN_STAT_DSTATE = 1 ∧ t.fld WIAN_STAT_ROUND = r ∧
      t.wian.joins = [] ∧ t.wian.joined = false ∧ t.wian.changed = s.clk.tb ∧ s.onlyRegs t [WIAN_CTL, WIAN_STAT]
    let own := if s.on WIAN_CTL_CAND then some s.serial else none
    (s.on WIAN_CTL_EN = true → ∃ t, exec .discoveryStart s = .next t ∧ started t (s.fld WIAN_STAT_ROUND) ∧ t.wian.best = own ∧ t.wian.hops = 0 ∧
      t.wian.parent = none ∧ t = { s with regs := t.regs, wian := t.wian }) ∧
    (s.discovering = true → (∀ x, s.wian.lastDisc = some x → 1000 ≤ (s.clk.tb - x).toNat) → ∃ t g, exec .discSend s = .next t ∧
      g.type = 8 ∧ g.fld 64 64 = s.serial.toNat ∧ g.tag + 256 * g.tick = s.fld WIAN_STAT_ROUND ∧ g.fld 208 16 = s.wian.hops % 65536 ∧
      (∀ m, m < 4 → (t.wlink m).txq = if s.lstate m = 3 then (s.wlink m).txq ++ [g] else (s.wlink m).txq) ∧
      t.wian.lastDisc = some s.clk.tb ∧ t = { s with wian := t.wian }) ∧
    (in' → f.type = 8 → let r := f.tag + 256 * f.tick
      let own := s.fld WIAN_STAT_ROUND
      (r < own → ∃ t, exec (.discFrame l f) s = .next t ∧ t.regs = s.regs ∧ t.wian = { s.wian with links := t.wian.links }) ∧
      (own < r → s.on WIAN_CTL_AUTO = false → s.discovering = false → ∃ t, exec (.discFrame l f) s = .next t ∧ t.regs = s.regs ∧
        t.wian = { s.wian with links := t.wian.links }) ∧
      (own < r → s.on WIAN_CTL_AUTO = true ∨ s.discovering = true → ∃ t, exec (.discFrame l f) s = .next t ∧ started t r ∧ t.election = (t.wian.best, t.wian.hops, t.wian.parent)) ∧
      (own = r → s.discovering = true → ∃ t, exec (.discFrame l f) s = .next t ∧ t.regs = s.regs ∧
        (t.wlink l).heard = some (BitVec.ofNat 64 (f.fld 128 32 + f.fld 176 32 * 2 ^ 32), f.fld 208 16, BitVec.ofNat 64 (f.fld 64 64)) ∧
        t.election = (t.wian.best, t.wian.hops, t.wian.parent) ∧ t.wian.joins = s.wian.joins ∧
        (if t.wian.best = s.wian.best ∧ t.wian.hops = s.wian.hops then t.wian.joined = s.wian.joined ∧ t.wian.changed = s.wian.changed
          else t.wian.joined = false ∧ t.wian.changed = s.clk.tb))) ∧
    (in' → f.type = 9 → s.discovering = true → f.fld 208 16 = s.fld WIAN_STAT_ROUND → ∃ t, exec (.joinFrame l f) s = .next t ∧
      t.wian.joins = s.wian.joins ++ [(BitVec.ofNat 64 (f.fld 64 64), f.fld 128 16, l)] ∧ t.wian.lastJoin = s.clk.tb ∧ t.regs = s.regs ∧
      (∀ p, s.wian.parent = some p → s.isBest = false → ∃ g, (t.wlink p).txq = (s.wlink p).txq ++ [g] ∧ g.type = 9 ∧
        g.fld 64 64 = f.fld 64 64 ∧ g.fld 128 16 = f.fld 128 16)) ∧
    (∀ p, s.wian.parent = some p → s.discovering = true → s.isBest = false → s.wian.joined = false → s.quiet s.wian.changed = true →
      ∃ t g, exec .joinSend s = .next t ∧ (t.wlink p).txq = (s.wlink p).txq ++ [g] ∧ g.type = 9 ∧ g.fld 64 64 = s.serial.toNat ∧
        g.fld 128 16 = s.wian.hops % 65536 ∧ t.wian.joined = true ∧ t = { s with wian := t.wian }) ∧
    (s.discovering = true → s.isBest = true → s.quiet s.wian.changed = true → s.quiet s.wian.lastJoin = true →
      (∀ j, j < 5 → (s.wlink j).held = []) →
      let monarch := fun (t : State) (addr n errc : Nat) => t.on WIAN_STAT_MONARCH = true ∧ t.fld WIAN_STAT_DSTATE = 2 ∧
        t.on WIAN_CTL_DISC = false ∧ t.fld WIAN_ID_ADDR = addr ∧ t.on WIAN_ID_VALID = true ∧ t.fld WIAN_NDEV_N = n ∧
        t.fld WIAN_STAT_ERRC = errc ∧ (224, s.clk.tb) ∈ t.evc.raised
      (s.wian.joins = [] → ∃ t, exec .monarchAssign s = .next t ∧ monarch t 0 1 0) ∧
      (∀ ser d m, s.wian.joins = [(ser, d, m)] → ser ≠ s.serial → m < 4 →
        (d ≤ s.fld WIAN_CTL_MAXDEPTH → ∃ t g, exec .monarchAssign s = .next t ∧
          monarch t (if s.serial.toNat ≤ ser.toNat then 0 else 1) 2 0 ∧
          (t.wlink m).txq = (s.wlink m).txq ++ [g] ∧ g.type = 0xA ∧ g.fld 64 64 = ser.toNat ∧
          g.fld 128 16 = (if s.serial.toNat ≤ ser.toNat then 1 else 0) ∧ g.fld 176 32 = s.hopNs m ∧
          t.routeOf (g.fld 128 16) = m ∧ t.routeOf (t.fld WIAN_ID_ADDR) = 4) ∧
        (s.fld WIAN_CTL_MAXDEPTH < d → ∃ t, exec .monarchAssign s = .next t ∧ monarch t 0 1 2)) ∧
      (∀ d m, s.wian.joins = [(s.serial, d, m)] → d ≤ s.fld WIAN_CTL_MAXDEPTH → ∃ t, exec .monarchAssign s = .next t ∧
        t.fld WIAN_STAT_DSTATE = 3 ∧ t.fld WIAN_STAT_ERRC = 3 ∧ t.on WIAN_ID_VALID = false ∧ t.on WIAN_CTL_DISC = false)) ∧
    (s.discovering = true → s.isBest = false → s.wian.joined = true → (∀ j, j < 5 → (s.wlink j).held = []) →
      ∃ t e, exec .monarchAssign s = .next t ∧ e < 4 ∧ t.fresh = s.fresh + 1 ∧ (e = 0 → t = { s with fresh := s.fresh + 1 }) ∧
        (e ≠ 0 → t.fld WIAN_STAT_DSTATE = 3 ∧ t.fld WIAN_STAT_ERRC = e ∧ t.on WIAN_ID_VALID = false ∧
          t.fld WIAN_STAT_SYNC = 0 ∧ t.on WIAN_CTL_DISC = false ∧ (224, s.clk.tb) ∈ t.evc.raised)) ∧
    (in' → f.type = 0xA → f.fld 208 16 = s.fld WIAN_STAT_ROUND →
      (BitVec.ofNat 64 (f.fld 64 64) = s.serial → s.discovering = true → f.fld 128 16 < 4096 →
        (∀ j, j < 5 → (s.wlink j).held = []) → ∃ t, exec (.assignFrame l f) s = .next t ∧
        t.fld WIAN_ID_ADDR = f.fld 128 16 ∧ t.on WIAN_ID_VALID = true ∧ t.fld WIAN_ID_MADDR = f.src ∧ t.fld WIAN_NDEV_N = f.fld 144 16 % 8192 ∧
        t.fld WIAN_PATH_NS = f.fld 176 32 % 2 ^ 24 ∧ t.fld WIAN_STAT_DSTATE = 2 ∧ t.on WIAN_STAT_MONARCH = false ∧ t.routeOf (f.fld 128 16) = 4 ∧
        (224, s.clk.tb) ∈ t.evc.raised) ∧
      (∀ j, BitVec.ofNat 64 (f.fld 64 64) ≠ s.serial → s.wian.joins.find? (fun j => decide (j.1 = BitVec.ofNat 64 (f.fld 64 64))) = some j →
        ∃ t g, exec (.assignFrame l f) s = .next t ∧ (t.wlink j.2.2).txq = (s.wlink j.2.2).txq ++ [g] ∧ g.type = 0xA ∧
          g.fld 64 64 = f.fld 64 64 ∧ g.fld 128 16 = f.fld 128 16 ∧ g.fld 176 32 = (f.fld 176 32 + s.hopNs j.2.2) % 2 ^ 32 ∧ t.regs = s.regs ∧
          t.routeOf (f.fld 128 16) = j.2.2 % 16))

/-- A TSYNC request is answered with t2 and, as it leaves, t3; a reply sets DELAY to the mean of the last exchanges; an exchange starts on a due link;
SLEW_CORRECTION moves TB by one sixteenth of a ns towards the Monarch's (R394, R395).
Model's choice: assumption 69. -/
def Obligations.TimeSynchronisation : Prop :=
  ∀ (s : State) (l : Nat) (f : Frame), s.runs → l < 4 →
    let k := s.wlink l
    let in' := f.ok = true ∧ s.lstate l = 3 ∧ k.check f = .next ∧ f.type = 0xB
    (in' → f.fld 216 8 = 0 → ∃ t g, exec (.tsyncFrame l f) s = .next t ∧ (t.wlink l).txq = k.txq ++ [g] ∧ g.type = 0xB ∧ g.fld 216 8 = 1 ∧
      g.fld 64 64 = s.tb16.toNat ∧ t = { s with wian := t.wian, pmu := t.pmu }) ∧
    (∀ t1, in' → f.fld 216 8 ≠ 0 → k.t1 = some t1 → s.on (WIAN_LINK_STAT_PARENT l) = false →
      let t2 : BitVec 64 := BitVec.ofNat 64 (f.fld 64 64)
      let t3 : BitVec 64 := BitVec.ofNat 64 (f.fld 128 32 + f.fld 176 32 * 2 ^ 32)
      let d := ((s.tb16 - t1) - (t3 - t2)).toInt
      ∃ t, exec (.tsyncFrame l f) s = .next t ∧ (t.wlink l).t1 = none ∧ (t.wlink l).delays = (d :: k.delays).take 256 ∧
        s.onlyRegs t [WIAN_LINK_DELAY l, WIAN_LINK_LEN l] ∧ t = { s with regs := t.regs, wian := t.wian, pmu := t.pmu } ∧
        (k.delays = [] → 0 ≤ d → d < 2 ^ 24 → (t.fld (WIAN_LINK_DELAY_DELAY l) : Int) = (d + 1) / 2)) ∧
    (s.lstate l = 3 → s.exchanges l = true → (∀ x, k.lastTs = some x → 2 ^ s.fld WIAN_TS_CFG_PER * 1000 ≤ (s.clk.tb - x).toNat) →
      ∃ t g, exec (.tsyncExchange l) s = .next t ∧ (t.wlink l).txq = k.txq ++ [g] ∧ g.type = 0xB ∧ g.fld 216 8 = 0 ∧
        (t.wlink l).lastTs = some s.clk.tb ∧ t = { s with wian := t.wian }) ∧
    (s.fld WIAN_STAT_SYNC ≠ 0 → s.wian.corr ≠ 0 → s.wian.lastCorr + 2 ^ s.fld WIAN_TS_CFG_SLEW ≤ s.clk.tclk + 1 →
      ∃ t, exec .slewCorrection s = .next t ∧ t.wian.corr = s.wian.corr - s.wian.corr.sign ∧ t.wian.lastCorr = s.clk.tclk + 1 ∧
        t.clk.tclk = s.clk.tclk + 1 ∧
        t.tb16 = s.tb16 + 16 + BitVec.ofInt 64 s.wian.corr.sign)

/-- TX_GO with a bad range, view or destination ends at once with CAUSE 5, one of no granules with DONE, any other makes the channel BUSY; the next
frame covers granules up to the 16-granule boundary of the remote address and leaves on the route of its device; ABORT stops the channel
with CAUSE 9 once its frames have ended, and a frame without a response in its time ends with UNREACH (R401 to R403).

The response to a transfer frame counts its granules: a channel whose last frame is confirmed ends DONE, one whose frame failed stops with the
response's status as CAUSE after the granules before it; the data of an RDR are written to stream memory (R402, R403). -/
def Obligations.TransferChannels : Prop :=
  (∀ (s : State) (c : Nat) (v : Reg), s.runs → c < 4 →
    let len := s.fld (WIAN_TX_CMD_LEN c)
    let loc := s.fld (WIAN_TX_LOC_LOC c)
    let dev := s.fld (WIAN_TX_CMD_DEV c)
    let k := s.chan c
    let view := v.toNat / 256 % 4
    let bad := s.build.granules < loc + len ∨ view = 3 ∨ (view = 1 ∧ v.getLsbD 12 = true) ∨ 4 < s.routeOf dev
    let taken := fun (t : State) => t.fld (WIAN_TX_CTL_GROUP c) = v.toNat % 64 ∧ t.fld (WIAN_TX_CTL_VIEW c) = view ∧
      t.on (WIAN_TX_CTL_DIR c) = v.getLsbD 12 ∧ s.onlyRegs t [WIAN_TX_CTL c, WIAN_TX_STAT c] ∧ t.mem = s.mem
    let stopped := fun (t : State) (cause : Nat) => t.on (WIAN_TX_STAT_ERR c) = true ∧ t.fld (WIAN_TX_STAT_CAUSE c) = cause ∧
      t.on (WIAN_TX_STAT_LSIDE c) = false ∧ t.on (WIAN_TX_STAT_BUSY c) = false ∧ t.on (WIAN_TX_CTL_GO c) = false ∧ s.raises t [228 + c] ∧
      t.chan c = TxChan.init ∧ t.reg (WIAN_TX_CMD c) = s.reg (WIAN_TX_CMD c) ∧ t.reg (WIAN_TX_LOC c) = s.reg (WIAN_TX_LOC c)
    (s.on (WIAN_TX_STAT_BUSY c) = true → exec (.txGo c v) s = .next s) ∧
    (s.on (WIAN_TX_STAT_BUSY c) = false → ∃ t, exec (.txGo c v) s = .next t ∧ taken t ∧
      (bad → t.on (WIAN_TX_STAT_ERR c) = true ∧ t.on (WIAN_TX_STAT_LSIDE c) = true ∧ t.fld (WIAN_TX_STAT_CAUSE c) = 5 ∧
        t.on (WIAN_TX_STAT_BUSY c) = false ∧ t.evc = s.evc) ∧
      (¬ bad → len = 0 → t.on (WIAN_TX_STAT_DONE c) = true ∧ t.on (WIAN_TX_STAT_BUSY c) = false ∧ s.raises t [228 + c]) ∧
      (¬ bad → len ≠ 0 → t.on (WIAN_TX_STAT_BUSY c) = true ∧ t.on (WIAN_TX_CTL_GO c) = true ∧ t.fld (WIAN_TX_STAT_CAUSE c) = 0 ∧
        t.chan c = TxChan.init ∧ t.evc = s.evc)) ∧
    (s.on (WIAN_TX_STAT_BUSY c) = true → k.abort = false → firstFail k.frames = none → k.issued < len →
      k.frames.countP (fun f => f.res.isNone) < 16 → s.discovering = false → s.routeOf dev < 4 →
      (s.fld WIAN_STAT_DSTATE ≠ 3 ∨ s.on (WIAN_LINK_STAT_TREE (s.routeOf dev)) = true) → ∀ us,
      let rem := (s.fld (WIAN_TX_REM_REM c) + k.issued) % 2 ^ 23
      let n := min (len - k.issued) (16 - rem % 16)
      let issued := fun (t : State) (f : Frame) => (t.wlink (s.routeOf dev)).txq = (s.wlink (s.routeOf dev)).txq ++ [f] ∧ f.n = n ∧
        f.gran = rem ∧ f.dst = dev ∧ f.src = s.ownAddr ∧ f.tag / 64 = c ∧ f.tick = s.fabricTick ∧
        (∀ y, y ∈ k.frames → y.res = none → y.tag.toNat ≠ f.tag) ∧
        (t.chan c).frames = k.frames ++ [{ tag := BitVec.ofNat 8 f.tag, n := n, since := s.clk.tb, res := none }] ∧
        (t.chan c).issued = k.issued + n ∧ (t.chan c).count = k.count + 1
      (s.on (WIAN_TX_CTL_DIR c) = true → ∃ t f, exec (.txFrameIssue c us) s = .next t ∧ issued t f ∧ f.type = 3 ∧ f.pay = [] ∧
        t = { s with wian := t.wian, arb := t.arb }) ∧
      (s.on (WIAN_TX_CTL_DIR c) = false → s.memIdle → ∃ t res, exec (.txFrameIssue c us) s = .next t ∧
        s.performs t us (fun i => s.txAccess c (loc + k.issued + i) (.tx c i) .read) res n ∧
        ((∀ i, i < n → (res i).good = true) → ∃ f, issued t f ∧ f.type = 1 ∧ f.pay.take n = (List.range n).map (fun i => (res i).data)) ∧
        (∀ i st, k.frames = [] → badGran ((List.range n).map res) = some (i, st) → t.on (WIAN_TX_STAT_ERR c) = true ∧
          t.fld (WIAN_TX_STAT_CAUSE c) = st ∧ t.on (WIAN_TX_STAT_LSIDE c) = true ∧ t.on (WIAN_TX_STAT_BUSY c) = false))) ∧
    (s.on (WIAN_TX_STAT_BUSY c) = true → k.frames = [] → len ≠ 0 → ∃ t, exec (.txAbort c) s = .next t ∧ stopped t 9) ∧
    (∀ x : TxFrame, s.on (WIAN_TX_STAT_BUSY c) = true → k.frames = [x] → x.res = none → len ≠ 0 →
      s.fld (WIAN_TX_CTL_TIMEOUT c) * 64000 ≤ (s.clk.tb - x.since).toNat →
      ∃ t, exec (.txFrameTimeout c x.tag) s = .next t ∧ stopped t (if k.abort then 9 else 6))) ∧
  (∀ (s : State) (l c : Nat) (f : Frame) (x : TxFrame), s.runs → l < 4 → c < 4 → f.ok = true → s.lstate l = 3 → (s.wlink l).check f = .next →
    (s.wlink l).held = [] → (s.wlink 4).held = [] → s.wian.serving = [] → s.discovering = false → s.routeOf f.dst = 4 →
    s.txOwner f.tag f.src = some c → (s.chan c).frames = [x] → x.n ≤ s.fld (WIAN_TX_CMD_LEN c) →
    s.fld (WIAN_TX_LOC_LOC c) + x.n < 2 ^ 23 → s.fld (WIAN_TX_REM_REM c) + x.n < 2 ^ 23 →
    let moved := fun (t : State) (n : Nat) => t.fld (WIAN_TX_LOC_LOC c) = s.fld (WIAN_TX_LOC_LOC c) + n ∧
      t.fld (WIAN_TX_REM_REM c) = s.fld (WIAN_TX_REM_REM c) + n ∧ t.fld (WIAN_TX_CMD_LEN c) = s.fld (WIAN_TX_CMD_LEN c) - n
    let ended := fun (t : State) => t.on (WIAN_TX_STAT_BUSY c) = false ∧ t.on (WIAN_TX_CTL_GO c) = false ∧ (228 + c, s.clk.tb) ∈ t.evc.raised
    let frame := fun (t : State) => s.onlyRegs t [WIAN_TX_LOC c, WIAN_TX_REM c, WIAN_TX_CMD c, WIAN_TX_STAT c, WIAN_TX_CTL c]
    (f.type = 2 → f.status = 0 → ∃ t, exec (.wrackFrame l f) s = .next t ∧ moved t x.n ∧ frame t ∧ t.mem = s.mem ∧
      (if s.fld (WIAN_TX_CMD_LEN c) = x.n then ended t ∧ t.on (WIAN_TX_STAT_DONE c) = true
        else ((s.chan c).abort = false → t.on (WIAN_TX_STAT_BUSY c) = true ∧ (t.chan c).frames = [] ∧ t.evc = s.evc))) ∧
    (f.type = 2 → f.status ≠ 0 → f.fld 64 4 < x.n → ∃ t, exec (.wrackFrame l f) s = .next t ∧ moved t (f.fld 64 4) ∧ ended t ∧ frame t ∧
      t.on (WIAN_TX_STAT_ERR c) = true ∧ t.fld (WIAN_TX_STAT_CAUSE c) = (if (s.chan c).abort then 9 else f.status) ∧ t.on (WIAN_TX_STAT_LSIDE c) = false ∧ t.mem = s.mem) ∧
    (f.type = 4 → f.status = 0 → x.n = s.fld (WIAN_TX_CMD_LEN c) → (s.chan c).abort = false → s.memIdle → ∀ us,
      ∃ (t u : State) (res : Nat → MemRes), exec (.rdrFrame l f us) s = .next t ∧ u = { s with wian := u.wian, pmu := u.pmu } ∧
        u.performs t [] (fun i => s.txAccess c (s.fld (WIAN_TX_LOC_LOC c) + i) (.frame l 1 i) (.write (f.pay.getD i 0) 0xFFFF false)) res x.n ∧
        ended t ∧ (match badGran ((List.range x.n).map res) with
          | none => t.on (WIAN_TX_STAT_DONE c) = true
          | some b => t.on (WIAN_TX_STAT_ERR c) = true ∧ t.fld (WIAN_TX_STAT_CAUSE c) = b.2 ∧ t.on (WIAN_TX_STAT_LSIDE c) = true)))

/-! ### Event controller and wake (chapter 13) -/

/-- A raise that EVC handles makes its event pending with COUNT 1 and its TB, or adds to COUNT, which stops at 0xFFFF; a source whose moderation
time has passed requests; SRC_CMD clears the selected source, and SWEV raises software events alone (R407, R410).

DONE pops the level it names from the top of the supervisor's or Moth's stack, PUSH pushes a higher one; any other level sets ORDER or PSTK with
its target and E5, and faults the target's own core; a sequencer's DONE and PUSH do nothing (R415, R417 to R419).

A wake event ends the Moth core's WAIT, which retires, once MCLK is stable when it was stopped; the first is named in MOTH_WAKE_STAT, and with HW it requests
RUN; the management port's word raises E6; while EVC has no power the wake logic latches what is raised (R423 to R425).
Model's choice: assumption 78. -/
def Obligations.EventsStacksWakes : Prop :=
  (∀ (s : State) (e : Nat), s.runs →
    (∀ t0 l, eventBuilt s.build e = true → takeRaise e s.evc.raised = some (t0, l) → let x := s.source e
      ∃ t, exec (.eventPending e) s = .next t ∧ t.evc.raised = l ∧ (∀ d, d ≠ e → t.source d = s.source d) ∧
        (x.pend = false → t.source e = { x with pend := true, count := 1, ts := t0 }) ∧
        (x.pend = true → t.source e = { x with count := BitVec.ofNat 16 (min (x.count.toNat + 1) 0xFFFF) }) ∧
        t = { s with evc := t.evc }) ∧
    (eventBuilt s.build e = true → exec (.moderationTimeout e) s = .next s ∧
      (let x := s.source e; x.pend = true → x.cfg.getLsbD 0 = true → bitsOf x.cfg.toNat 1 3 ≠ 0 → bitsOf x.cfg.toNat 16 12 ≠ 0 →
        x.ts.toNat + bitsOf x.cfg.toNat 16 12 * 1024 ≤ s.clk.tb.toNat → s.requests x = true)) ∧
    (∃ t, exec .evcSrcClear s = .next t ∧ (t.source (s.fld EVC_SRC_SEL_SRC)).pend = false ∧ (t.source (s.fld EVC_SRC_SEL_SRC)).count = 0 ∧
      (∀ d, d ≠ s.fld EVC_SRC_SEL_SRC → t.source d = s.source d) ∧ t = { s with evc := { s.evc with src := t.evc.src } }) ∧
    (∀ w : BitVec 9, (448 ≤ w.toNat → ∃ t, exec (.evcSwev w) s = .next t ∧ s.raises t [w.toNat] ∧ t = { s with evc := t.evc }) ∧
      (w.toNat < 448 → exec (.evcSwev w) s = .next s))) ∧
  (∀ (s : State) (a : Agent) (t : Nat) (x : BitVec 3), s.runs → s.hasTarget t = true →
    let st := (s.target t).stack
    let own := a = .core (if t = 32 then .sup else .moth)
    let stack := fun (u : State) (l : List (BitVec 3)) => (u.target t).stack = l ∧ (∀ j, j ≠ t → u.target j = s.target j) ∧ u = { s with evc := u.evc }
    let order := fun (u : State) => u.on EVC_STAT_ORDER = true ∧ u.fld EVC_STAT_ORD_TGT = t ∧ s.onlyRegs u [EVC_STAT] ∧ s.raises u [5] ∧
      u = { s with regs := u.regs, evc := u.evc, cores := u.cores } ∧ (¬ own → u.cores = s.cores)
    let pstk := fun (u : State) (cause : Nat) => u.on EVC_STAT_PSTK = true ∧ u.fld EVC_STAT_PSTK_TGT = t ∧ s.onlyRegs u [EVC_STAT] ∧
      s.raises u [5] ∧ u = { s with regs := u.regs, evc := u.evc, cores := u.cores } ∧ (¬ own → u.cores = s.cores) ∧
      (own → (u.core (if t = 32 then .sup else .moth)).fault = some (mkFault 8 cause 0))
    (s.writes a (EVC_TGT_DONE t) →
      (t < 32 → exec (.evcDone a t x) s = .next s) ∧
      (32 ≤ t → st = [] → ∃ u, exec (.evcDone a t x) s = .next u ∧ pstk u 1) ∧
      (∀ top rest, 32 ≤ t → st = top :: rest → ∃ u, exec (.evcDone a t x) s = .next u ∧ (if top = x then stack u rest else order u))) ∧
    (s.writes a (EVC_TGT_PUSH t) →
      (t < 32 → exec (.evcPush a t x) s = .next s) ∧
      (32 ≤ t → ∃ u, exec (.evcPush a t x) s = .next u ∧
        (if (s.target t).top < x.toNat then stack u (x :: st) else pstk u 0)))) ∧
  (∀ (s : State), s.crp.live = true →
    let runsOn := fun (t : State) => (t.core .moth).waiting = false ∧ (∀ c, coreKey c ≠ 37 → t.core c = s.core c) ∧
      ((s.core .moth).waiting = false → t.cores = s.cores) ∧ ∀ v, (s.core .moth).waiting = true → s.view .moth = some v →
        ∃ v', t.view .moth = some v' ∧ v'.regs = v.regs.complete none ∧ v'.bank = v.bank
    (∀ k : BitVec 5, k.toNat ∈ s.evc.wakes → s.on MOTH_WAKE_CFG_HW = false → ∃ t, exec (.mothWake k) s = .next t ∧
      t.evc = { s.evc with wakes := s.evc.wakes.erase k.toNat } ∧ t.on MOTH_WAKE_STAT_WOKE = true ∧
      t.fld MOTH_WAKE_STAT_SRC = (if s.on MOTH_WAKE_STAT_WOKE then s.fld MOTH_WAKE_STAT_SRC else k.toNat) ∧ s.onlyRegs t [MOTH_WAKE_STAT] ∧
      (if s.fld CRP_PWR_STAT_STATE = 4 ∧ s.on MOTH_WAKE_CFG_MSTOP = true ∧ (s.core .moth).waiting = true
        then t.crp = { s.crp with waking := true } ∧ t.cores = s.cores
        else t.crp = s.crp ∧ runsOn t)) ∧
    (∀ k : BitVec 5, k.toNat ∈ s.evc.wakes → s.on MOTH_WAKE_CFG_HW = true → s.fld CRP_PWR_STAT_STATE = 2 → s.crp.entry = none →
      s.crp.exiting = false → ∃ t, exec (.mothWake k) s = .next t ∧ t.fld CRP_PWR_STAT_STATE = 1) ∧
    (s.crp.waking = true → ∃ t, exec .mclkStable s = .next t ∧ runsOn t ∧ t.crp = { s.crp with waking := false } ∧
      t = { s with cores := t.cores, ctxs := t.ctxs, crp := t.crp, pmu := { s.pmu with now := t.pmu.now } }) ∧
    (∀ v : Reg, 38 ∉ s.crp.islandOff → ∃ t, exec (.mgmtWrite v) s = .next t ∧ t.reg MOTH_MGMT_IN = v ∧
      (s.fld CRP_PWR_STAT_STATE ≠ 4 → s.raises t [6] ∧ s.onlyRegs t [MOTH_MGMT_IN]) ∧
      (s.fld CRP_PWR_STAT_STATE = 4 → (s.reg MOTH_WPEND).getLsbD 6 = false → (t.reg MOTH_WPEND).getLsbD 6 = true ∧
        Tbl.get 0 6 t.evc.wlatch = s.clk.tb ∧ t.evc.raised = s.evc.raised ∧ s.onlyRegs t [MOTH_MGMT_IN, MOTH_WPEND])))

/-! ### Debug (chapter 16) -/

/-- The TAP takes IR as updated; a DBGREG write or read of the selected register happens while IR names DBGREG, and before authentication only in the
authentication range, with STATUS 2 for a write that was ignored; the register port answers the same; the capture shifts out STATUS, offset and
data (R471 to R474).

A start of the debug master is refused with CAUSE 1 and E391 before authentication, and else keeps its address and control; when it ends, an odd
address fails with CAUSE 3 and changes nothing, and an access that passes sets DONE, gives a read's word pair, writes a write's, and moves
MADDR on by 2 with INC; one to stream memory ends as its granule access does (R474, R476 to R479, Table 16.2).
Model's choice: assumptions 41, 62, 86. -/
def Obligations.DebugPortAndMaster : Prop :=
  (∀ (s : State) (off : BitVec 14) (v : Reg), s.runs →
    let a := 0x70000 + 4 * off.toNat
    let granted := s.on DBG_AUTH_STAT_GRANTED = true
    (∀ ir : BitVec 5, exec (.tapIrUpdate ir) s = .next { s with dbg := { s.dbg with ir := ir } }) ∧
    exec .dbgregStatus s = .next s ∧ exec .dbgregNop s = .next s ∧
    (s.dbg.ir ≠ 6 → exec (.dbgregRead off) s = .next s ∧ exec (.dbgregWrite off v) s = .next s ∧ exec .dbgregCapture s = .next s) ∧
    (s.dbg.ir = 6 → ∃ t, exec .dbgregCapture s = .next t ∧ t = { s with dbg := { s.dbg with scan := t.dbg.scan } } ∧
      t.dbg.scan.extractLsb' 0 32 = s.dbg.data ∧ t.dbg.scan.extractLsb' 32 14 = s.dbg.off ∧ t.dbg.scan.extractLsb' 46 2 = s.dbg.stat) ∧
    (∀ x u, (granted ∨ ¬ (DBG_VT_DDATA 0 ≤ a ∧ a ≤ DBG_VT_DDATA 3 ∧ a % 16 = 4)) → regRead false a s = (x, u) →
      (s.dbg.ir = 6 → exec (.dbgregRead off) s = .next { u with dbg := { u.dbg with off := off, data := x, stat := 0 } }) ∧
      exec (.daprAccess false off v) s = .next { u with replies := u.replies ++ [{ agent := .dap, off := a, data := some x }] }) ∧
    (¬ granted → (off.toNat < 0x380 ∨ 0x3C0 ≤ off.toNat) → a ≠ DBG_MDATA → a ≠ DBG_MCTL →
      (s.dbg.ir = 6 → exec (.dbgregWrite off v) s = .next { s with dbg := { s.dbg with off := off, stat := 2 } }) ∧
      exec (.daprAccess true off v) s = .next { s with replies := s.replies ++ [{ agent := .dap, off := a, data := none }] }) ∧
    (granted → s.dbg.ir = 6 → a = DBG_MADDR_LO → ∃ t, exec (.dbgregWrite off v) s = .next t ∧ t.reg DBG_MADDR_LO = v ∧
      s.onlyRegs t [DBG_MADDR_LO] ∧ t = { s with regs := t.regs, dbg := { s.dbg with off := off, stat := 0 } }) ∧
    (granted → a = DBG_MADDR_LO → ∃ t, exec (.daprAccess true off v) s = .next t ∧ t.reg DBG_MADDR_LO = v ∧ s.onlyRegs t [DBG_MADDR_LO] ∧
      t = { s with regs := t.regs, replies := s.replies ++ [{ agent := .dap, off := a, data := some 0 }] })) ∧
  (∀ (s : State) (v : Reg), s.runs →
    let addr := (s.reg64 DBG_MADDR_LO DBG_MADDR_HI).setWidth 40
    let failed := fun (t : State) (c : Nat) => t.on DBG_MSTAT_BUSY = false ∧ t.on DBG_MSTAT_ERR = true ∧ t.fld DBG_MSTAT_CAUSE = c
    let passed := fun (t : State) (o : MasterOp) => t.on DBG_MSTAT_BUSY = false ∧ t.on DBG_MSTAT_DONE = true ∧ t.dbg.mop = none ∧
      (t.reg64 DBG_MADDR_LO DBG_MADDR_HI).setWidth 40 = (if o.ctl.getLsbD 1 then addr + 2 else addr)
    (s.on DBG_AUTH_STAT_GRANTED = false → ∀ i, i = .masterWrite v ∨ i = .masterRead → ∃ t, exec i s = .next t ∧ failed t 1 ∧
      (391, s.clk.tb) ∈ t.evc.raised ∧ t.dbg = s.dbg ∧ t.mem = s.mem) ∧
    (s.on DBG_AUTH_STAT_GRANTED = true → s.on DBG_MSTAT_BUSY = true → exec (.masterWrite v) s = .next s) ∧
    (s.on DBG_AUTH_STAT_GRANTED = true → s.on DBG_MSTAT_BUSY = false →
      (∃ t, exec (.masterWrite v) s = .next t ∧ t.on DBG_MSTAT_BUSY = true ∧ t.reg DBG_MDATA = v ∧ s.onlyRegs t [DBG_MDATA, DBG_MSTAT] ∧
        t.dbg.mop = some { write := true, addr := addr, data := v, ctl := s.reg DBG_MCTL }) ∧
      (∃ t o, exec .masterRead s = .next t ∧ t.on DBG_MSTAT_BUSY = true ∧ t.dbg.mop = some o ∧ o.write = false ∧ o.addr = addr ∧
        o.ctl = t.reg DBG_MCTL ∧ s.onlyRegs t [DBG_MCTL, DBG_MSTAT])) ∧
    (∀ (o : MasterOp) (d : Reg) (st : BitVec 2) (us : List Upset), s.dbg.mop = some o → s.underway .master = false → let w := o.addr.toNat
      (w % 2 = 1 → ∃ t, exec (.masterAccessDone d st us) s = .next t ∧ failed t 3 ∧ s.raises t [391] ∧ t.dbg.mop = none ∧ t.mem = s.mem ∧
        t.scr = s.scr ∧ s.onlyRegs t [DBG_MSTAT]) ∧
      (w % 2 = 0 → s.region .sup w = .scratch → let g := scrGranOfWord w
        (o.write = true → ∃ t, exec (.masterAccessDone d st us) s = .next t ∧ passed t o ∧ granPair (t.scrData g) w = o.data ∧
          t.scrTag g = false ∧ (∀ h, h ≠ g → t.scrData h = s.scrData h) ∧ s.onlyRegs t [DBG_MSTAT, DBG_MADDR_LO, DBG_MADDR_HI] ∧ t.mem = s.mem) ∧
        (o.write = false → ∃ t, exec (.masterAccessDone d st us) s = .next t ∧ passed t o ∧ t.reg DBG_MDATA = granPair (s.scrData g) w ∧
          s.onlyRegs t [DBG_MDATA, DBG_MSTAT, DBG_MADDR_LO, DBG_MADDR_HI] ∧ (∀ h, t.scrData h = s.scrData h ∧ t.scrTag h = s.scrTag h) ∧
          t.mem = s.mem)) ∧
      (w % 2 = 0 → s.region .sup w = .stream →
        let v := o.ctl.extractLsb' 8 2
        (v = 3 ∨ (o.write = true ∧ v = 1) → ∃ t, exec (.masterAccessDone d st us) s = .next t ∧ failed t 7 ∧ s.raises t [391] ∧
          t.mem = s.mem ∧ t.epc = s.epc) ∧
        (v ≠ 3 → (o.write = true → v ≠ 1) → s.memIdle → ∃ t res, exec (.masterAccessDone d st us) s = .next t ∧
          s.performs t us (fun _ => o.access w) (fun _ => res) 1 ∧ (match res with
            | .ok x _ => passed t o ∧ (o.write = false → t.reg DBG_MDATA = granPair x w)
            | .ue => failed t 4
            | .capacity _ => failed t 5
            | .conflict _ => failed t 6
            | .frozen => failed t 10)))))

/-- A halt request is taken once nothing holds the core: the save area of the monitor gets the interrupted state and the core halts, or with MODE 1
enters the monitor at vector 19 with the cause as its frame, or halts with CAUSE 6 where its stack has no room; RESUME and STEP return that
state, and STEP stops again after one instruction; a halted core's save area is written through MSV_DATA (R480 to R483).

DBG_FREEZE freezes the Pods it names; a breakpoint or watchpoint halt triggers once, 2 PCLK later, the Pods and cores the trigger names; a
terminal's write joins its FIFO of 64 bytes, or sets its overrun, and the first byte for the core raises E(386 + c) (R489, R491, R494).
Model's choice: assumptions 27, 56, 62. -/
def Obligations.RunControlAndTriggers : Prop :=
  (∀ (s : State) (c : CoreId), s.runs → coreBuilt s.build c = true →
    let k := s.core c
    let others := fun (t : State) => ∀ k, k ≠ coreKey c → t.coreAt k = s.coreAt k
    let wdg := fun (t : State) => s.onlyRegs t [MOTH_WDG_STAT, MOTH_WDG_CNT]
    let mode := bitsOf (Tbl.get 0 DBG_RUN_CTL k.dbg).toNat 8 1
    (∀ cause idx, k.haltReq = some (cause, idx) → k.released = true → k.dstate = 0 → k.niw = none → k.need = none → k.flight = [] →
      (mode = 0 ∨ c = .moth → ∃ t, exec (.haltEntry c) s = .next t ∧ (t.core c).dstate = 2 ∧ (t.core c).dcause = cause ∧
        (t.core c).didx = idx ∧ (t.core c).saveSet 10 = s.saved c ∧ t.view c = s.view c ∧ (t.core c).haltReq = none ∧ others t ∧ wdg t ∧
        s.raises t [384]) ∧
      (mode = 1 → c ≠ .moth → k.sbh.opd < 32 → ∃ t, exec (.haltEntry c) s = .next t ∧ (t.core c).dstate = 3 ∧ (t.core c).level = 12 ∧
        (t.core c).hr.pc = 152 ∧ (t.core c).saveSet 10 = s.saved c ∧ (t.core c).base = k.sbh.opd ∧
        (t.core c).sbh = k.sbh.push (cause.zeroExtend 16) ∧ others t ∧ wdg t ∧ s.raises t [384]) ∧
      (mode = 1 → c ≠ .moth → 32 ≤ k.sbh.opd → ∃ t, exec (.haltEntry c) s = .next t ∧ (t.core c).dstate = 2 ∧ (t.core c).dcause = 6 ∧
        (t.core c).saveSet 10 = s.saved c ∧ others t ∧ wdg t ∧ s.raises t [384])) ∧
    (s.on DBG_AUTH_STAT_GRANTED = true → s.selected = some c →
      (k.haltReq = none → k.dstate ≠ 2 → k.released = true → ∃ t, exec .haltRequest s = .next t ∧ (t.core c).haltReq = some (1, 0) ∧ others t ∧
        t = { s with cores := t.cores }) ∧
      (k.dstate = 2 → let x := k.saveSet 10
        ∀ i step, (i, step) ∈ ([(.resume, false), (.step, true)] : List (Instr × Bool)) → ∃ t, exec i s = .next t ∧ (t.core c).dstate = 0 ∧
          (t.core c).stepping = step ∧ (t.core c).skipBp = true ∧ (t.core c).level = x.level ∧ (t.core c).cpl = x.cpl ∧
          (t.core c).base = x.base.toNat ∧ (t.core c).rbase = x.rbase.toNat ∧ (∀ w, t.view c = some w → w.regs = x.r) ∧ others t ∧ wdg t ∧
          s.raises t [385]) ∧
      (∀ v : Reg, k.dstate = 2 → ∃ t, exec (.msvDataWrite v) s = .next t ∧
        t.core c = { k with sv := Tbl.set SaveSet.init 10 ((k.saveSet 10).setWord (s.fld DBG_MSV_SEL_INDEX) v) k.sv } ∧ others t ∧
        t = { s with cores := t.cores }) ∧
      (∀ v : Reg, k.dstate ≠ 2 → exec (.msvDataWrite v) s = .next s))) ∧
  (∀ (s : State), s.runs →
    (s.on DBG_AUTH_STAT_GRANTED = true → ∀ m : BitVec 16, ∃ t, exec (.podFreeze m) s = .next t ∧ t.fld DBG_FREEZE_LP = m.toNat ∧
      s.onlyRegs t [DBG_FREEZE] ∧ t = { s with regs := t.regs }) ∧
    (∀ c, c ∈ s.dbg.trig → coreBuilt s.build c = true → ∃ t, exec (.crossTrigger c) s = .next t ∧
      t.reg DBG_FREEZE = s.reg DBG_FREEZE ||| s.reg DBG_XTRIG_POD ∧ s.onlyRegs t [DBG_FREEZE] ∧ t.dbg.trig = s.dbg.trig.erase c ∧
      (∀ d, d ∈ s.xtrigCores → (s.core d).released = true → (s.core d).haltReq = none → (s.core d).dstate ≠ 2 →
        (t.core d).haltReq = some (5, 0)) ∧ (∀ d, coreBuilt s.build d = true → d ∉ s.xtrigCores → t.core d = s.core d)) ∧
    (∀ (a : Agent) (n : Nat) (v : Reg), n < 4 → s.writes a (DBG_VT_CDATA n) →
      (a = .dap → s.on DBG_AUTH_STAT_GRANTED = true) →
      ((s.vtTx n).length < 64 → ∃ t, exec (.vtCdataWrite a n v) s = .next t ∧ t.vtTx n = s.vtTx n ++ [v.extractLsb' 0 8] ∧
        (∀ m, m ≠ n → t.vtTx m = s.vtTx m) ∧ t.dbg.rx = s.dbg.rx ∧ t = { s with dbg := t.dbg }) ∧
      (64 ≤ (s.vtTx n).length → ∃ t, exec (.vtCdataWrite a n v) s = .next t ∧ t.on (DBG_VT_STAT_TXOVR n) = true ∧
        s.onlyRegs t [DBG_VT_STAT n] ∧ t = { s with regs := t.regs })) ∧
    (∀ (n : Nat) (v : Reg), n < 4 → s.on DBG_AUTH_STAT_GRANTED = true →
      ((s.vtRx n).length < 64 → ∃ t, exec (.vtDdataWrite n v) s = .next t ∧ t.vtRx n = s.vtRx n ++ [v.extractLsb' 0 8] ∧
        (∀ m, m ≠ n → t.vtRx m = s.vtRx m) ∧ t.dbg.tx = s.dbg.tx ∧ s.raises t (if s.vtRx n = [] then [386 + n] else []) ∧ t.regs = s.regs) ∧
      (64 ≤ (s.vtRx n).length → ∃ t, exec (.vtDdataWrite n v) s = .next t ∧ t.on (DBG_VT_STAT_RXOVR n) = true ∧
        s.onlyRegs t [DBG_VT_STAT n] ∧ t = { s with regs := t.regs })))

/-! ### Health and spares (chapter 17) -/

/-- A swap GO is refused with its ECAUSE, or staged with E417, READY at once but for a bank; the copy's end makes a bank READY; in the window a READY
Pod, row or lane swap takes effect: the Pod is failed in the map, the row's home is BORROWED by the next entry down from 511, the lane is the
spare; DONE, E416, and the generation of the image counts (R504, R506 to R508, R514).

Before the Tick Unit starts, IMG_DATA writes the selected word of the image and LOAD takes the maps from it, with IMGBAD and E423 for an image
without its first word; afterwards the one is ignored and the other sets LOADERR (R515).
Model's choice: assumptions 33, 70. -/
def Obligations.SwapsAndImage : Prop :=
  (∀ (s : State) (v : Reg), s.runs →
    let kind := v.toNat % 8
    let grp := v.toNat / 16 % 16
    let unit := v.toNat / 256 % 128
    let row := v.toNat / 65536 % 4096
    (∀ c, s.swapCause kind grp unit row = some c → ∃ t, exec (.swapStage v) s = .next t ∧ t.on HLT_SWAP_STAT_ERR = true ∧
      t.fld HLT_SWAP_STAT_ECAUSE = c ∧ s.onlyRegs t [HLT_SWAP_STAT] ∧ t = { s with regs := t.regs }) ∧
    (s.on HLT_SWAP_STAT_STAGED = true → s.swapCause kind grp unit row = some 1) ∧
    (5 ≤ kind → s.on HLT_SWAP_STAT_STAGED = false → s.swapCause kind grp unit row = some 5) ∧
    (s.swapCause kind grp unit row = none → ∃ t, exec (.swapStage v) s = .next t ∧ t.on HLT_SWAP_STAT_STAGED = true ∧
      t.fld HLT_SWAP_KIND = kind ∧ t.fld HLT_SWAP_GRP = grp ∧ t.fld HLT_SWAP_UNIT = unit ∧ t.fld HLT_SWAP_ROW = row ∧
      t.fld HLT_SWAP_STAT_ROWS = 0 ∧ (t.on HLT_SWAP_STAT_READY = true ↔ kind ≠ 2) ∧ s.raises t [417] ∧
      s.onlyRegs t (if kind = 4 then [HLT_SWAP, HLT_SWAP_STAT, WIAN_LINK_STAT grp] else [HLT_SWAP, HLT_SWAP_STAT])) ∧
    (s.on HLT_SWAP_STAT_STAGED = true → s.fld HLT_SWAP_KIND = 2 → s.on HLT_SWAP_STAT_READY = false → ∃ t, exec .bankCopyDone s = .next t ∧
      t.fld HLT_SWAP_STAT_ROWS = 4608 ∧ t.on HLT_SWAP_STAT_READY = true ∧ s.onlyRegs t [HLT_SWAP_STAT] ∧ t = { s with regs := t.regs }) ∧
    (∀ us, s.epc.flip.any Flip.swaps = false → exec (.swapApply us) s = .next s) ∧
    (∀ us, s.epc.flip.any Flip.swaps = true → s.on HLT_SWAP_STAT_STAGED = true → s.on HLT_SWAP_STAT_READY = true → s.swapReady = true →
      let u := s.fld HLT_SWAP_UNIT
      let g := s.fld HLT_SWAP_GRP
      let h := s.fld HLT_SWAP_ROW
      let b := g * 127 + u
      let done := fun (t : State) => t.on HLT_SWAP_STAT_DONE = true ∧ t.on HLT_SWAP_STAT_STAGED = false ∧ t.on HLT_SWAP_STAT_READY = false ∧
        (416, s.clk.tb) ∈ t.evc.raised ∧ t.img 0 = 0x5A170204 ∧ t.img 66059 = s.img 66059 + 1
      (s.fld HLT_SWAP_KIND = 0 → u < 17 → ∃ t, exec (.swapApply us) s = .next t ∧ done t ∧ (t.reg HLT_MAP_POD).getLsbD u = true ∧
        t.img 1 = t.reg HLT_MAP_POD ∧ s.onlyRegs t [HLT_MAP_POD, HLT_SWAP_STAT, HLT_LOG_STAT] ∧ t.mem = s.mem) ∧
      (s.fld HLT_SWAP_KIND = 3 → u < 127 → (s.sparesOf b).length < 64 → let i := (s.sparesOf b).length
        ∃ t, exec (.swapApply us) s = .next t ∧ done t ∧ t.sparesOf b = s.sparesOf b ++ [h] ∧
          (t.entry (512 * b + (511 - i))).borrowed = true ∧ (t.entry (512 * b + (511 - i))).home.toNat = h ∧
          (∀ k, k ≠ 512 * b + (511 - i) → t.entry k = s.entry k) ∧
          t.rowData (s.rowKey b (4096 + (511 - i))) = (strikeRows us s).rowData (s.rowKey b h) ∧ s.onlyRegs t [HLT_SWAP_STAT, HLT_LOG_STAT, EPC_STAT, SMEM_ERR_STAT]) ∧
      (s.fld HLT_SWAP_KIND = 4 → g < 4 → u < 8 → ∃ t, exec (.swapApply us) s = .next t ∧ done t ∧ t.fld (WIAN_LINK_STAT_SPARE g) = u ∧
        t.on (WIAN_LINK_STAT_LANE_DEG g) = false ∧ t.hlt.laneUsed.getLsbD g = true ∧ s.onlyRegs t [WIAN_LINK_STAT g, HLT_SWAP_STAT, HLT_LOG_STAT] ∧
        t.mem = s.mem))) ∧
  (∀ (s : State) (v : Reg), s.runs →
    let k := s.fld HLT_IMG_SEL_WORD
    (s.on TBU_TICK_STAT_STARTED = false → k < 66060 → ∃ t, exec (.imageDataWrite v) s = .next t ∧ t.img k = v ∧ (∀ j, j ≠ k → t.img j = s.img j) ∧
      t = { s with hlt := { s.hlt with img := t.hlt.img } }) ∧
    (s.on TBU_TICK_STAT_STARTED = true ∨ 66060 ≤ k → exec (.imageDataWrite v) s = .next s) ∧
    (s.on TBU_TICK_STAT_STARTED = true → ∃ t, exec .imageLoad s = .next t ∧ t.on HLT_STAT_LOADERR = true ∧ s.onlyRegs t [HLT_STAT] ∧
      t = { s with regs := t.regs }) ∧
    (s.on TBU_TICK_STAT_STARTED = false → s.img 0 = 0x5A170204 → ∃ t, exec .imageLoad s = .next t ∧
      t.reg HLT_MAP_POD = s.img 1 &&& 0x1FFFF ∧ t.reg HLT_MAP_SEQ = s.img 2 &&& 0xFFFF ∧
      (∀ j, j < 16 → t.reg (HLT_MAP_BANK j) = s.img (3 + j) &&& 0x807F) ∧ t.evc = s.evc ∧ t.mem = s.mem) ∧
    (s.on TBU_TICK_STAT_STARTED = false → s.img 0 ≠ 0x5A170204 → ∃ t, exec .imageLoad s = .next t ∧ t.reg HLT_MAP_POD = 0 ∧
      t.reg HLT_MAP_SEQ = 0xFFFF ∧ (∀ j, j < 16 → t.reg (HLT_MAP_BANK j) = 0) ∧ t.on HLT_STAT_IMGBAD = true ∧ s.raises t [423]))

/-- The spare Pod is tested after each strobe; a test that fails is logged with E(128 + 4n + 3), and a spare that failed leaves the map; a lockstep
mismatch is logged with E420, and with LS_RST warm-resets the block; LOG_POP drops the oldest record (R502, R505, R512).

The rail watch averages its last 16 samples into A and the change from the 16 before into SLOPE; A falling below VLOW sets LOW with E2, and the
prediction PRED with E2 once until A is above VLOW again; a sensor that reaches WARN is logged with E3, and at CRIT freezes the commits
(R509 to R511). -/
def Obligations.SelfTestsAndSensors : Prop :=
  (∀ (s : State) (p : Nat), s.runs → s.hasPod p = true →
    (s.on (POD_STAT_SELFTEST p) = false → s.sparePod = some p → s.on HLT_CTL_ST_EN = true → s.hlt.spareDue = true →
      ∃ t, exec (.selftestStart p) s = .next t ∧ t.on (POD_STAT_SELFTEST p) = true ∧
        t.fld (POD_RUNS_COUNT p) = (s.fld (POD_RUNS_COUNT p) + 1) % 2 ^ (POD_RUNS_COUNT p).w ∧ s.onlyRegs t [POD_STAT p, POD_RUNS p] ∧
        t = { s with regs := t.regs, hlt := { s.hlt with spareDue := false } }) ∧
    (s.on (POD_STAT_SELFTEST p) = true →
      (∃ t, exec (.selftestDone p true) s = .next t ∧ t.on (POD_STAT_SELFTEST p) = false ∧ s.onlyRegs t [POD_STAT p] ∧
        t = { s with regs := t.regs }) ∧
      (s.hlt.log.length < 64 → s.sparePod ≠ some p → s.on HLT_CTL_AUTO = false → ∃ t r, exec (.selftestDone p false) s = .next t ∧
        t.on (POD_STAT_SELFTEST p) = false ∧ t.hlt.log = s.hlt.log ++ [r] ∧ r.extractLsb' 64 8 = 3 ∧ (r.extractLsb' 80 16).toNat = p % 65536 ∧
        s.raises t ((if s.hlt.log = [] then [421] else []) ++ [128 + 4 * p + 3]) ∧ s.onlyRegs t [POD_STAT p]) ∧
      (s.sparePod = some p → p < 17 → ∃ t, exec (.selftestDone p false) s = .next t ∧ (t.reg HLT_MAP_POD).getLsbD p = true ∧
        t.img 66059 = s.img 66059 + 1)) ∧
    (s.on HLT_CTL_LS_RST = false → s.hlt.log.length < 64 → ∃ t r, exec .lockstepMismatch s = .next t ∧ t.on HLT_STAT_LSMIS = true ∧
      t.hlt.log = s.hlt.log ++ [r] ∧ r.extractLsb' 64 8 = 4 ∧ s.raises t ((if s.hlt.log = [] then [421] else []) ++ [420]) ∧
      s.onlyRegs t [HLT_STAT]) ∧
    (s.on HLT_CTL_LS_RST = true → s.crp.phase = 2 → ∃ t, exec .lockstepMismatch s = .next t ∧ t.crp.phase = 3 ∧
      (t.reg CRP_RST_STAT).getLsbD 10 = true) ∧
    exec .logPop s = .next { s with hlt := { s.hlt with log := s.hlt.log.drop 1 } }) ∧
  (∀ (s : State), s.runs →
    (∀ code : BitVec 12, s.on MOTH_RAIL_CFG_EN = false → exec (.railSample code) s = .next s) ∧
    (∀ code : BitVec 12, s.on MOTH_RAIL_CFG_EN = true → let l := (code :: s.hlt.rail).take 32
      (l.length < 16 → ∃ t, exec (.railSample code) s = .next t ∧ t.hlt = { s.hlt with rail := l } ∧ t = { s with hlt := t.hlt }) ∧
      (l.length = 32 → let a : Nat := (l.take 16).foldl (fun n x => n + x.toNat) 0 / 16
        let b : Nat := ((l.drop 16).take 16).foldl (fun n x => n + x.toNat) 0 / 16
        let vlow := s.fld MOTH_RAIL_LIM_VLOW
        ∃ t, exec (.railSample code) s = .next t ∧ t.hlt.rail = l ∧ t.fld MOTH_RAIL_DATA_A = a ∧
          BitVec.ofNat 16 (t.fld MOTH_RAIL_STAT_SLOPE) = BitVec.ofInt 16 ((a : Int) - b) ∧
          t.fld MOTH_RAIL_DATA_MIN = (if s.hlt.minSet then min a (s.fld MOTH_RAIL_DATA_MIN) else a) ∧
          (a < vlow → (∀ p, s.hlt.railA = some p → vlow ≤ p) → t.on MOTH_RAIL_STAT_LOW = true ∧ (2, s.clk.tb) ∈ t.evc.raised) ∧
          ((s.hlt.armed = true ∨ vlow < a) → s.railFires a ((a : Int) - b) = true → t.on MOTH_RAIL_STAT_PRED = true ∧ t.hlt.armed = false ∧
            (2, s.clk.tb) ∈ t.evc.raised ∧ (s.on MOTH_RAIL_CFG_FREEZE_EN = true → t.on EPC_CTL_FREEZE = true ∧ t.on MOTH_RAIL_STAT_FROZE = true)) ∧
          (¬ (s.railFires a ((a : Int) - b) = true) → t.on EPC_CTL_FREEZE = s.on EPC_CTL_FREEZE ∧ t.mem = s.mem))) ∧
    (∀ (n : BitVec 4) (x : BitVec 12), let k := n.toNat
      let reach := fun (lim : BitVec 12) => lim.sle x = true ∧ ∀ p, Tbl.get none k s.hlt.temp = some p → lim.sle p = false
      let warn := BitVec.ofNat 12 (s.fld ⟨HLT_THERM_CFG, 0, 12⟩)
      let crit := BitVec.ofNat 12 (s.fld ⟨HLT_THERM_CFG, 16, 12⟩)
      ∃ t, exec (.thermalSample n x) s = .next t ∧ Tbl.get none k t.hlt.temp = some x ∧
        (∃ m, Tbl.get none k t.hlt.hot = some m ∧ x.sle m = true) ∧
        (reach warn → (3, s.clk.tb) ∈ t.evc.raised ∧ (t.reg HLT_THERM_STAT).getLsbD k = true) ∧
        (reach crit → t.on EPC_CTL_FREEZE = true ∧ (t.reg HLT_THERM_STAT).getLsbD (16 + k) = true) ∧
        (¬ reach warn → ¬ reach crit → t = { s with hlt := t.hlt } ∧ t.hlt.log = s.hlt.log)))

/-! ### Security (chapter 18) -/

/-- NEW draws a fresh challenge, or waits for entropy; VERIFY consumes it, and at LOCKED fails at once; its end grants, with CODEWR for the higher
level, when the challenge was fresh, the key's hash is the OTP's, the signature holds and DBG_OFF is 0, and else counts a failure with its
CAUSE and E401, the fourth of which locks; DROP clears the grant; each change of the grant raises E390 (R495, R525, R526).
Model's choice: assumptions 18, 62. -/
def Obligations.DebugAuthentication : Prop :=
  ∀ (s : State), s.runs → s.sec.audit.length < 191 →
    let idle := s.on DBG_AUTH_ERR_BUSY = false
    let error := fun (t : State) (cause : Nat) => t.fld DBG_AUTH_ERR_FAILS = min (s.fld DBG_AUTH_ERR_FAILS + 1) 7 ∧ t.fld DBG_AUTH_ERR_CAUSE = cause ∧
      t.on DBG_AUTH_ERR_LOCKED = (s.on DBG_AUTH_ERR_LOCKED || decide (4 ≤ s.fld DBG_AUTH_ERR_FAILS + 1)) ∧ s.raises t [401] ∧
      t.sec.audit.length = s.sec.audit.length + 1
    let clear := (s.reg DBG_AUTH_CTL) &&& 7 = 0
    (clear → idle → s.on SEC_STAT_ENT_FAIL = false → s.sec.drawn < 2 ^ 20 → ∃ t, exec .authNew s = .next t ∧
      (∀ m, m < 12 → t.reg (DBG_AUTH_CHAL m) = (Config.drbg s.sec.drbg).extractLsb' (32 * m) 32) ∧
      t.sec = { s.sec with drbg := s.sec.drbg + 1, drawn := s.sec.drawn + 1, fresh := true, newWait := false } ∧
      (∀ o, (∀ m, m < 12 → o ≠ DBG_AUTH_CHAL m) → t.reg o = s.reg o) ∧ t = { s with regs := t.regs, sec := t.sec }) ∧
    (clear → idle → s.on SEC_STAT_ENT_FAIL = true ∨ 2 ^ 20 ≤ s.sec.drawn → ∃ t, exec .authNew s = .next t ∧ t.on DBG_AUTH_ERR_BUSY = true ∧
      t.sec = { s.sec with newWait := true } ∧ s.onlyRegs t [DBG_AUTH_ERR]) ∧
    (∀ level : Bool, idle → s.on DBG_AUTH_ERR_LOCKED = false → ∃ t, exec (.authVerify level) s = .next t ∧ t.on DBG_AUTH_ERR_BUSY = true ∧
      t.sec = { s.sec with fresh := false, verify := some (level, s.sec.fresh) } ∧ s.onlyRegs t [DBG_AUTH_CTL, DBG_AUTH_ERR] ∧ t.evc = s.evc) ∧
    (∀ level : Bool, idle → s.on DBG_AUTH_ERR_LOCKED = true → ∃ t, exec (.authVerify level) s = .next t ∧ error t 5 ∧ t.sec.fresh = false) ∧
    (∀ level was, s.sec.verify = some (level, was) →
      let pub := BitVec.ofNat 768 (s.respWords 0 24)
      let msg := bytesOf (s.challenge 0 12) 48 ++ bytesOf s.serial.toNat 8 ++ [BitVec.ofNat 8 level.toNat]
      let good := was = true ∧ Config.sha384 (bytesOf pub.toNat 96) = s.dbgHash ∧
        Config.ecdsaOk pub (BitVec.ofNat 768 (s.respWords 24 24)) msg = true ∧ s.on SEC_STAT_DBG_OFF = false
      ∃ t, exec .authVerifyDone s = .next t ∧ t.on DBG_AUTH_ERR_BUSY = false ∧ t.sec.verify = none ∧
        (good → t.on DBG_AUTH_STAT_GRANTED = true ∧ t.on DBG_AUTH_STAT_CODEWR = (level || s.on DBG_AUTH_STAT_CODEWR) ∧
          t.fld DBG_AUTH_ERR_FAILS = 0 ∧ t.fld DBG_AUTH_ERR_CAUSE = 0 ∧
          s.raises t (if s.on DBG_AUTH_STAT_GRANTED = true ∧ (s.on DBG_AUTH_STAT_CODEWR = true ∨ level = false) then [] else [390])) ∧
        (¬ good → t.on DBG_AUTH_STAT_GRANTED = s.on DBG_AUTH_STAT_GRANTED ∧ ∃ c, 1 ≤ c ∧ c ≤ 4 ∧ (was = false → c = 1) ∧ error t c)) ∧
    (clear → ∃ t, exec .authDrop s = .next t ∧ t.on DBG_AUTH_STAT_GRANTED = false ∧ t.on DBG_AUTH_STAT_CODEWR = false ∧
      s.raises t (if s.on DBG_AUTH_STAT_GRANTED = true ∨ s.on DBG_AUTH_STAT_CODEWR = true then [390] else []) ∧ s.onlyRegs t [DBG_AUTH_STAT])

/-- An entropy failure sets ENT_FAIL once, with a class 7 record and E405; a reseed, after 2^20 draws or at recovery, lets draws go on and serves a
NEW that waits; VERADV burns MIN_VER up to the version that booted; LOCK.CFG stays set, each key-register write leaves a class 6 record; POP
removes the oldest record (R520, R523, R524, R531).
Model's choice: assumptions 18, 24. -/
def Obligations.EntropyKeysAudit : Prop :=
  ∀ (s : State), s.runs → s.sec.audit.length < 190 →
    let first := fun (t : State) (cls : Nat) => ∃ r l, t.sec.audit = s.sec.audit ++ r :: l ∧ (r.extractLsb' 96 8).toNat = cls
    (s.on SEC_STAT_ENT_FAIL = false → ∃ t, exec .entropyFail s = .next t ∧ t.on SEC_STAT_ENT_FAIL = true ∧ first t 7 ∧ s.raises t [405] ∧
      s.onlyRegs t [SEC_STAT, SEC_AUD_SEQ]) ∧
    (s.on SEC_STAT_ENT_FAIL = true → s.sec.newWait = false → ∃ t, exec .entropyRecovery s = .next t ∧ t.on SEC_STAT_ENT_FAIL = false ∧
      t.sec = { s.sec with entBad := false, drawn := 0 } ∧ s.onlyRegs t [SEC_STAT] ∧ t.evc = s.evc) ∧
    (s.on SEC_STAT_ENT_FAIL = false → 2 ^ 20 ≤ s.sec.drawn → s.sec.newWait = false →
      exec .drbgReseed s = .next { s with sec := { s.sec with drawn := 0 } }) ∧
    (s.on SEC_STAT_ENT_FAIL = false → 2 ^ 20 ≤ s.sec.drawn → s.sec.newWait = true → ∃ t, exec .drbgReseed s = .next t ∧ t.sec.drawn = 1 ∧
      t.sec.newWait = false ∧ t.sec.fresh = true ∧ t.on DBG_AUTH_ERR_BUSY = false ∧
      t.reg (DBG_AUTH_CHAL 0) = (Config.drbg s.sec.drbg).extractLsb' 0 32) ∧
    (∀ a, s.writes a SEC_LOCK → ∃ t, exec (.secLockSet a) s = .next t ∧ t.on SEC_LOCK_CFG = true ∧ first t 6 ∧
      s.onlyRegs t [SEC_LOCK, SEC_AUD_SEQ]) ∧
    (∀ a, s.writes a SEC_VERADV → let v := s.fld SEC_VER_VERSION
      (s.fld SEC_STAT_BOOT = 1 → s.minVer < v → v ≤ 64 → ∃ t, exec (.versionAdvance a) s = .next t ∧ t.minVer = v ∧ t.fld SEC_VER_MIN_VER = v ∧
        first t 6 ∧ (∀ k, k ≠ 34 → k ≠ 35 → t.otp k = s.otp k) ∧ (∀ j, j < 32 → (s.otp 34).getLsbD j = true → (t.otp 34).getLsbD j = true)) ∧
      (s.fld SEC_STAT_BOOT ≠ 1 ∨ v ≤ s.minVer → ∃ t, exec (.versionAdvance a) s = .next t ∧ t.sec.otp = s.sec.otp ∧ first t 6 ∧
        s.onlyRegs t [SEC_AUD_SEQ])) ∧
    (∀ a, s.writes a SEC_AUD_POP → a ≠ .mgmt → exec (.auditPop a) s = .next { s with sec := { s.sec with audit := s.sec.audit.drop 1 } })

/-! ### Resets, start-up and power states (chapters 19 and 20) -/

/-- A power request: NONE and the state in force do nothing, RUN and DOZE are taken at once, NAP and SLEEP begin an entry or are refused with the first
ECAUSE that holds; RUN written during an entry is taken at its end, any other request then is refused with 6 (R533, R536, R540, Table 19.4).

An entry ends in NAP, or at the second LFCLK edge in SLEEP with TB on LFCLK and every link DOWN, once the ports acknowledge self-refresh; an exit
begins where RUN was asked meanwhile, waits for the islands' PWR_ACK (one that is late counts as off), and ends in RUN: from NAP with Pods and
sequencers reset and no event, from SLEEP by a warm reset with cause WAKE, or a cold one without retention (R536 to R539, R549, R552).
Model's choice: assumptions 31, 32. -/
def Obligations.PowerStates : Prop :=
  (∀ (s : State) (a : Agent), s.writes a CRP_PWR_CTL → s.runs → s.crp.phase = 2 → s.crp.exiting = false →
    let st := s.fld CRP_PWR_STAT_STATE
    let becomes := fun (i : Instr) (v : Nat) => ∃ t, exec i s = .next t ∧ t.fld CRP_PWR_STAT_STATE = v ∧ s.onlyRegs t [CRP_PWR_STAT] ∧
      t = { s with regs := t.regs }
    let refused := fun (i : Instr) (c : Nat) => ∃ t, exec i s = .next t ∧ t.on CRP_PWR_STAT_REQERR = true ∧ t.fld CRP_PWR_STAT_ECAUSE = c ∧
      t.fld CRP_PWR_STAT_STATE = st ∧ s.onlyRegs t [CRP_PWR_STAT] ∧ t = { s with regs := t.regs }
    let entered := fun (i : Instr) (v : Nat) => ∃ t, exec i s = .next t ∧ t.on CRP_PWR_STAT_BUSY = true ∧ t.fld CRP_PWR_STAT_STATE = st ∧
      t.crp = { s.crp with entry := some v, lfEdges := 0, wantRun := false, srWait := List.range s.build.bmps } ∧ t.mem = s.mem
    exec (.pwrReqNone a) s = .next s ∧
    (s.crp.entry = none →
      becomes (.pwrReqRun a) 1 ∧ becomes (.pwrReqDoze a) 2 ∧
      (s.entryCause false = 0 → entered (.pwrReqNap a) 3) ∧ (s.entryCause false ≠ 0 → refused (.pwrReqNap a) (s.entryCause false)) ∧
      (s.entryCause true = 0 → entered (.pwrReqSleep a) 4) ∧ (s.entryCause true ≠ 0 → refused (.pwrReqSleep a) (s.entryCause true)) ∧
      ((∃ n, n < s.build.lss ∧ s.lsIdle n = false) → s.entryCause false = 1) ∧
      (s.on HIF_CTL_EN = true → s.entryCause false = 0 → s.entryCause true = 7)) ∧
    (s.crp.entry ≠ none → exec (.pwrReqRun a) s = .next { s with crp := { s.crp with wantRun := true } } ∧
      ∀ i ∈ [Instr.pwrReqDoze a, .pwrReqNap a, .pwrReqSleep a], refused i 6)) ∧
  (∀ (s : State), s.crp.live = true →
    let st := fun (t : State) => t.fld CRP_PWR_STAT_STATE
    (s.crp.entry = some 3 → s.crp.srWait = [] → ∃ t, exec .napEntryDone s = .next t ∧ st t = 3 ∧ t.crp.entry = none ∧
      (s.crp.wantRun = false → t.on CRP_PWR_STAT_BUSY = false ∧ s.onlyRegs t [CRP_PWR_STAT] ∧
        t = { s with regs := t.regs, crp := { s.crp with entry := none, wantRun := false } }) ∧
      (s.crp.wantRun = true → t.crp.exiting = true ∧ t.on CRP_PWR_STAT_BUSY = true)) ∧
    (s.crp.entry = some 4 → s.atLfEdge = false → exec .sleepEntryDone s = .next s) ∧
    (s.crp.entry = some 4 → s.crp.srWait = [] → 2 ≤ s.crp.lfEdges → s.atLfEdge = true → s.crp.wantRun = false → ∃ t, exec .sleepEntryDone s = .next t ∧ st t = 4 ∧
      t.crp.entry = none ∧ t.on CRP_PWR_STAT_BUSY = false ∧ t.on TBU_TB_STAT_LF = true ∧ t.on TBU_TB_STAT_ACC = false ∧
      (∀ l, l < 4 → t.lstate l = 0) ∧ t.fld WIAN_STAT_SYNC = 0 ∧ t.mem = s.mem ∧ t.clk.tb = s.clk.tb) ∧
    (∀ n, s.hasBmp n = true → exec (.selfRefreshAck n) s =
      .next { s with crp := { s.crp with srWait := s.crp.srWait.filter (fun x => decide (x ≠ n)) } }) ∧
    (∀ i : BitVec 6, i.toNat < 41 →
      (∃ t, exec (.islandPowerAck i) s = .next t ∧ i.toNat ∉ t.crp.ackWait ∧ i.toNat ∉ t.crp.islandOff ∧
        (∀ j, j ≠ i.toNat → (j ∈ t.crp.ackWait ↔ j ∈ s.crp.ackWait) ∧ (j ∈ t.crp.islandOff ↔ j ∈ s.crp.islandOff)) ∧
        t = { s with crp := { s.crp with ackWait := t.crp.ackWait, islandOff := t.crp.islandOff } }) ∧
      (i.toNat ∈ s.crp.ackWait → ∃ t, exec (.islandAckTimeout i) s = .next t ∧ i.toNat ∈ t.crp.islandOff ∧ t.islandOn i.toNat = false ∧
        t = { s with crp := { s.crp with islandOff := t.crp.islandOff } })) ∧
    (st s = 3 → s.crp.exiting = true → s.crp.ackWait = [] → ∃ t, exec .napExit s = .next t ∧ st t = 1 ∧ t.on CRP_PWR_STAT_BUSY = false ∧
      t.crp.exiting = false ∧ (∀ p, p < s.build.pods → t.reg (POD_TICKET p) = 0 ∧ t.reg (POD_FLAGS p) = 0) ∧ t.mem = s.mem ∧
      t.evc.raised = s.evc.raised ∧ t.clk.tb = s.clk.tb) ∧
    (st s = 4 → s.crp.exiting = true →
      (s.on CRP_PWR_CFG_RET = true → ∃ t, exec .sleepExit s = .next t ∧ st t = 1 ∧ t.crp.phase = 3 ∧ (t.reg CRP_RST_STAT).getLsbD 12 = true ∧
        t.clk.tb = s.clk.tb ∧ t.crp.exiting = false) ∧
      (s.on CRP_PWR_CFG_RET = false → ∃ t, exec .sleepExit s = .next t ∧ t.crp.phase = 0 ∧ (t.reg CRP_RST_STAT).getLsbD 4 = true ∧
        t.clk.tb = s.clk.tb)))

/-- The causes of reset: the watchdog by its ACTION, the pins, the bits of CRP_RST_CTL, and the supply. A cold one begins the start-up anew and keeps
TB, the code store, the OTP and the Moth core's memory; a warm one keeps stream memory's rows, begins again at the supervisor's release, and is
merged with one in progress; loss of the supply leaves the code store and the OTP (R223, R447, R540 to R542, R545, R548, Table 19.5).

Start-up: its checks record what they measured and go on when PCLK, TCLK and the rail are good; the supervisor starts in SB1 at vector 0 with the
MINT capability once the boot passed, and with another BOOT code stays in reset; the sequencers are released by REL once the scratch is
zeroed, and at once when it was held (R521, R522, R543, R544, Table 19.6).
Model's choice: assumptions 23, 28, 30, 35. -/
def Obligations.ResetsAndStartUp : Prop :=
  (∀ (s : State),
    let cold := fun (t : State) (bit : Nat) => t.crp.phase = 0 ∧ (t.reg CRP_RST_STAT).getLsbD bit = true ∧ t.clk.tb = s.clk.tb ∧
      t.code.store = s.code.store ∧ t.code.moth = s.code.moth ∧ t.sec.otp = s.sec.otp ∧ t.build = s.build ∧
      (∀ c, c ≠ .moth → coreBuilt s.build c = true → (t.core c).released = false) ∧ t.ctxAt 0x8001 = Ctx.start ∧
      t.reg MOTH_WAKE_CFG = s.reg MOTH_WAKE_CFG
    let warm := fun (t : State) (bit : Nat) => t.crp.phase = 3 ∧ (t.reg CRP_RST_STAT).getLsbD bit = true ∧ t.clk.tb = s.clk.tb ∧
      (s.code.write = none → t.code.store = s.code.store) ∧ t.sec.otp = s.sec.otp ∧ (s.mem.init = none → t.mem.bytes = s.mem.bytes) ∧
      (∀ c, c ≠ .moth → coreBuilt s.build c = true → (t.core c).released = false) ∧ t.fld CRP_PWR_STAT_STATE = 1 ∧ t.on CRP_STAT_SEQ_REL = false
    (s.crp.live = true →
      (s.clk.expDue = true → s.on MOTH_WDG_CFG_ACTION = true → ∃ t, exec .wdgExpire s = .next t ∧ cold t 2) ∧
      (s.clk.expDue = true → s.on MOTH_WDG_CFG_ACTION = false → s.crp.phase = 2 → ∃ t, exec .wdgExpire s = .next t ∧ warm t 8 ∧
        t.on MOTH_WDG_STAT_EXPIRED = true) ∧
      (s.crp.porLow = false → ∃ t, exec (.coldResetPin true) s = .next t ∧ cold t 1 ∧ t.crp.porLow = true) ∧
      (∃ t, exec (.coldResetPin false) s = .next t ∧ t.crp.porLow = false ∧ t = { s with crp := t.crp }) ∧
      (s.crp.wrsLow = false → s.crp.phase = 2 → ∃ t, exec (.warmResetPin true) s = .next t ∧ warm t 13 ∧ t.crp.wrsLow = true) ∧
      (s.crp.wrsLow = false → s.crp.phase = 3 → ∃ t, exec (.warmResetPin true) s = .next t ∧ (t.reg CRP_RST_STAT).getLsbD 13 = true ∧
        t = { s with regs := t.regs, crp := { s.crp with wrsLow := true } }) ∧
      (∃ t, exec (.warmResetPin false) s = .next t ∧ t.crp.wrsLow = false ∧ t = { s with crp := t.crp })) ∧
    (∀ a, s.writes a CRP_RST_CTL → (∃ t, exec (.coldResetRequest a) s = .next t ∧ cold t 3) ∧
      (s.crp.phase = 2 → ∃ t, exec (.warmResetRequest a) s = .next t ∧ warm t 11)) ∧
    (∀ a, ∀ v : Reg, s.writes a CRP_RST_CTL → s.runs → s.crp.phase = 2 → let u := bitsOf v.toNat 8 6
      (v.getLsbD 15 = false → u < s.build.pods → ∃ t, exec (.domainReset a v) s = .next t ∧ t.reg (POD_TICKET u) = 0 ∧ t.reg (POD_FLAGS u) = 0 ∧
        (∀ p, p < 17 → p ≠ u → t.reg (POD_TICKET p) = s.reg (POD_TICKET p)) ∧ t.mem = s.mem ∧ t.evc = s.evc ∧
        t.on CRP_RST_STAT_DOMERR = s.on CRP_RST_STAT_DOMERR) ∧
      (v.getLsbD 15 = true → u < s.build.seqs → ∃ t, exec (.domainReset a v) s = .next t ∧ (t.core (.seq u)).live = none ∧
        (t.core (.seq u)).level = 0 ∧ (t.core (.seq u)).flight = [] ∧ t.mem = s.mem ∧
        t.on CRP_RST_STAT_DOMERR = s.on CRP_RST_STAT_DOMERR) ∧
      ((v.getLsbD 15 = false ∧ s.build.pods ≤ u) ∨ (v.getLsbD 15 = true ∧ s.build.seqs ≤ u) → ∃ t, exec (.domainReset a v) s = .next t ∧
        t.on CRP_RST_STAT_DOMERR = true ∧ s.onlyRegs t [CRP_RST_CTL, CRP_RST_STAT] ∧ t = { s with regs := t.regs })) ∧
    (∃ t, exec .supplyLoss s = .next t ∧ t.crp.live = false ∧ t.code.store = s.code.store ∧ t.sec.otp = s.sec.otp ∧
      t.cores = [] ∧ t.regs = []) ∧
    (s.crp.live = false → ∃ t, exec .powerOn s = .next t ∧ t.crp = Crp.init ∧ t.on CRP_RST_STAT_POR_OFF = true ∧ t.code.store = s.code.store ∧
      t.sec.otp = s.sec.otp ∧ t.clk = Clk.init ∧ (t.core .moth).released = true ∧ t.ctxAt 0x8001 = Ctx.start ∧
      ∀ c, c ≠ .moth → coreBuilt s.build c = true → (t.core c).released = false)) ∧
  (∀ (s : State), s.crp.live = true →
    let started := fun (t : State) => t.crp.phase = 2 ∧ (t.core .sup).released = true ∧ (t.core .sup).live = some 1 ∧
      (t.ctxAt 0x4001).r.pc = 0 ∧ Tbl.get Cap.null 0 (t.ctxAt 0x4001).caps = mintRoot ∧ (∀ k, k ∈ [0x4002, 0x4003, 0x4004] →
        (t.ctxAt k).state = .wait) ∧ t.fld CRP_PWR_STAT_STATE = 1
    (∀ (p m : Nat) (a : Nat), p < 4096 → s.crp.phase = 0 → s.crp.porLow = false → s.hlt.railA = some a → m = 1500 →
      ∀ x : BitVec 16, let ok := 98 * m ≤ 100 * p ∧ 100 * p ≤ 102 * m ∧ -200 ≤ x.toInt ∧ x.toInt ≤ 200 ∧ s.fld MOTH_RAIL_LIM_VLOW ≤ a
        ∃ t, exec (.startupCheck true (BitVec.ofNat 12 p) x) s = .next t ∧ t.on CRP_STAT_LF_OK = true ∧
          (t.on CRP_STAT_PCLK_OK = true ↔ 98 * m ≤ 100 * p ∧ 100 * p ≤ 102 * m) ∧
          (t.on CRP_STAT_TCLK_OK = true ↔ -200 ≤ x.toInt ∧ x.toInt ≤ 200) ∧ (t.on CRP_STAT_RAIL_OK = true ↔ s.fld MOTH_RAIL_LIM_VLOW ≤ a) ∧
          t.reg CRP_CLK_MEAS = x ++ BitVec.ofNat 16 p ∧ s.onlyRegs t [CRP_CLK_MEAS, CRP_STAT] ∧
          (ok → t.crp = { s.crp with phase := 1, fromOff := false }) ∧ (¬ ok → t.crp = s.crp)) ∧
    (∀ m, s.crp.porLow = false → s.crp.wrsLow = false → s.crp.phase = 3 → s.on DBG_CTL_RSTHALT = false →
      ∃ t, exec (.supervisorRelease m) s = .next t ∧ started t ∧ t.mem = s.mem ∧ t.scr = s.scr) ∧
    (∀ m, s.crp.porLow = false → s.crp.wrsLow = false → s.crp.phase = 1 → s.sec.audit.length < 190 →
      let code := (otpRead s).bootCode m
      (code = 1 ∨ code = 2 → ∃ t, exec (.supervisorRelease m) s = .next t ∧ started t ∧ t.fld SEC_STAT_BOOT = code ∧ t.mem = s.mem ∧
        (∀ g, g < mothGran0 → t.scrTag g = false) ∧ t.sec.audit.length = s.sec.audit.length + 1 ∧
        t.code.limit = (if code = 1 then some (bitsOf m.manifest.toNat 64 32) else none)) ∧
      (code ≠ 1 → code ≠ 2 → s.fld CRP_PWR_STAT_STATE ≠ 4 → ∃ t, exec (.secureBootFail m) s = .next t ∧ t.crp.phase = 4 ∧ t.fld SEC_STAT_BOOT = code ∧
        (t.core .sup).released = (s.core .sup).released ∧ (400, s.clk.tb) ∈ t.evc.raised)) ∧
    (s.crp.phase = 2 → s.on CRP_STAT_SCR_INIT = false → ∃ t, exec .scratchInitDone s = .next t ∧ t.on CRP_STAT_SCR_INIT = true ∧
      (s.crp.relWait = false → t.on CRP_STAT_SEQ_REL = s.on CRP_STAT_SEQ_REL ∧ t.cores = s.cores) ∧
      (s.crp.relWait = true → t.on CRP_STAT_SEQ_REL = true ∧ ∀ n, n < s.build.seqs → (t.core (.seq n)).released = true)) ∧
    (∀ a, s.writes a CRP_RST_CTL → s.on CRP_STAT_SEQ_REL = false →
      (s.on CRP_STAT_SCR_INIT = true → ∃ t, exec (.seqRelease a) s = .next t ∧ t.on CRP_STAT_SEQ_REL = true ∧
        (∀ n, n < s.build.seqs → t.core (.seq n) = { s.core (.seq n) with released := true }) ∧ s.onlyRegs t [CRP_RST_CTL, CRP_STAT]) ∧
      (s.on CRP_STAT_SCR_INIT = false → ∃ t, exec (.seqRelease a) s = .next t ∧ t.crp = { s.crp with relWait := true } ∧ t.cores = s.cores)))

/-! ### Reset and invariants -/

/-- After the cold reset from OFF: the identity and build words, the registers whose Reset is not 0, TB at 0, POR_OFF as the cause; the Moth core
alone released, at program address 0; every sequencer context FREE at PC 0; no command waiting (R322, R348, R543 to R545, the register
tables).
Model's choice: assumptions 2, 8, 30. -/
def Obligations.ResetState : Prop :=
  let s := State.reset
  s.pending = [] ∧ s.clk.tb = 0 ∧ s.reg CRP_RST_STAT = 1 ∧ s.reg CRP_PWR_CFG = 1 ∧ s.reg CRP_BUILD = 0x08041011 ∧ s.reg HLT_MAP_SEQ = 0xFFFF ∧
    s.reg HLT_CTL = 0xB ∧ s.reg EPC_CTL = 0x200001 ∧ s.reg TBU_TICK_PER = 1000000 ∧ s.reg EVC_CTL = 1 ∧ s.reg PMU_CTL = 1 ∧
    s.reg SMEM_CFG = 0x1001 ∧ s.reg SMEM_ARB = 0x2266354 ∧ s.reg MOTH_WDG_CFG = 1 ∧ s.reg MOTH_WDG_PER = 0x20001000 ∧ s.reg HIF_CTL = 0 ∧
    (∀ g, (s.group g).gepoch = 0 ∧ (s.group g).wepoch = 1) ∧ (s.core .moth).released = true ∧ (s.ctxAt 0x8001).r.pc = 0 ∧
    (∀ c, coreKey c ≠ 37 → (s.core c).released = false) ∧
    (∀ k, k < 0x4000 → (s.ctxAt k).state = .free ∧ (s.ctxAt k).r.pc = 0) ∧ (∀ l, l < 4 → s.lstate l = 0) ∧ (∀ e, (s.source e).pend = false) ∧
    (∀ k, s.scrTag k = false ∧ s.rowTag k = false) ∧ s.memWf

/-- Stream memory and local scratch keep their canonical form in every step: equal contents are equal data.
Model's choice: assumption 8. -/
def Obligations.MemoryStaysCanonical : Prop :=
  ∀ s t : State, s.memWf → step s = .next t → t.memWf

/-- A command neither takes from nor adds to the queue of those that wait, and leaves the build as it is.
Model's choice: assumptions 2, 3. -/
def Obligations.CommandsLeaveQueueAndBuild : Prop :=
  ∀ (i : Instr) (s t : State), exec i s = .next t → t.pending = s.pending ∧ t.build = s.build
end

