-- ==== Sys2Proof/Laws/Dispatch.lean ====
section
/-! SUPPORT. The meaning that `exec` gives each command, one lemma per constructor. -/

namespace Sys2Proof.Machine

variable (s : State)

theorem exec_regWrite (x0 : Agent) (x1 : Nat) (x2 : Reg) : exec (.regWrite x0 x1 x2) s = execRegWrite x0 x1 x2 s := rfl
theorem exec_npxReadRequest (x0 : BitVec 8) (x1 : Bool) (x2 : BitVec 28) (x3 : BitVec 6) (x4 : BitVec 4) : exec (.npxReadRequest x0 x1 x2 x3 x4) s = execNpxReadRequest x0 x1 x2 x3 x4 s := rfl
theorem exec_npxWriteRequest (x0 : BitVec 8) (x1 : Bool) (x2 : BitVec 28) (x3 : BitVec 6) (x4 : BitVec 4) (x5 : List NpxBeat) : exec (.npxWriteRequest x0 x1 x2 x3 x4 x5) s = execNpxWriteRequest x0 x1 x2 x3 x4 x5 s := rfl
theorem exec_arbiterGrant (x0 : Nat) (x1 : List Upset) : exec (.arbiterGrant x0 x1) s = execArbiterGrant x0 x1 s := rfl
theorem exec_smemReadData (x0 : Nat) : exec (.smemReadData x0) s = execSmemReadData x0 s := rfl
theorem exec_scratchGrant (x0 : Nat × List Upset) : exec (.scratchGrant x0) s = execScratchGrant x0 s := rfl
theorem exec_scrubAccess (x0 : List Upset) : exec (.scrubAccess x0) s = execScrubAccess x0 s := rfl
theorem exec_smemInit (x0 : Agent) : exec (.smemInit x0) s = execSmemInit x0 s := rfl
theorem exec_initDone : exec (.initDone) s = execInitDone s := rfl
theorem exec_smemCeCntRead (x0 : Agent) : exec (.smemCeCntRead x0) s = execSmemCeCntRead x0 s := rfl
theorem exec_bmpTrain (x0 : Nat) : exec (.bmpTrain x0) s = execBmpTrain x0 s := rfl
theorem exec_bmpTrainReport (x0 : Nat) (x1 : Bool) (x2 : BitVec 16) (x3 : BitVec 8) (x4 : BitVec 8) (x5 : BitVec 8) : exec (.bmpTrainReport x0 x1 x2 x3 x4 x5) s = execBmpTrainReport x0 x1 x2 x3 x4 x5 s := rfl
theorem exec_bmpTrainTimeout (x0 : Nat) : exec (.bmpTrainTimeout x0) s = execBmpTrainTimeout x0 s := rfl
theorem exec_bmpReadBeat (x0 : Nat) (x1 : BitVec 6) (x2 : BitVec 1024) (x3 : BitVec 2) : exec (.bmpReadBeat x0 x1 x2 x3) s = execBmpReadBeat x0 x1 x2 x3 s := rfl
theorem exec_bmpIlvWrite (x0 : Reg) : exec (.bmpIlvWrite x0) s = execBmpIlvWrite x0 s := rfl
theorem exec_bmpCpyGo (x0 : Nat) (x1 : Reg) : exec (.bmpCpyGo x0 x1) s = execBmpCpyGo x0 x1 s := rfl
theorem exec_bmpCpyGranuleDone (x0 : Nat) (x1 : BitVec 128) (x2 : BitVec 2) (x3 : List Upset) : exec (.bmpCpyGranuleDone x0 x1 x2 x3) s = execBmpCpyGranuleDone x0 x1 x2 x3 s := rfl
theorem exec_bmpCpyAbort (x0 : Nat) : exec (.bmpCpyAbort x0) s = execBmpCpyAbort x0 s := rfl
theorem exec_tickInstant : exec (.tickInstant) s = execTickInstant s := rfl
theorem exec_flipRelease : exec (.flipRelease) s = execFlipRelease s := rfl
theorem exec_quiesceMarginStart : exec (.quiesceMarginStart) s = execQuiesceMarginStart s := rfl
theorem exec_allocHoldRelease : exec (.allocHoldRelease) s = execAllocHoldRelease s := rfl
theorem exec_gcmdAdmit (x0 : BitVec 6) : exec (.gcmdAdmit x0) s = execGcmdAdmit x0 s := rfl
theorem exec_gcmdDone (x0 : BitVec 6) : exec (.gcmdDone x0) s = execGcmdDone x0 s := rfl
theorem exec_gcmdDiscard (x0 : BitVec 6) : exec (.gcmdDiscard x0) s = execGcmdDiscard x0 s := rfl
theorem exec_gcmdNone : exec (.gcmdNone) s = execGcmdNone s := rfl
theorem exec_sweepDone (x0 : BitVec 6) : exec (.sweepDone x0) s = execSweepDone x0 s := rfl
theorem exec_leaseTake (x0 : Nat) (x1 : BitVec 6) : exec (.leaseTake x0 x1) s = execLeaseTake x0 x1 s := rfl
theorem exec_leaseRelease (x0 : Nat) : exec (.leaseRelease x0) s = execLeaseRelease x0 s := rfl
theorem exec_freezeRequest : exec (.freezeRequest) s = execFreezeRequest s := rfl
theorem exec_poolCnt0Read (x0 : Agent) : exec (.poolCnt0Read x0) s = execPoolCnt0Read x0 s := rfl
theorem exec_allocAccept (x0 : CoreId) (x1 : List Upset) : exec (.allocAccept x0 x1) s = execAllocAccept x0 x1 s := rfl
theorem exec_allocGrant : exec (.allocGrant) s = execAllocGrant s := rfl
theorem exec_streamElementIssue (x0 : Nat) (x1 : Nat) (x2 : Nat) : exec (.streamElementIssue x0 x1 x2) s = execStreamElementIssue x0 x1 x2 s := rfl
theorem exec_runEnd (x0 : Nat) : exec (.runEnd x0) s = execRunEnd x0 s := rfl
theorem exec_podAbort (x0 : Nat) : exec (.podAbort x0) s = execPodAbort x0 s := rfl
theorem exec_allocWaitRead (x0 : Agent) : exec (.allocWaitRead x0) s = execAllocWaitRead x0 s := rfl
theorem exec_lit (x0 : CoreId) (x1 : BitVec 12) : exec (.lit x0 x1) s = execLit x0 x1 s := rfl
theorem exec_br (x0 : CoreId) (x1 : BitVec 10) : exec (.br x0 x1) s = execBr x0 x1 s := rfl
theorem exec_bz (x0 : CoreId) (x1 : BitVec 10) : exec (.bz x0 x1) s = execBz x0 x1 s := rfl
theorem exec_bnz (x0 : CoreId) (x1 : BitVec 10) : exec (.bnz x0 x1) s = execBnz x0 x1 s := rfl
theorem exec_call (x0 : CoreId) (x1 : BitVec 10) : exec (.call x0 x1) s = execCall x0 x1 s := rfl
theorem exec_ld (x0 : CoreId) (x1 : BitVec 3) (x2 : BitVec 6) : exec (.ld x0 x1 x2) s = execLd x0 x1 x2 s := rfl
theorem exec_st (x0 : CoreId) (x1 : BitVec 3) (x2 : BitVec 6) : exec (.st x0 x1 x2) s = execSt x0 x1 x2 s := rfl
theorem exec_ld2 (x0 : CoreId) (x1 : BitVec 3) (x2 : BitVec 6) : exec (.ld2 x0 x1 x2) s = execLd2 x0 x1 x2 s := rfl
theorem exec_st2 (x0 : CoreId) (x1 : BitVec 3) (x2 : BitVec 6) : exec (.st2 x0 x1 x2) s = execSt2 x0 x1 x2 s := rfl
theorem exec_ldx (x0 : CoreId) (x1 : BitVec 3) (x2 : BitVec 6) : exec (.ldx x0 x1 x2) s = execLdx x0 x1 x2 s := rfl
theorem exec_stx (x0 : CoreId) (x1 : BitVec 3) (x2 : BitVec 6) : exec (.stx x0 x1 x2) s = execStx x0 x1 x2 s := rfl
theorem exec_ld2x (x0 : CoreId) (x1 : BitVec 3) (x2 : BitVec 6) : exec (.ld2x x0 x1 x2) s = execLd2x x0 x1 x2 s := rfl
theorem exec_st2x (x0 : CoreId) (x1 : BitVec 3) (x2 : BitVec 6) : exec (.st2x x0 x1 x2) s = execSt2x x0 x1 x2 s := rfl
theorem exec_nop (x0 : CoreId) : exec (.nop x0) s = execNop x0 s := rfl
theorem exec_dup (x0 : CoreId) : exec (.dup x0) s = execDup x0 s := rfl
theorem exec_drop (x0 : CoreId) : exec (.drop x0) s = execDrop x0 s := rfl
theorem exec_swap (x0 : CoreId) : exec (.swap x0) s = execSwap x0 s := rfl
theorem exec_overOp (x0 : CoreId) : exec (.overOp x0) s = execOver x0 s := rfl
theorem exec_rot (x0 : CoreId) : exec (.rot x0) s = execRot x0 s := rfl
theorem exec_nip (x0 : CoreId) : exec (.nip x0) s = execNip x0 s := rfl
theorem exec_tuck (x0 : CoreId) : exec (.tuck x0) s = execTuck x0 s := rfl
theorem exec_twoDup (x0 : CoreId) : exec (.twoDup x0) s = execTwoDup x0 s := rfl
theorem exec_twoDrop (x0 : CoreId) : exec (.twoDrop x0) s = execTwoDrop x0 s := rfl
theorem exec_twoSwap (x0 : CoreId) : exec (.twoSwap x0) s = execTwoSwap x0 s := rfl
theorem exec_twoOver (x0 : CoreId) : exec (.twoOver x0) s = execTwoOver x0 s := rfl
theorem exec_minusRot (x0 : CoreId) : exec (.minusRot x0) s = execMinusRot x0 s := rfl
theorem exec_pick (x0 : CoreId) (x1 : BitVec 3) : exec (.pick x0 x1) s = execPick x0 x1 s := rfl
theorem exec_add (x0 : CoreId) : exec (.add x0) s = execAdd x0 s := rfl
theorem exec_adc (x0 : CoreId) : exec (.adc x0) s = execAdc x0 s := rfl
theorem exec_sub (x0 : CoreId) : exec (.sub x0) s = execSub x0 s := rfl
theorem exec_sbc (x0 : CoreId) : exec (.sbc x0) s = execSbc x0 s := rfl
theorem exec_neg (x0 : CoreId) : exec (.neg x0) s = execNeg x0 s := rfl
theorem exec_inc (x0 : CoreId) : exec (.inc x0) s = execInc x0 s := rfl
theorem exec_dec (x0 : CoreId) : exec (.dec x0) s = execDec x0 s := rfl
theorem exec_and (x0 : CoreId) : exec (.and x0) s = execAnd x0 s := rfl
theorem exec_or (x0 : CoreId) : exec (.or x0) s = execOr x0 s := rfl
theorem exec_xor (x0 : CoreId) : exec (.xor x0) s = execXor x0 s := rfl
theorem exec_not (x0 : CoreId) : exec (.not x0) s = execNot x0 s := rfl
theorem exec_shl (x0 : CoreId) : exec (.shl x0) s = execShl x0 s := rfl
theorem exec_shr (x0 : CoreId) : exec (.shr x0) s = execShr x0 s := rfl
theorem exec_sra (x0 : CoreId) : exec (.sra x0) s = execSra x0 s := rfl
theorem exec_rol (x0 : CoreId) : exec (.rol x0) s = execRol x0 s := rfl
theorem exec_shli (x0 : CoreId) (x1 : BitVec 4) : exec (.shli x0 x1) s = execShli x0 x1 s := rfl
theorem exec_shri (x0 : CoreId) (x1 : BitVec 4) : exec (.shri x0 x1) s = execShri x0 x1 s := rfl
theorem exec_srai (x0 : CoreId) (x1 : BitVec 4) : exec (.srai x0 x1) s = execSrai x0 x1 s := rfl
theorem exec_min (x0 : CoreId) : exec (.min x0) s = execMin x0 s := rfl
theorem exec_max (x0 : CoreId) : exec (.max x0) s = execMax x0 s := rfl
theorem exec_umin (x0 : CoreId) : exec (.umin x0) s = execUmin x0 s := rfl
theorem exec_umax (x0 : CoreId) : exec (.umax x0) s = execUmax x0 s := rfl
theorem exec_abs (x0 : CoreId) : exec (.abs x0) s = execAbs x0 s := rfl
theorem exec_sext8 (x0 : CoreId) : exec (.sext8 x0) s = execSext8 x0 s := rfl
theorem exec_zext8 (x0 : CoreId) : exec (.zext8 x0) s = execZext8 x0 s := rfl
theorem exec_popc (x0 : CoreId) : exec (.popc x0) s = execPopc x0 s := rfl
theorem exec_clz (x0 : CoreId) : exec (.clz x0) s = execClz x0 s := rfl
theorem exec_mul (x0 : CoreId) : exec (.mul x0) s = execMul x0 s := rfl
theorem exec_mulu (x0 : CoreId) : exec (.mulu x0) s = execMulu x0 s := rfl
theorem exec_mull (x0 : CoreId) : exec (.mull x0) s = execMull x0 s := rfl
theorem exec_div (x0 : CoreId) : exec (.div x0) s = execDiv x0 s := rfl
theorem exec_divu (x0 : CoreId) : exec (.divu x0) s = execDivu x0 s := rfl
theorem exec_div2u (x0 : CoreId) : exec (.div2u x0) s = execDiv2u x0 s := rfl
theorem exec_add2 (x0 : CoreId) : exec (.add2 x0) s = execAdd2 x0 s := rfl
theorem exec_sub2 (x0 : CoreId) : exec (.sub2 x0) s = execSub2 x0 s := rfl
theorem exec_neg2 (x0 : CoreId) : exec (.neg2 x0) s = execNeg2 x0 s := rfl
theorem exec_eq (x0 : CoreId) : exec (.eq x0) s = execEq x0 s := rfl
theorem exec_ne (x0 : CoreId) : exec (.ne x0) s = execNe x0 s := rfl
theorem exec_lt (x0 : CoreId) : exec (.lt x0) s = execLt x0 s := rfl
theorem exec_le (x0 : CoreId) : exec (.le x0) s = execLe x0 s := rfl
theorem exec_gt (x0 : CoreId) : exec (.gt x0) s = execGt x0 s := rfl
theorem exec_ge (x0 : CoreId) : exec (.ge x0) s = execGe x0 s := rfl
theorem exec_ult (x0 : CoreId) : exec (.ult x0) s = execUlt x0 s := rfl
theorem exec_ule (x0 : CoreId) : exec (.ule x0) s = execUle x0 s := rfl
theorem exec_ugt (x0 : CoreId) : exec (.ugt x0) s = execUgt x0 s := rfl
theorem exec_uge (x0 : CoreId) : exec (.uge x0) s = execUge x0 s := rfl
theorem exec_zeroEq (x0 : CoreId) : exec (.zeroEq x0) s = execZeroEq x0 s := rfl
theorem exec_zeroLt (x0 : CoreId) : exec (.zeroLt x0) s = execZeroLt x0 s := rfl
theorem exec_sel (x0 : CoreId) : exec (.sel x0) s = execSel x0 s := rfl
theorem exec_ret (x0 : CoreId) : exec (.ret x0) s = execRet x0 s := rfl
theorem exec_toR (x0 : CoreId) : exec (.toR x0) s = execToR x0 s := rfl
theorem exec_rFrom (x0 : CoreId) : exec (.rFrom x0) s = execRFrom x0 s := rfl
theorem exec_rFetch (x0 : CoreId) : exec (.rFetch x0) s = execRFetch x0 s := rfl
theorem exec_jmps (x0 : CoreId) : exec (.jmps x0) s = execJmps x0 s := rfl
theorem exec_calls (x0 : CoreId) : exec (.calls x0) s = execCalls x0 s := rfl
theorem exec_reti (x0 : CoreId) : exec (.reti x0) s = execReti x0 s := rfl
theorem exec_rett (x0 : CoreId) : exec (.rett x0) s = execRett x0 s := rfl
theorem exec_wait (x0 : CoreId) : exec (.wait x0) s = execWait x0 s := rfl
theorem exec_synci (x0 : CoreId) : exec (.synci x0) s = execSynci x0 s := rfl
theorem exec_niwo (x0 : CoreId) : exec (.niwo x0) s = execNiwo x0 s := rfl
theorem exec_niwc (x0 : CoreId) : exec (.niwc x0) s = execNiwc x0 s := rfl
theorem exec_fence (x0 : CoreId) : exec (.fence x0) s = execFence x0 s := rfl
theorem exec_loop (x0 : CoreId) (x1 : BitVec 8) : exec (.loop x0 x1) s = execLoop x0 x1 s := rfl
theorem exec_rep (x0 : CoreId) : exec (.rep x0) s = execRep x0 s := rfl
theorem exec_repi (x0 : CoreId) (x1 : BitVec 6) : exec (.repi x0 x1) s = execRepi x0 x1 s := rfl
theorem exec_flFetch (x0 : CoreId) : exec (.flFetch x0) s = execFlFetch x0 s := rfl
theorem exec_flStore (x0 : CoreId) : exec (.flStore x0) s = execFlStore x0 s := rfl
theorem exec_lcFetch (x0 : CoreId) : exec (.lcFetch x0) s = execLcFetch x0 s := rfl
theorem exec_lcStore (x0 : CoreId) : exec (.lcStore x0) s = execLcStore x0 s := rfl
theorem exec_lsFetch (x0 : CoreId) : exec (.lsFetch x0) s = execLsFetch x0 s := rfl
theorem exec_lsStore (x0 : CoreId) : exec (.lsStore x0) s = execLsStore x0 s := rfl
theorem exec_leFetch (x0 : CoreId) : exec (.leFetch x0) s = execLeFetch x0 s := rfl
theorem exec_leStore (x0 : CoreId) : exec (.leStore x0) s = execLeStore x0 s := rfl
theorem exec_rcFetch (x0 : CoreId) : exec (.rcFetch x0) s = execRcFetch x0 s := rfl
theorem exec_depth (x0 : CoreId) : exec (.depth x0) s = execDepth x0 s := rfl
theorem exec_rdepth (x0 : CoreId) : exec (.rdepth x0) s = execRdepth x0 s := rfl
theorem exec_lpush (x0 : CoreId) : exec (.lpush x0) s = execLpush x0 s := rfl
theorem exec_lpop (x0 : CoreId) : exec (.lpop x0) s = execLpop x0 s := rfl
theorem exec_leave (x0 : CoreId) : exec (.leave x0) s = execLeave x0 s := rfl
theorem exec_ctxid (x0 : CoreId) : exec (.ctxid x0) s = execCtxid x0 s := rfl
theorem exec_ldp (x0 : CoreId) (x1 : BitVec 3) : exec (.ldp x0 x1) s = execLdp x0 x1 s := rfl
theorem exec_stp (x0 : CoreId) (x1 : BitVec 3) : exec (.stp x0 x1) s = execStp x0 x1 s := rfl
theorem exec_ld2p (x0 : CoreId) (x1 : BitVec 3) : exec (.ld2p x0 x1) s = execLd2p x0 x1 s := rfl
theorem exec_st2p (x0 : CoreId) (x1 : BitVec 3) : exec (.st2p x0 x1) s = execSt2p x0 x1 s := rfl
theorem exec_tas (x0 : CoreId) (x1 : BitVec 3) : exec (.tas x0 x1) s = execTas x0 x1 s := rfl
theorem exec_lr (x0 : CoreId) (x1 : BitVec 3) : exec (.lr x0 x1) s = execLr x0 x1 s := rfl
theorem exec_sc (x0 : CoreId) (x1 : BitVec 3) : exec (.sc x0 x1) s = execSc x0 x1 s := rfl
theorem exec_ldmStep (x0 : CoreId) (x1 : BitVec 3) : exec (.ldmStep x0 x1) s = execLdmStep x0 x1 s := rfl
theorem exec_stmStep (x0 : CoreId) (x1 : BitVec 3) : exec (.stmStep x0 x1) s = execStmStep x0 x1 s := rfl
theorem exec_cmov (x0 : CoreId) (x1 : BitVec 3) (x2 : BitVec 3) : exec (.cmov x0 x1 x2) s = execCmov x0 x1 x2 s := rfl
theorem exec_cderive (x0 : CoreId) (x1 : BitVec 3) (x2 : BitVec 3) : exec (.cderive x0 x1 x2) s = execCderive x0 x1 x2 s := rfl
theorem exec_cseal (x0 : CoreId) (x1 : BitVec 3) (x2 : BitVec 3) : exec (.cseal x0 x1 x2) s = execCseal x0 x1 x2 s := rfl
theorem exec_cunseal (x0 : CoreId) (x1 : BitVec 3) (x2 : BitVec 3) : exec (.cunseal x0 x1 x2) s = execCunseal x0 x1 x2 s := rfl
theorem exec_cbase (x0 : CoreId) (x1 : BitVec 3) : exec (.cbase x0 x1) s = execCbase x0 x1 s := rfl
theorem exec_clen (x0 : CoreId) (x1 : BitVec 3) : exec (.clen x0 x1) s = execClen x0 x1 s := rfl
theorem exec_cperm (x0 : CoreId) (x1 : BitVec 3) : exec (.cperm x0 x1) s = execCperm x0 x1 s := rfl
theorem exec_cattr (x0 : CoreId) (x1 : BitVec 3) : exec (.cattr x0 x1) s = execCattr x0 x1 s := rfl
theorem exec_cowner (x0 : CoreId) (x1 : BitVec 3) : exec (.cowner x0 x1) s = execCowner x0 x1 s := rfl
theorem exec_ctag (x0 : CoreId) (x1 : BitVec 3) : exec (.ctag x0 x1) s = execCtag x0 x1 s := rfl
theorem exec_cclr (x0 : CoreId) (x1 : BitVec 3) : exec (.cclr x0 x1) s = execCclr x0 x1 s := rfl
theorem exec_cprior (x0 : CoreId) (x1 : BitVec 3) : exec (.cprior x0 x1) s = execCprior x0 x1 s := rfl
theorem exec_cskey (x0 : CoreId) (x1 : BitVec 3) : exec (.cskey x0 x1) s = execCskey x0 x1 s := rfl
theorem exec_cldc (x0 : CoreId) (x1 : BitVec 3) (x2 : BitVec 3) : exec (.cldc x0 x1 x2) s = execCldc x0 x1 x2 s := rfl
theorem exec_cstc (x0 : CoreId) (x1 : BitVec 3) (x2 : BitVec 3) : exec (.cstc x0 x1 x2) s = execCstc x0 x1 x2 s := rfl
theorem exec_sev (x0 : CoreId) (x1 : BitVec 6) : exec (.sev x0 x1) s = execSev x0 x1 s := rfl
theorem exec_lith (x0 : CoreId) (x1 : BitVec 8) : exec (.lith x0 x1) s = execLith x0 x1 s := rfl
theorem exec_trap (x0 : CoreId) (x1 : BitVec 8) (x2 : List Upset) : exec (.trap x0 x1 x2) s = execTrap x0 x1 x2 s := rfl
theorem exec_vissue (x0 : CoreId) (x1 : BitVec 3) : exec (.vissue x0 x1) s = execVissue x0 x1 s := rfl
theorem exec_vwait (x0 : CoreId) : exec (.vwait x0) s = execVwait x0 s := rfl
theorem exec_vresume (x0 : CoreId) : exec (.vresume x0) s = execVresume x0 s := rfl
theorem exec_vtest (x0 : CoreId) : exec (.vtest x0) s = execVtest x0 s := rfl
theorem exec_vprFetch (x0 : CoreId) : exec (.vprFetch x0) s = execVprFetch x0 s := rfl
theorem exec_vprStore (x0 : CoreId) : exec (.vprStore x0) s = execVprStore x0 s := rfl
theorem exec_undefinedWord (x0 : CoreId) (x1 : BitVec 14) : exec (.undefinedWord x0 x1) s = execUndefinedWord x0 x1 s := rfl
theorem exec_spillTrap (x0 : CoreId) (x1 : List Upset) : exec (.spillTrap x0 x1) s = execSpillTrap x0 x1 s := rfl
theorem exec_fillTrap (x0 : CoreId) (x1 : List Upset) : exec (.fillTrap x0 x1) s = execFillTrap x0 x1 s := rfl
theorem exec_interruptRecognise (x0 : CoreId) : exec (.interruptRecognise x0) s = execInterruptRecognise x0 s := rfl
theorem exec_faultEntry (x0 : CoreId) : exec (.faultEntry x0) s = execFaultEntry x0 s := rfl
theorem exec_niwExpiry (x0 : CoreId) : exec (.niwExpiry x0) s = execNiwExpiry x0 s := rfl
theorem exec_budgetExhausted (x0 : CoreId) : exec (.budgetExhausted x0) s = execBudgetExhausted x0 s := rfl
theorem exec_quantumExpiry (x0 : CoreId) : exec (.quantumExpiry x0) s = execQuantumExpiry x0 s := rfl
theorem exec_contextDispatch (x0 : CoreId) : exec (.contextDispatch x0) s = execContextDispatch x0 s := rfl
theorem exec_contextEvict (x0 : CoreId) (x1 : BitVec 9) : exec (.contextEvict x0 x1) s = execContextEvict x0 x1 s := rfl
theorem exec_contextLoad (x0 : CoreId) (x1 : BitVec 9) : exec (.contextLoad x0 x1) s = execContextLoad x0 x1 s := rfl
theorem exec_ctxLoad (x0 : Nat) (x1 : BitVec 9) : exec (.ctxLoad x0 x1) s = execCtxLoad x0 x1 s := rfl
theorem exec_ctxWake (x0 : Nat) (x1 : BitVec 9) : exec (.ctxWake x0 x1) s = execCtxWake x0 x1 s := rfl
theorem exec_ctxPark (x0 : Nat) (x1 : BitVec 9) : exec (.ctxPark x0 x1) s = execCtxPark x0 x1 s := rfl
theorem exec_ctxFree (x0 : Nat) (x1 : BitVec 9) : exec (.ctxFree x0 x1) s = execCtxFree x0 x1 s := rfl
theorem exec_ctxSetbud (x0 : Nat) (x1 : BitVec 9) : exec (.ctxSetbud x0 x1) s = execCtxSetbud x0 x1 s := rfl
theorem exec_ctxCmdNone (x0 : Nat) (x1 : BitVec 9) : exec (.ctxCmdNone x0 x1) s = execCtxCmdNone x0 x1 s := rfl
theorem exec_ctxDataWrite (x0 : Nat) (x1 : Reg) : exec (.ctxDataWrite x0 x1) s = execCtxDataWrite x0 x1 s := rfl
theorem exec_svwDataWrite (x0 : CoreId) (x1 : Reg) : exec (.svwDataWrite x0 x1) s = execSvwDataWrite x0 x1 s := rfl
theorem exec_mint (x0 : Agent) : exec (.mint x0) s = execMint x0 s := rfl
theorem exec_mintCopy (x0 : Agent) (x1 : BitVec 3) : exec (.mintCopy x0 x1) s = execMintCopy x0 x1 s := rfl
theorem exec_mintDone : exec (.mintDone) s = execMintDone s := rfl
theorem exec_splitEnApply (x0 : CoreId) : exec (.splitEnApply x0) s = execSplitEnApply x0 s := rfl
theorem exec_detSwitch (x0 : CoreId) : exec (.detSwitch x0) s = execDetSwitch x0 s := rfl
theorem exec_lineRequest (x0 : CoreId) (x1 : BitVec 18) : exec (.lineRequest x0 x1) s = execLineRequest x0 x1 s := rfl
theorem exec_lineDelivered (x0 : CoreId) (x1 : BitVec 252) (x2 : BitVec 4) (x3 : Bool) : exec (.lineDelivered x0 x1 x2 x3) s = execLineDelivered x0 x1 x2 x3 s := rfl
theorem exec_codeLineWrite (x0 : Agent) : exec (.codeLineWrite x0) s = execCodeLineWrite x0 s := rfl
theorem exec_codeWriteDone (x0 : Bool) : exec (.codeWriteDone x0) s = execCodeWriteDone x0 s := rfl
theorem exec_lcInvalidate (x0 : Agent) : exec (.lcInvalidate x0) s = execLcInvalidate x0 s := rfl
theorem exec_seqDetRead (x0 : Agent) (x1 : CoreId) (x2 : Bool) : exec (.seqDetRead x0 x1 x2) s = execSeqDetRead x0 x1 x2 s := rfl
theorem exec_seqExcCntRead (x0 : Agent) (x1 : CoreId) : exec (.seqExcCntRead x0 x1) s = execSeqExcCntRead x0 x1 s := rfl
theorem exec_hifEnable : exec (.hifEnable) s = execHifEnable s := rfl
theorem exec_ringEnable (x0 : Nat) (x1 : Reg) : exec (.ringEnable x0 x1) s = execRingEnable x0 x1 s := rfl
theorem exec_ringDisable (x0 : Nat) : exec (.ringDisable x0) s = execRingDisable x0 s := rfl
theorem exec_doorbellSqtail (x0 : Nat) (x1 : Reg) : exec (.doorbellSqtail x0 x1) s = execDoorbellSqtail x0 x1 s := rfl
theorem exec_doorbellCqhead (x0 : Nat) (x1 : Reg) : exec (.doorbellCqhead x0 x1) s = execDoorbellCqhead x0 x1 s := rfl
theorem exec_inlineDoorbell (x0 : Nat) (x1 : NpxBeat) : exec (.inlineDoorbell x0 x1) s = execInlineDoorbell x0 x1 s := rfl
theorem exec_descriptorFetch : exec (.descriptorFetch) s = execDescriptorFetch s := rfl
theorem exec_descriptorReadDone (x0 : Nat) (x1 : List RdBeat) (x2 : List Upset) : exec (.descriptorReadDone x0 x1 x2) s = execDescriptorReadDone x0 x1 x2 s := rfl
theorem exec_postRecord (x0 : Reg) : exec (.postRecord x0) s = execPostRecord x0 s := rfl
theorem exec_completionRecordWrite (x0 : Nat) : exec (.completionRecordWrite x0) s = execCompletionRecordWrite x0 s := rfl
theorem exec_recordWriteResponse (x0 : Nat) (x1 : BitVec 2) : exec (.recordWriteResponse x0 x1) s = execRecordWriteResponse x0 x1 s := rfl
theorem exec_broadcastWrite (x0 : Agent) (x1 : BitVec 22) (x2 : Reg) : exec (.broadcastWrite x0 x1 x2) s = execBroadcastWrite x0 x1 x2 s := rfl
theorem exec_wrFrame (x0 : Nat) (x1 : Frame) (x2 : List Upset) : exec (.wrFrame x0 x1 x2) s = execWrFrame x0 x1 x2 s := rfl
theorem exec_rdFrame (x0 : Nat) (x1 : Frame) (x2 : List Upset) : exec (.rdFrame x0 x1 x2) s = execRdFrame x0 x1 x2 s := rfl
theorem exec_wrackFrame (x0 : Nat) (x1 : Frame) : exec (.wrackFrame x0 x1) s = execWrackFrame x0 x1 s := rfl
theorem exec_rdrFrame (x0 : Nat) (x1 : Frame) (x2 : List Upset) : exec (.rdrFrame x0 x1 x2) s = execRdrFrame x0 x1 x2 s := rfl
theorem exec_frameForward (x0 : Nat) (x1 : Frame) : exec (.frameForward x0 x1) s = execFrameForward x0 x1 s := rfl
theorem exec_frameSend (x0 : Nat) (x1 : BitVec 2) : exec (.frameSend x0 x1) s = execFrameSend x0 x1 s := rfl
theorem exec_linkFrame (x0 : Nat) (x1 : Frame) : exec (.linkFrame x0 x1) s = execLinkFrame x0 x1 s := rfl
theorem exec_capxFrame (x0 : Nat) (x1 : Frame) : exec (.capxFrame x0 x1) s = execCapxFrame x0 x1 s := rfl
theorem exec_discFrame (x0 : Nat) (x1 : Frame) : exec (.discFrame x0 x1) s = execDiscFrame x0 x1 s := rfl
theorem exec_joinFrame (x0 : Nat) (x1 : Frame) : exec (.joinFrame x0 x1) s = execJoinFrame x0 x1 s := rfl
theorem exec_assignFrame (x0 : Nat) (x1 : Frame) : exec (.assignFrame x0 x1) s = execAssignFrame x0 x1 s := rfl
theorem exec_tsyncFrame (x0 : Nat) (x1 : Frame) : exec (.tsyncFrame x0 x1) s = execTsyncFrame x0 x1 s := rfl
theorem exec_tsyncExchange (x0 : Nat) : exec (.tsyncExchange x0) s = execTsyncExchange x0 s := rfl
theorem exec_slewCorrection : exec (.slewCorrection) s = execSlewCorrection s := rfl
theorem exec_discoveryStart : exec (.discoveryStart) s = execDiscoveryStart s := rfl
theorem exec_discSend : exec (.discSend) s = execDiscSend s := rfl
theorem exec_joinSend : exec (.joinSend) s = execJoinSend s := rfl
theorem exec_monarchAssign : exec (.monarchAssign) s = execMonarchAssign s := rfl
theorem exec_linkDown (x0 : Nat × Option (BitVec 3)) : exec (.linkDown x0) s = execLinkDown x0 s := rfl
theorem exec_linkTrainStart (x0 : Nat) : exec (.linkTrainStart x0) s = execLinkTrainStart x0 s := rfl
theorem exec_linkTrained (x0 : Nat) (x1 : BitVec 5) : exec (.linkTrained x0 x1) s = execLinkTrained x0 x1 s := rfl
theorem exec_linkRetrain (x0 : Nat) : exec (.linkRetrain x0) s = execLinkRetrain x0 s := rfl
theorem exec_linkAuthTimeout (x0 : Nat) : exec (.linkAuthTimeout x0) s = execLinkAuthTimeout x0 s := rfl
theorem exec_laneMarginLow (x0 : Nat) (x1 : BitVec 3) (x2 : BitVec 8) : exec (.laneMarginLow x0 x1 x2) s = execLaneMarginLow x0 x1 x2 s := rfl
theorem exec_txGo (x0 : Nat) (x1 : Reg) : exec (.txGo x0 x1) s = execTxGo x0 x1 s := rfl
theorem exec_txFrameIssue (x0 : Nat) (x1 : List Upset) : exec (.txFrameIssue x0 x1) s = execTxFrameIssue x0 x1 s := rfl
theorem exec_txFrameTimeout (x0 : Nat) (x1 : BitVec 8) : exec (.txFrameTimeout x0 x1) s = execTxFrameTimeout x0 x1 s := rfl
theorem exec_txAbort (x0 : Nat) : exec (.txAbort x0) s = execTxAbort x0 s := rfl
theorem exec_linkCntRead (x0 : Agent) (x1 : Nat) : exec (.linkCntRead x0 x1) s = execLinkCntRead x0 x1 s := rfl
theorem exec_eventPending (x0 : Nat) : exec (.eventPending x0) s = execEventPending x0 s := rfl
theorem exec_moderationTimeout (x0 : Nat) : exec (.moderationTimeout x0) s = execModerationTimeout x0 s := rfl
theorem exec_evcClaim (x0 : Agent) (x1 : Nat) : exec (.evcClaim x0 x1) s = execEvcClaim x0 x1 s := rfl
theorem exec_evcDone (x0 : Agent) (x1 : Nat) (x2 : BitVec 3) : exec (.evcDone x0 x1 x2) s = execEvcDone x0 x1 x2 s := rfl
theorem exec_evcPush (x0 : Agent) (x1 : Nat) (x2 : BitVec 3) : exec (.evcPush x0 x1 x2) s = execEvcPush x0 x1 x2 s := rfl
theorem exec_evcSrcClear : exec (.evcSrcClear) s = execEvcSrcClear s := rfl
theorem exec_evcSwev (x0 : BitVec 9) : exec (.evcSwev x0) s = execEvcSwev x0 s := rfl
theorem exec_mothWake (x0 : BitVec 5) : exec (.mothWake x0) s = execMothWake x0 s := rfl
theorem exec_mclkStable : exec (.mclkStable) s = execMclkStable s := rfl
theorem exec_mgmtWrite (x0 : Reg) : exec (.mgmtWrite x0) s = execMgmtWrite x0 s := rfl
theorem exec_tbLoad : exec (.tbLoad) s = execTbLoad s := rfl
theorem exec_compareMatch (x0 : Nat) : exec (.compareMatch x0) s = execCompareMatch x0 s := rfl
theorem exec_cmpStage (x0 : Nat) (x1 : Reg) : exec (.cmpStage x0 x1) s = execCmpStage x0 x1 s := rfl
theorem exec_cmpCommit (x0 : Nat) (x1 : Reg) : exec (.cmpCommit x0 x1) s = execCmpCommit x0 x1 s := rfl
theorem exec_cmpEnable (x0 : Nat) (x1 : Reg) : exec (.cmpEnable x0 x1) s = execCmpEnable x0 x1 s := rfl
theorem exec_cmpStatRead (x0 : Agent) (x1 : Nat) : exec (.cmpStatRead x0 x1) s = execCmpStatRead x0 x1 s := rfl
theorem exec_groupLoad (x0 : Reg) : exec (.groupLoad x0) s = execGroupLoad x0 s := rfl
theorem exec_captureEdge (x0 : Nat) (x1 : Bool) : exec (.captureEdge x0 x1) s = execCaptureEdge x0 x1 s := rfl
theorem exec_capRiseRead (x0 : Agent) (x1 : Nat) : exec (.capRiseRead x0 x1) s = execCapRiseRead x0 x1 s := rfl
theorem exec_capFallRead (x0 : Agent) (x1 : Nat) : exec (.capFallRead x0 x1) s = execCapFallRead x0 x1 s := rfl
theorem exec_capWidthRead (x0 : Agent) (x1 : Nat) : exec (.capWidthRead x0 x1) s = execCapWidthRead x0 x1 s := rfl
theorem exec_tickArm : exec (.tickArm) s = execTickArm s := rfl
theorem exec_tickPeriodWrite (x0 : Reg) : exec (.tickPeriodWrite x0) s = execTickPeriodWrite x0 s := rfl
theorem exec_tickStatRead (x0 : Agent) : exec (.tickStatRead x0) s = execTickStatRead x0 s := rfl
theorem exec_wdgWarn : exec (.wdgWarn) s = execWdgWarn s := rfl
theorem exec_wdgExpire : exec (.wdgExpire) s = execWdgExpire s := rfl
theorem exec_wdgService (x0 : BitVec 32) : exec (.wdgService x0) s = execWdgService x0 s := rfl
theorem exec_wdgLock (x0 : Reg) : exec (.wdgLock x0) s = execWdgLock x0 s := rfl
theorem exec_pmuCntRead (x0 : Agent) (x1 : Nat) : exec (.pmuCntRead x0 x1) s = execPmuCntRead x0 x1 s := rfl
theorem exec_pmuSnapshot : exec (.pmuSnapshot) s = execPmuSnapshot s := rfl
theorem exec_pmuClear : exec (.pmuClear) s = execPmuClear s := rfl
theorem exec_ringletEnable (x0 : Reg) : exec (.ringletEnable x0) s = execRingletEnable x0 s := rfl
theorem exec_ringletWrite : exec (.ringletWrite) s = execRingletWrite s := rfl
theorem exec_ringletWriteDone (x0 : Bool) : exec (.ringletWriteDone x0) s = execRingletWriteDone x0 s := rfl
theorem exec_pmuRlCntRead (x0 : Agent) : exec (.pmuRlCntRead x0) s = execPmuRlCntRead x0 s := rfl
theorem exec_bwWindowEnd : exec (.bwWindowEnd) s = execBwWindowEnd s := rfl
theorem exec_pmuBwMaxRead (x0 : Agent) (x1 : Nat) : exec (.pmuBwMaxRead x0 x1) s = execPmuBwMaxRead x0 x1 s := rfl
theorem exec_tapIrUpdate (x0 : BitVec 5) : exec (.tapIrUpdate x0) s = execTapIrUpdate x0 s := rfl
theorem exec_dbgregRead (x0 : BitVec 14) : exec (.dbgregRead x0) s = execDbgregRead x0 s := rfl
theorem exec_dbgregWrite (x0 : BitVec 14) (x1 : Reg) : exec (.dbgregWrite x0 x1) s = execDbgregWrite x0 x1 s := rfl
theorem exec_dbgregStatus : exec (.dbgregStatus) s = execDbgregStatus s := rfl
theorem exec_dbgregNop : exec (.dbgregNop) s = execDbgregNop s := rfl
theorem exec_dbgregCapture : exec (.dbgregCapture) s = execDbgregCapture s := rfl
theorem exec_daprAccess (x0 : Bool) (x1 : BitVec 14) (x2 : Reg) : exec (.daprAccess x0 x1 x2) s = execDaprAccess x0 x1 x2 s := rfl
theorem exec_masterWrite (x0 : Reg) : exec (.masterWrite x0) s = execMasterWrite x0 s := rfl
theorem exec_masterRead : exec (.masterRead) s = execMasterRead s := rfl
theorem exec_masterAccessDone (x0 : Reg) (x1 : BitVec 2) (x2 : List Upset) : exec (.masterAccessDone x0 x1 x2) s = execMasterAccessDone x0 x1 x2 s := rfl
theorem exec_haltRequest : exec (.haltRequest) s = execHaltRequest s := rfl
theorem exec_haltEntry (x0 : CoreId) : exec (.haltEntry x0) s = execHaltEntry x0 s := rfl
theorem exec_resume : exec (.resume) s = execResume s := rfl
theorem exec_step : exec (.step) s = execStep s := rfl
theorem exec_msvDataWrite (x0 : Reg) : exec (.msvDataWrite x0) s = execMsvDataWrite x0 s := rfl
theorem exec_podFreeze (x0 : BitVec 16) : exec (.podFreeze x0) s = execPodFreeze x0 s := rfl
theorem exec_crossTrigger (x0 : CoreId) : exec (.crossTrigger x0) s = execCrossTrigger x0 s := rfl
theorem exec_vtCdataWrite (x0 : Agent) (x1 : Nat) (x2 : Reg) : exec (.vtCdataWrite x0 x1 x2) s = execVtCdataWrite x0 x1 x2 s := rfl
theorem exec_vtCdataRead (x0 : Agent) (x1 : Nat) : exec (.vtCdataRead x0 x1) s = execVtCdataRead x0 x1 s := rfl
theorem exec_vtDdataWrite (x0 : Nat) (x1 : Reg) : exec (.vtDdataWrite x0 x1) s = execVtDdataWrite x0 x1 s := rfl
theorem exec_vtDdataRead (x0 : Nat) : exec (.vtDdataRead x0) s = execVtDdataRead x0 s := rfl
theorem exec_authNew : exec (.authNew) s = execAuthNew s := rfl
theorem exec_authVerify (x0 : Bool) : exec (.authVerify x0) s = execAuthVerify x0 s := rfl
theorem exec_authVerifyDone : exec (.authVerifyDone) s = execAuthVerifyDone s := rfl
theorem exec_authDrop : exec (.authDrop) s = execAuthDrop s := rfl
theorem exec_swapStage (x0 : Reg) : exec (.swapStage x0) s = execSwapStage x0 s := rfl
theorem exec_bankCopyDone : exec (.bankCopyDone) s = execBankCopyDone s := rfl
theorem exec_swapApply (x0 : List Upset) : exec (.swapApply x0) s = execSwapApply x0 s := rfl
theorem exec_selftestStart (x0 : Nat) : exec (.selftestStart x0) s = execSelftestStart x0 s := rfl
theorem exec_selftestDone (x0 : Nat) (x1 : Bool) : exec (.selftestDone x0 x1) s = execSelftestDone x0 x1 s := rfl
theorem exec_lockstepMismatch : exec (.lockstepMismatch) s = execLockstepMismatch s := rfl
theorem exec_railSample (x0 : BitVec 12) : exec (.railSample x0) s = execRailSample x0 s := rfl
theorem exec_railDataRead (x0 : Agent) : exec (.railDataRead x0) s = execRailDataRead x0 s := rfl
theorem exec_thermalSample (x0 : BitVec 4) (x1 : BitVec 12) : exec (.thermalSample x0 x1) s = execThermalSample x0 x1 s := rfl
theorem exec_thermDataRead (x0 : Agent) : exec (.thermDataRead x0) s = execThermDataRead x0 s := rfl
theorem exec_logPop : exec (.logPop) s = execLogPop s := rfl
theorem exec_imageDataWrite (x0 : Reg) : exec (.imageDataWrite x0) s = execImageDataWrite x0 s := rfl
theorem exec_imageLoad : exec (.imageLoad) s = execImageLoad s := rfl
theorem exec_entropyFail : exec (.entropyFail) s = execEntropyFail s := rfl
theorem exec_drbgReseed : exec (.drbgReseed) s = execDrbgReseed s := rfl
theorem exec_versionAdvance (x0 : Agent) : exec (.versionAdvance x0) s = execVersionAdvance x0 s := rfl
theorem exec_secLockSet (x0 : Agent) : exec (.secLockSet x0) s = execSecLockSet x0 s := rfl
theorem exec_secRefuseRead (x0 : Agent) : exec (.secRefuseRead x0) s = execSecRefuseRead x0 s := rfl
theorem exec_auditPop (x0 : Agent) : exec (.auditPop x0) s = execAuditPop x0 s := rfl
theorem exec_pwrReqRun (x0 : Agent) : exec (.pwrReqRun x0) s = execPwrReqRun x0 s := rfl
theorem exec_pwrReqDoze (x0 : Agent) : exec (.pwrReqDoze x0) s = execPwrReqDoze x0 s := rfl
theorem exec_pwrReqNap (x0 : Agent) : exec (.pwrReqNap x0) s = execPwrReqNap x0 s := rfl
theorem exec_pwrReqSleep (x0 : Agent) : exec (.pwrReqSleep x0) s = execPwrReqSleep x0 s := rfl
theorem exec_pwrReqNone (x0 : Agent) : exec (.pwrReqNone x0) s = execPwrReqNone x0 s := rfl
theorem exec_napEntryDone : exec (.napEntryDone) s = execNapEntryDone s := rfl
theorem exec_sleepEntryDone : exec (.sleepEntryDone) s = execSleepEntryDone s := rfl
theorem exec_napExit : exec (.napExit) s = execNapExit s := rfl
theorem exec_sleepExit : exec (.sleepExit) s = execSleepExit s := rfl
theorem exec_supplyLoss : exec (.supplyLoss) s = execSupplyLoss s := rfl
theorem exec_powerOn : exec (.powerOn) s = execPowerOn s := rfl
theorem exec_coldResetPin (x0 : Bool) : exec (.coldResetPin x0) s = execColdResetPin x0 s := rfl
theorem exec_warmResetPin (x0 : Bool) : exec (.warmResetPin x0) s = execWarmResetPin x0 s := rfl
theorem exec_coldResetRequest (x0 : Agent) : exec (.coldResetRequest x0) s = execColdResetRequest x0 s := rfl
theorem exec_warmResetRequest (x0 : Agent) : exec (.warmResetRequest x0) s = execWarmResetRequest x0 s := rfl
theorem exec_domainReset (x0 : Agent) (x1 : Reg) : exec (.domainReset x0 x1) s = execDomainReset x0 x1 s := rfl
theorem exec_startupCheck (x0 : Bool) (x1 : BitVec 12) (x2 : BitVec 16) : exec (.startupCheck x0 x1 x2) s = execStartupCheck x0 x1 x2 s := rfl
theorem exec_supervisorRelease (x0 : BootImage) : exec (.supervisorRelease x0) s = execSupervisorRelease x0 s := rfl
theorem exec_scratchInitDone : exec (.scratchInitDone) s = execScratchInitDone s := rfl
theorem exec_seqRelease (x0 : Agent) : exec (.seqRelease x0) s = execSeqRelease x0 s := rfl
theorem exec_islandPowerAck (x0 : BitVec 6) : exec (.islandPowerAck x0) s = execIslandPowerAck x0 s := rfl
theorem exec_islandAckTimeout (x0 : BitVec 6) : exec (.islandAckTimeout x0) s = execIslandAckTimeout x0 s := rfl
theorem exec_selfRefreshAck (x0 : Nat) : exec (.selfRefreshAck x0) s = execSelfRefreshAck x0 s := rfl
theorem exec_backgroundReclaimVisit (x0 : Nat) : exec (.backgroundReclaimVisit x0) s = execBackgroundReclaimVisit x0 s := rfl
theorem exec_badFrame (x0 : Nat) (x1 : BadFrame) (x2 : Frame) : exec (.badFrame x0 x1 x2) s = execBadFrame x0 x1 x2 s := rfl
theorem exec_entropyRecovery : exec (.entropyRecovery) s = execEntropyRecovery s := rfl
theorem exec_secureBootFail (x0 : BootImage) : exec (.secureBootFail x0) s = execSecureBootFail x0 s := rfl
theorem exec_pmuCounterOverflow (x0 : Nat) (x1 : BitVec 32) : exec (.pmuCounterOverflow x0 x1) s = execPmuCounterOverflow x0 x1 s := rfl

end Sys2Proof.Machine
end

