-- ==== Sys2Proof/Laws/Tbl.lean ====
section
/-! SUPPORT. Sparse tables: a read after a write, and the canonical form that every table operation keeps. -/

namespace Sys2Proof.Tbl

variable {α : Type}

@[simp] theorem get_nil (d : α) (k : Nat) : get d k [] = d := rfl

/-- Erasing key `k` makes it read the default and leaves every other key. -/
theorem get_erase (d : α) (k j : Nat) (t : Tbl α) : get d j (erase k t) = if j = k then d else get d j t := by
  induction t with
  | nil => simp [erase, get]
  | cons e t ih =>
    obtain ⟨i, w⟩ := e
    simp only [erase, ne_eq, decide_not] at ih ⊢
    by_cases hik : i = k
    · subst hik
      by_cases hj : j = i
      · subst hj; simpa using ih
      · have : ¬ i = j := fun h => hj h.symm
        simp [get, this, ih, hj]
    · by_cases hij : i = j
      · subst hij; simp [hik, get]
      · simp [hik, get, hij, ih]

/-- Inserting at key `k` a value into a table that does not list it. -/
theorem get_insert (d : α) (k j : Nat) (v : α) (t : Tbl α) (h : ∀ e ∈ t, e.1 ≠ k) :
    get d j (insert k v t) = if j = k then v else get d j t := by
  induction t with
  | nil =>
    by_cases hj : j = k
    · subst hj; simp [insert, get]
    · have : ¬ k = j := fun h => hj h.symm
      simp [insert, get, hj, this]
  | cons e t ih =>
    obtain ⟨i, w⟩ := e
    have hi : i ≠ k := h (i, w) (by simp)
    have ih := ih (fun e he => h e (by simp [he]))
    simp only [insert]
    split
    · by_cases hj : j = k
      · subst hj; simp [get]
      · have : ¬ k = j := fun h => hj h.symm
        simp [get, hj, this]
    · by_cases hij : i = j
      · subst hij; simp [get, hi]
      · simp [get, hij, ih]

/-- A read after a write: the value written at its key, and every other key as before. -/
theorem get_set [DecidableEq α] (d : α) (k j : Nat) (v : α) (t : Tbl α) :
    get d j (set d k v t) = if j = k then v else get d j t := by
  unfold set
  split
  · next h => subst h; exact get_erase _ _ _ _
  · rw [get_insert]
    · rw [get_erase]; split <;> simp_all
    · intro e he; simp [erase] at he; exact he.2

@[simp] theorem get_set_self [DecidableEq α] (d : α) (k : Nat) (v : α) (t : Tbl α) : get d k (set d k v t) = v := by
  simp [get_set]

/-- A write leaves every other key, whatever the default it is read with. -/
theorem get_set_ne [DecidableEq α] (d d' : α) {k j : Nat} (h : j ≠ k) (v : α) (t : Tbl α) : get d j (set d' k v t) = get d j t := by
  unfold set
  split
  · simp [get_erase, h]
  · rw [get_insert, get_erase, if_neg h, if_neg h]
    intro e he; simp [erase] at he; exact he.2

/-! ### The canonical form -/

theorem wfFrom_mono [DecidableEq α] {d : α} {lo hi : Nat} (h : lo ≤ hi) {t : Tbl α} (ht : wfFrom d hi t = true) : wfFrom d lo t = true := by
  cases t with
  | nil => rfl
  | cons e t => simp [wfFrom] at ht ⊢; exact ⟨⟨by omega, ht.1.2⟩, ht.2⟩

theorem wfFrom_filter [DecidableEq α] {d : α} (p : Nat × α → Bool) {lo : Nat} {t : Tbl α} (ht : wfFrom d lo t = true) :
    wfFrom d lo (t.filter p) = true := by
  induction t generalizing lo with
  | nil => rfl
  | cons e t ih =>
    simp [wfFrom] at ht
    by_cases hp : p e
    · simp [hp, wfFrom, ht.1, ih ht.2]
    · simp [hp]; exact wfFrom_mono (by omega) (ih ht.2)

theorem wfFrom_insert [DecidableEq α] {d : α} {lo k : Nat} {v : α} (hv : v ≠ d) (hk : lo ≤ k) {t : Tbl α} (h : ∀ e ∈ t, e.1 ≠ k)
    (ht : wfFrom d lo t = true) : wfFrom d lo (insert k v t) = true := by
  induction t generalizing lo with
  | nil => simp [insert, wfFrom, hv, hk]
  | cons e t ih =>
    obtain ⟨i, w⟩ := e
    have hi : i ≠ k := h (i, w) (by simp)
    simp [wfFrom] at ht
    simp only [insert]
    split
    · next hki => simp [wfFrom, hv, hk, ht.1.2, ht.2]; omega
    · next hki =>
      simp [wfFrom, ht.1]
      exact ih (by omega) (fun e he => h e (by simp [he])) ht.2

/-- Every write keeps the canonical form. -/
theorem wf_set [DecidableEq α] {d : α} (k : Nat) (v : α) {t : Tbl α} (ht : wf d t = true) : wf d (set d k v t) = true := by
  unfold set
  split
  · exact wfFrom_filter _ ht
  · next hv =>
    exact wfFrom_insert hv (Nat.zero_le k) (by intro e he; simp [erase] at he; exact he.2) (wfFrom_filter _ ht)

theorem wf_keep [DecidableEq α] {d : α} (p : Nat → Bool) {t : Tbl α} (ht : wf d t = true) : wf d (keep p t) = true := wfFrom_filter _ ht

theorem wf_mapVal [DecidableEq α] {d : α} (f : Nat → α → α) (t : Tbl α) : wf d (mapVal d f t) = true := by
  induction t with
  | nil => rfl
  | cons e t ih => exact wf_set _ _ ih

/-- Reading a mapped table: `f` of what was there, where `f` keeps the default. -/
theorem get_mapVal [DecidableEq α] {d : α} (f : Nat → α → α) (k : Nat) (hf : f k d = d) (t : Tbl α) :
    get d k (mapVal d f t) = f k (get d k t) := by
  induction t with
  | nil => simp [mapVal, hf]
  | cons e t ih =>
    obtain ⟨j, v⟩ := e
    by_cases hj : j = k
    · subst hj; simp [mapVal, get]
    · have : ¬ k = j := fun h => hj h.symm
      simp [mapVal, get, get_set, hj, this, ih]

end Sys2Proof.Tbl
end

