-- ==== Sys2Proof/Laws/Regs.lean ====
section
/-! SUPPORT. Register fields: what a field reads after a write of it, of another field, or of another register. -/

namespace Sys2Proof

theorem testBit_bitsOf (n lo w i : Nat) : (bitsOf n lo w).testBit i = (decide (i < w) && n.testBit (lo + i)) := by
  simp [bitsOf, Nat.testBit_mod_two_pow, Nat.testBit_div_two_pow, Nat.add_comm]

theorem setBitsOf_split (n lo w v : Nat) :
    setBitsOf n lo w v = 2 ^ lo * (2 ^ w * (n / 2 ^ lo / 2 ^ w) + v % 2 ^ w) + n % 2 ^ lo := by
  have h1 : n = 2 ^ lo * (n / 2 ^ lo) + n % 2 ^ lo := (Nat.div_add_mod n (2 ^ lo)).symm
  have h2 : n / 2 ^ lo = 2 ^ w * (n / 2 ^ lo / 2 ^ w) + (n / 2 ^ lo) % 2 ^ w := (Nat.div_add_mod _ _).symm
  unfold setBitsOf bitsOf
  generalize hq : n / 2 ^ lo = q at *
  generalize hr : n % 2 ^ lo = r at *
  generalize hm : q % 2 ^ w = m at *
  generalize hh : q / 2 ^ w = h at *
  have e1 : n = 2 ^ lo * (2 ^ w * h) + 2 ^ lo * m + r := by rw [h1, h2, Nat.mul_add]
  have e2 : m * 2 ^ lo = 2 ^ lo * m := Nat.mul_comm _ _
  have e3 : v % 2 ^ w * 2 ^ lo = 2 ^ lo * (v % 2 ^ w) := Nat.mul_comm _ _
  rw [e2, e3, Nat.mul_add, e1]
  omega

theorem testBit_setBitsOf (n lo w v i : Nat) :
    (setBitsOf n lo w v).testBit i = if lo ≤ i ∧ i < lo + w then v.testBit (i - lo) else n.testBit i := by
  rw [setBitsOf_split, Nat.testBit_two_pow_mul_add _ (Nat.mod_lt _ (Nat.two_pow_pos lo))]
  by_cases h1 : i < lo
  · have : ¬ (lo ≤ i ∧ i < lo + w) := by omega
    simp [h1, this, Nat.testBit_mod_two_pow]
  · rw [if_neg h1, Nat.testBit_two_pow_mul_add _ (Nat.mod_lt _ (Nat.two_pow_pos w))]
    by_cases h2 : i - lo < w
    · have : lo ≤ i ∧ i < lo + w := by omega
      simp [h2, this, Nat.testBit_mod_two_pow]
    · have : ¬ (lo ≤ i ∧ i < lo + w) := by omega
      rw [if_neg h2, if_neg this, Nat.testBit_div_two_pow, Nat.testBit_div_two_pow]
      congr 1; omega

@[simp] theorem bitsOf_setBitsOf_self (n lo w v : Nat) : bitsOf (setBitsOf n lo w v) lo w = v % 2 ^ w := by
  apply Nat.eq_of_testBit_eq; intro i
  rw [testBit_bitsOf, testBit_setBitsOf, Nat.testBit_mod_two_pow]
  by_cases h : i < w
  · have : lo ≤ lo + i ∧ lo + i < lo + w := by omega
    simp [h]
  · simp [h]

theorem bitsOf_setBitsOf_ne (n lo w v lo' w' : Nat) (h : lo' + w' ≤ lo ∨ lo + w ≤ lo') :
    bitsOf (setBitsOf n lo w v) lo' w' = bitsOf n lo' w' := by
  apply Nat.eq_of_testBit_eq; intro i
  rw [testBit_bitsOf, testBit_bitsOf, testBit_setBitsOf]
  by_cases hi : i < w'
  · have : ¬ (lo ≤ lo' + i ∧ lo' + i < lo + w) := by omega
    simp [this]
  · simp [hi]

theorem setBitsOf_lt {n lo w k : Nat} (v : Nat) (hn : n < 2 ^ k) (h : lo + w ≤ k) : setBitsOf n lo w v < 2 ^ k := by
  apply Nat.lt_pow_two_of_testBit; intro i hi
  rw [testBit_setBitsOf]
  have : ¬ (lo ≤ i ∧ i < lo + w) := by omega
  rw [if_neg this]
  exact Nat.testBit_lt_two_pow (Nat.lt_of_lt_of_le hn (Nat.pow_le_pow_right (by omega) hi))

end Sys2Proof

namespace Sys2Proof.Machine

/-- A register reads what was last written to it. -/
@[simp] theorem State.reg_setReg_self (s : State) (off : Nat) (v : Reg) : (s.setReg off v).reg off = v := by
  simp [State.reg, State.setReg]

theorem State.reg_setReg_ne (s : State) {off o : Nat} (h : o ≠ off) (v : Reg) : (s.setReg off v).reg o = s.reg o := by
  simp [State.reg, State.setReg, Tbl.get_set_ne _ _ h]

/-- A field reads what was last written to it, modulo its width. -/
theorem State.fld_setFld_self (s : State) (f : Fld) (v : Nat) (h : f.lo + f.w ≤ 32) : (s.setFld f v).fld f = v % 2 ^ f.w := by
  have hlt := setBitsOf_lt (n := (s.reg f.off).toNat) v (BitVec.isLt _) h
  rw [State.fld, State.setFld, State.reg_setReg_self, BitVec.toNat_ofNat, Nat.mod_eq_of_lt hlt, bitsOf_setBitsOf_self]

/-- A write of another field of the same register, or of another register, leaves a field. -/
theorem State.fld_setFld_ne (s : State) (f g : Fld) (v : Nat) (hf : f.lo + f.w ≤ 32)
    (h : g.off ≠ f.off ∨ g.lo + g.w ≤ f.lo ∨ f.lo + f.w ≤ g.lo) : (s.setFld f v).fld g = s.fld g := by
  by_cases ho : g.off = f.off
  · have h' : g.lo + g.w ≤ f.lo ∨ f.lo + f.w ≤ g.lo := by simpa [ho] using h
    have hlt := setBitsOf_lt (n := (s.reg f.off).toNat) v (BitVec.isLt _) hf
    rw [State.fld, State.fld, State.setFld, ho, State.reg_setReg_self, BitVec.toNat_ofNat, Nat.mod_eq_of_lt hlt,
      bitsOf_setBitsOf_ne _ _ _ _ _ _ h']
  · simp [State.fld, State.setFld, State.reg_setReg_ne _ ho]

theorem State.fld_setReg_ne (s : State) (f : Fld) {off : Nat} (v : Reg) (h : f.off ≠ off) : (s.setReg off v).fld f = s.fld f := by
  simp [State.fld, State.reg_setReg_ne _ h]

end Sys2Proof.Machine
end

