-- ==== Sys2Proof/Laws/State.lean ====
section
/-! SUPPORT. One lemma per field per named update of the state, and what each table of the state reads after its update. -/

namespace Sys2Proof.Machine.State

/-! ### setReg -/

@[simp] theorem setReg_build (s : State) (off : Nat) (v : Reg) : (s.setReg off v).build = s.build := rfl
@[simp] theorem setReg_clk (s : State) (off : Nat) (v : Reg) : (s.setReg off v).clk = s.clk := rfl
@[simp] theorem setReg_mem (s : State) (off : Nat) (v : Reg) : (s.setReg off v).mem = s.mem := rfl
@[simp] theorem setReg_arb (s : State) (off : Nat) (v : Reg) : (s.setReg off v).arb = s.arb := rfl
@[simp] theorem setReg_epc (s : State) (off : Nat) (v : Reg) : (s.setReg off v).epc = s.epc := rfl
@[simp] theorem setReg_bmp (s : State) (off : Nat) (v : Reg) : (s.setReg off v).bmp = s.bmp := rfl
@[simp] theorem setReg_evc (s : State) (off : Nat) (v : Reg) : (s.setReg off v).evc = s.evc := rfl
@[simp] theorem setReg_cores (s : State) (off : Nat) (v : Reg) : (s.setReg off v).cores = s.cores := rfl
@[simp] theorem setReg_ctxs (s : State) (off : Nat) (v : Reg) : (s.setReg off v).ctxs = s.ctxs := rfl
@[simp] theorem setReg_scr (s : State) (off : Nat) (v : Reg) : (s.setReg off v).scr = s.scr := rfl
@[simp] theorem setReg_code (s : State) (off : Nat) (v : Reg) : (s.setReg off v).code = s.code := rfl
@[simp] theorem setReg_mint (s : State) (off : Nat) (v : Reg) : (s.setReg off v).mint = s.mint := rfl
@[simp] theorem setReg_alloc (s : State) (off : Nat) (v : Reg) : (s.setReg off v).alloc = s.alloc := rfl
@[simp] theorem setReg_hif (s : State) (off : Nat) (v : Reg) : (s.setReg off v).hif = s.hif := rfl
@[simp] theorem setReg_wian (s : State) (off : Nat) (v : Reg) : (s.setReg off v).wian = s.wian := rfl
@[simp] theorem setReg_sec (s : State) (off : Nat) (v : Reg) : (s.setReg off v).sec = s.sec := rfl
@[simp] theorem setReg_pmu (s : State) (off : Nat) (v : Reg) : (s.setReg off v).pmu = s.pmu := rfl
@[simp] theorem setReg_bulkOut (s : State) (off : Nat) (v : Reg) : (s.setReg off v).bulkOut = s.bulkOut := rfl
@[simp] theorem setReg_hlt (s : State) (off : Nat) (v : Reg) : (s.setReg off v).hlt = s.hlt := rfl
@[simp] theorem setReg_dbg (s : State) (off : Nat) (v : Reg) : (s.setReg off v).dbg = s.dbg := rfl
@[simp] theorem setReg_crp (s : State) (off : Nat) (v : Reg) : (s.setReg off v).crp = s.crp := rfl
@[simp] theorem setReg_replies (s : State) (off : Nat) (v : Reg) : (s.setReg off v).replies = s.replies := rfl
@[simp] theorem setReg_fresh (s : State) (off : Nat) (v : Reg) : (s.setReg off v).fresh = s.fresh := rfl
@[simp] theorem setReg_pending (s : State) (off : Nat) (v : Reg) : (s.setReg off v).pending = s.pending := rfl

/-! ### setFld -/

@[simp] theorem setFld_build (s : State) (f : Fld) (v : Nat) : (s.setFld f v).build = s.build := rfl
@[simp] theorem setFld_clk (s : State) (f : Fld) (v : Nat) : (s.setFld f v).clk = s.clk := rfl
@[simp] theorem setFld_mem (s : State) (f : Fld) (v : Nat) : (s.setFld f v).mem = s.mem := rfl
@[simp] theorem setFld_arb (s : State) (f : Fld) (v : Nat) : (s.setFld f v).arb = s.arb := rfl
@[simp] theorem setFld_epc (s : State) (f : Fld) (v : Nat) : (s.setFld f v).epc = s.epc := rfl
@[simp] theorem setFld_bmp (s : State) (f : Fld) (v : Nat) : (s.setFld f v).bmp = s.bmp := rfl
@[simp] theorem setFld_evc (s : State) (f : Fld) (v : Nat) : (s.setFld f v).evc = s.evc := rfl
@[simp] theorem setFld_cores (s : State) (f : Fld) (v : Nat) : (s.setFld f v).cores = s.cores := rfl
@[simp] theorem setFld_ctxs (s : State) (f : Fld) (v : Nat) : (s.setFld f v).ctxs = s.ctxs := rfl
@[simp] theorem setFld_scr (s : State) (f : Fld) (v : Nat) : (s.setFld f v).scr = s.scr := rfl
@[simp] theorem setFld_code (s : State) (f : Fld) (v : Nat) : (s.setFld f v).code = s.code := rfl
@[simp] theorem setFld_mint (s : State) (f : Fld) (v : Nat) : (s.setFld f v).mint = s.mint := rfl
@[simp] theorem setFld_alloc (s : State) (f : Fld) (v : Nat) : (s.setFld f v).alloc = s.alloc := rfl
@[simp] theorem setFld_hif (s : State) (f : Fld) (v : Nat) : (s.setFld f v).hif = s.hif := rfl
@[simp] theorem setFld_wian (s : State) (f : Fld) (v : Nat) : (s.setFld f v).wian = s.wian := rfl
@[simp] theorem setFld_sec (s : State) (f : Fld) (v : Nat) : (s.setFld f v).sec = s.sec := rfl
@[simp] theorem setFld_pmu (s : State) (f : Fld) (v : Nat) : (s.setFld f v).pmu = s.pmu := rfl
@[simp] theorem setFld_bulkOut (s : State) (f : Fld) (v : Nat) : (s.setFld f v).bulkOut = s.bulkOut := rfl
@[simp] theorem setFld_hlt (s : State) (f : Fld) (v : Nat) : (s.setFld f v).hlt = s.hlt := rfl
@[simp] theorem setFld_dbg (s : State) (f : Fld) (v : Nat) : (s.setFld f v).dbg = s.dbg := rfl
@[simp] theorem setFld_crp (s : State) (f : Fld) (v : Nat) : (s.setFld f v).crp = s.crp := rfl
@[simp] theorem setFld_replies (s : State) (f : Fld) (v : Nat) : (s.setFld f v).replies = s.replies := rfl
@[simp] theorem setFld_fresh (s : State) (f : Fld) (v : Nat) : (s.setFld f v).fresh = s.fresh := rfl
@[simp] theorem setFld_pending (s : State) (f : Fld) (v : Nat) : (s.setFld f v).pending = s.pending := rfl

/-! ### raiseBit -/

@[simp] theorem raiseBit_build (s : State) (f : Fld) : (s.raiseBit f).build = s.build := rfl
@[simp] theorem raiseBit_clk (s : State) (f : Fld) : (s.raiseBit f).clk = s.clk := rfl
@[simp] theorem raiseBit_mem (s : State) (f : Fld) : (s.raiseBit f).mem = s.mem := rfl
@[simp] theorem raiseBit_arb (s : State) (f : Fld) : (s.raiseBit f).arb = s.arb := rfl
@[simp] theorem raiseBit_epc (s : State) (f : Fld) : (s.raiseBit f).epc = s.epc := rfl
@[simp] theorem raiseBit_bmp (s : State) (f : Fld) : (s.raiseBit f).bmp = s.bmp := rfl
@[simp] theorem raiseBit_evc (s : State) (f : Fld) : (s.raiseBit f).evc = s.evc := rfl
@[simp] theorem raiseBit_cores (s : State) (f : Fld) : (s.raiseBit f).cores = s.cores := rfl
@[simp] theorem raiseBit_ctxs (s : State) (f : Fld) : (s.raiseBit f).ctxs = s.ctxs := rfl
@[simp] theorem raiseBit_scr (s : State) (f : Fld) : (s.raiseBit f).scr = s.scr := rfl
@[simp] theorem raiseBit_code (s : State) (f : Fld) : (s.raiseBit f).code = s.code := rfl
@[simp] theorem raiseBit_mint (s : State) (f : Fld) : (s.raiseBit f).mint = s.mint := rfl
@[simp] theorem raiseBit_alloc (s : State) (f : Fld) : (s.raiseBit f).alloc = s.alloc := rfl
@[simp] theorem raiseBit_hif (s : State) (f : Fld) : (s.raiseBit f).hif = s.hif := rfl
@[simp] theorem raiseBit_wian (s : State) (f : Fld) : (s.raiseBit f).wian = s.wian := rfl
@[simp] theorem raiseBit_sec (s : State) (f : Fld) : (s.raiseBit f).sec = s.sec := rfl
@[simp] theorem raiseBit_pmu (s : State) (f : Fld) : (s.raiseBit f).pmu = s.pmu := rfl
@[simp] theorem raiseBit_bulkOut (s : State) (f : Fld) : (s.raiseBit f).bulkOut = s.bulkOut := rfl
@[simp] theorem raiseBit_hlt (s : State) (f : Fld) : (s.raiseBit f).hlt = s.hlt := rfl
@[simp] theorem raiseBit_dbg (s : State) (f : Fld) : (s.raiseBit f).dbg = s.dbg := rfl
@[simp] theorem raiseBit_crp (s : State) (f : Fld) : (s.raiseBit f).crp = s.crp := rfl
@[simp] theorem raiseBit_replies (s : State) (f : Fld) : (s.raiseBit f).replies = s.replies := rfl
@[simp] theorem raiseBit_fresh (s : State) (f : Fld) : (s.raiseBit f).fresh = s.fresh := rfl
@[simp] theorem raiseBit_pending (s : State) (f : Fld) : (s.raiseBit f).pending = s.pending := rfl

/-! ### clearFld -/

@[simp] theorem clearFld_build (s : State) (f : Fld) : (s.clearFld f).build = s.build := rfl
@[simp] theorem clearFld_clk (s : State) (f : Fld) : (s.clearFld f).clk = s.clk := rfl
@[simp] theorem clearFld_mem (s : State) (f : Fld) : (s.clearFld f).mem = s.mem := rfl
@[simp] theorem clearFld_arb (s : State) (f : Fld) : (s.clearFld f).arb = s.arb := rfl
@[simp] theorem clearFld_epc (s : State) (f : Fld) : (s.clearFld f).epc = s.epc := rfl
@[simp] theorem clearFld_bmp (s : State) (f : Fld) : (s.clearFld f).bmp = s.bmp := rfl
@[simp] theorem clearFld_evc (s : State) (f : Fld) : (s.clearFld f).evc = s.evc := rfl
@[simp] theorem clearFld_cores (s : State) (f : Fld) : (s.clearFld f).cores = s.cores := rfl
@[simp] theorem clearFld_ctxs (s : State) (f : Fld) : (s.clearFld f).ctxs = s.ctxs := rfl
@[simp] theorem clearFld_scr (s : State) (f : Fld) : (s.clearFld f).scr = s.scr := rfl
@[simp] theorem clearFld_code (s : State) (f : Fld) : (s.clearFld f).code = s.code := rfl
@[simp] theorem clearFld_mint (s : State) (f : Fld) : (s.clearFld f).mint = s.mint := rfl
@[simp] theorem clearFld_alloc (s : State) (f : Fld) : (s.clearFld f).alloc = s.alloc := rfl
@[simp] theorem clearFld_hif (s : State) (f : Fld) : (s.clearFld f).hif = s.hif := rfl
@[simp] theorem clearFld_wian (s : State) (f : Fld) : (s.clearFld f).wian = s.wian := rfl
@[simp] theorem clearFld_sec (s : State) (f : Fld) : (s.clearFld f).sec = s.sec := rfl
@[simp] theorem clearFld_pmu (s : State) (f : Fld) : (s.clearFld f).pmu = s.pmu := rfl
@[simp] theorem clearFld_bulkOut (s : State) (f : Fld) : (s.clearFld f).bulkOut = s.bulkOut := rfl
@[simp] theorem clearFld_hlt (s : State) (f : Fld) : (s.clearFld f).hlt = s.hlt := rfl
@[simp] theorem clearFld_dbg (s : State) (f : Fld) : (s.clearFld f).dbg = s.dbg := rfl
@[simp] theorem clearFld_crp (s : State) (f : Fld) : (s.clearFld f).crp = s.crp := rfl
@[simp] theorem clearFld_replies (s : State) (f : Fld) : (s.clearFld f).replies = s.replies := rfl
@[simp] theorem clearFld_fresh (s : State) (f : Fld) : (s.clearFld f).fresh = s.fresh := rfl
@[simp] theorem clearFld_pending (s : State) (f : Fld) : (s.clearFld f).pending = s.pending := rfl

/-! ### addSat -/

@[simp] theorem addSat_build (s : State) (f : Fld) (n : Nat) : (s.addSat f n).build = s.build := rfl
@[simp] theorem addSat_clk (s : State) (f : Fld) (n : Nat) : (s.addSat f n).clk = s.clk := rfl
@[simp] theorem addSat_mem (s : State) (f : Fld) (n : Nat) : (s.addSat f n).mem = s.mem := rfl
@[simp] theorem addSat_arb (s : State) (f : Fld) (n : Nat) : (s.addSat f n).arb = s.arb := rfl
@[simp] theorem addSat_epc (s : State) (f : Fld) (n : Nat) : (s.addSat f n).epc = s.epc := rfl
@[simp] theorem addSat_bmp (s : State) (f : Fld) (n : Nat) : (s.addSat f n).bmp = s.bmp := rfl
@[simp] theorem addSat_evc (s : State) (f : Fld) (n : Nat) : (s.addSat f n).evc = s.evc := rfl
@[simp] theorem addSat_cores (s : State) (f : Fld) (n : Nat) : (s.addSat f n).cores = s.cores := rfl
@[simp] theorem addSat_ctxs (s : State) (f : Fld) (n : Nat) : (s.addSat f n).ctxs = s.ctxs := rfl
@[simp] theorem addSat_scr (s : State) (f : Fld) (n : Nat) : (s.addSat f n).scr = s.scr := rfl
@[simp] theorem addSat_code (s : State) (f : Fld) (n : Nat) : (s.addSat f n).code = s.code := rfl
@[simp] theorem addSat_mint (s : State) (f : Fld) (n : Nat) : (s.addSat f n).mint = s.mint := rfl
@[simp] theorem addSat_alloc (s : State) (f : Fld) (n : Nat) : (s.addSat f n).alloc = s.alloc := rfl
@[simp] theorem addSat_hif (s : State) (f : Fld) (n : Nat) : (s.addSat f n).hif = s.hif := rfl
@[simp] theorem addSat_wian (s : State) (f : Fld) (n : Nat) : (s.addSat f n).wian = s.wian := rfl
@[simp] theorem addSat_sec (s : State) (f : Fld) (n : Nat) : (s.addSat f n).sec = s.sec := rfl
@[simp] theorem addSat_pmu (s : State) (f : Fld) (n : Nat) : (s.addSat f n).pmu = s.pmu := rfl
@[simp] theorem addSat_bulkOut (s : State) (f : Fld) (n : Nat) : (s.addSat f n).bulkOut = s.bulkOut := rfl
@[simp] theorem addSat_hlt (s : State) (f : Fld) (n : Nat) : (s.addSat f n).hlt = s.hlt := rfl
@[simp] theorem addSat_dbg (s : State) (f : Fld) (n : Nat) : (s.addSat f n).dbg = s.dbg := rfl
@[simp] theorem addSat_crp (s : State) (f : Fld) (n : Nat) : (s.addSat f n).crp = s.crp := rfl
@[simp] theorem addSat_replies (s : State) (f : Fld) (n : Nat) : (s.addSat f n).replies = s.replies := rfl
@[simp] theorem addSat_fresh (s : State) (f : Fld) (n : Nat) : (s.addSat f n).fresh = s.fresh := rfl
@[simp] theorem addSat_pending (s : State) (f : Fld) (n : Nat) : (s.addSat f n).pending = s.pending := rfl

/-! ### setReg64 -/

@[simp] theorem setReg64_build (s : State) (lo hi : Nat) (v : BitVec 64) : (s.setReg64 lo hi v).build = s.build := rfl
@[simp] theorem setReg64_clk (s : State) (lo hi : Nat) (v : BitVec 64) : (s.setReg64 lo hi v).clk = s.clk := rfl
@[simp] theorem setReg64_mem (s : State) (lo hi : Nat) (v : BitVec 64) : (s.setReg64 lo hi v).mem = s.mem := rfl
@[simp] theorem setReg64_arb (s : State) (lo hi : Nat) (v : BitVec 64) : (s.setReg64 lo hi v).arb = s.arb := rfl
@[simp] theorem setReg64_epc (s : State) (lo hi : Nat) (v : BitVec 64) : (s.setReg64 lo hi v).epc = s.epc := rfl
@[simp] theorem setReg64_bmp (s : State) (lo hi : Nat) (v : BitVec 64) : (s.setReg64 lo hi v).bmp = s.bmp := rfl
@[simp] theorem setReg64_evc (s : State) (lo hi : Nat) (v : BitVec 64) : (s.setReg64 lo hi v).evc = s.evc := rfl
@[simp] theorem setReg64_cores (s : State) (lo hi : Nat) (v : BitVec 64) : (s.setReg64 lo hi v).cores = s.cores := rfl
@[simp] theorem setReg64_ctxs (s : State) (lo hi : Nat) (v : BitVec 64) : (s.setReg64 lo hi v).ctxs = s.ctxs := rfl
@[simp] theorem setReg64_scr (s : State) (lo hi : Nat) (v : BitVec 64) : (s.setReg64 lo hi v).scr = s.scr := rfl
@[simp] theorem setReg64_code (s : State) (lo hi : Nat) (v : BitVec 64) : (s.setReg64 lo hi v).code = s.code := rfl
@[simp] theorem setReg64_mint (s : State) (lo hi : Nat) (v : BitVec 64) : (s.setReg64 lo hi v).mint = s.mint := rfl
@[simp] theorem setReg64_alloc (s : State) (lo hi : Nat) (v : BitVec 64) : (s.setReg64 lo hi v).alloc = s.alloc := rfl
@[simp] theorem setReg64_hif (s : State) (lo hi : Nat) (v : BitVec 64) : (s.setReg64 lo hi v).hif = s.hif := rfl
@[simp] theorem setReg64_wian (s : State) (lo hi : Nat) (v : BitVec 64) : (s.setReg64 lo hi v).wian = s.wian := rfl
@[simp] theorem setReg64_sec (s : State) (lo hi : Nat) (v : BitVec 64) : (s.setReg64 lo hi v).sec = s.sec := rfl
@[simp] theorem setReg64_pmu (s : State) (lo hi : Nat) (v : BitVec 64) : (s.setReg64 lo hi v).pmu = s.pmu := rfl
@[simp] theorem setReg64_bulkOut (s : State) (lo hi : Nat) (v : BitVec 64) : (s.setReg64 lo hi v).bulkOut = s.bulkOut := rfl
@[simp] theorem setReg64_hlt (s : State) (lo hi : Nat) (v : BitVec 64) : (s.setReg64 lo hi v).hlt = s.hlt := rfl
@[simp] theorem setReg64_dbg (s : State) (lo hi : Nat) (v : BitVec 64) : (s.setReg64 lo hi v).dbg = s.dbg := rfl
@[simp] theorem setReg64_crp (s : State) (lo hi : Nat) (v : BitVec 64) : (s.setReg64 lo hi v).crp = s.crp := rfl
@[simp] theorem setReg64_replies (s : State) (lo hi : Nat) (v : BitVec 64) : (s.setReg64 lo hi v).replies = s.replies := rfl
@[simp] theorem setReg64_fresh (s : State) (lo hi : Nat) (v : BitVec 64) : (s.setReg64 lo hi v).fresh = s.fresh := rfl
@[simp] theorem setReg64_pending (s : State) (lo hi : Nat) (v : BitVec 64) : (s.setReg64 lo hi v).pending = s.pending := rfl

/-! ### setGroup -/

@[simp] theorem setGroup_build (s : State) (g : Nat) (v : Group) : (s.setGroup g v).build = s.build := rfl
@[simp] theorem setGroup_regs (s : State) (g : Nat) (v : Group) : (s.setGroup g v).regs = s.regs := rfl
@[simp] theorem setGroup_clk (s : State) (g : Nat) (v : Group) : (s.setGroup g v).clk = s.clk := rfl
@[simp] theorem setGroup_mem (s : State) (g : Nat) (v : Group) : (s.setGroup g v).mem = s.mem := rfl
@[simp] theorem setGroup_arb (s : State) (g : Nat) (v : Group) : (s.setGroup g v).arb = s.arb := rfl
@[simp] theorem setGroup_bmp (s : State) (g : Nat) (v : Group) : (s.setGroup g v).bmp = s.bmp := rfl
@[simp] theorem setGroup_evc (s : State) (g : Nat) (v : Group) : (s.setGroup g v).evc = s.evc := rfl
@[simp] theorem setGroup_cores (s : State) (g : Nat) (v : Group) : (s.setGroup g v).cores = s.cores := rfl
@[simp] theorem setGroup_ctxs (s : State) (g : Nat) (v : Group) : (s.setGroup g v).ctxs = s.ctxs := rfl
@[simp] theorem setGroup_scr (s : State) (g : Nat) (v : Group) : (s.setGroup g v).scr = s.scr := rfl
@[simp] theorem setGroup_code (s : State) (g : Nat) (v : Group) : (s.setGroup g v).code = s.code := rfl
@[simp] theorem setGroup_mint (s : State) (g : Nat) (v : Group) : (s.setGroup g v).mint = s.mint := rfl
@[simp] theorem setGroup_alloc (s : State) (g : Nat) (v : Group) : (s.setGroup g v).alloc = s.alloc := rfl
@[simp] theorem setGroup_hif (s : State) (g : Nat) (v : Group) : (s.setGroup g v).hif = s.hif := rfl
@[simp] theorem setGroup_wian (s : State) (g : Nat) (v : Group) : (s.setGroup g v).wian = s.wian := rfl
@[simp] theorem setGroup_sec (s : State) (g : Nat) (v : Group) : (s.setGroup g v).sec = s.sec := rfl
@[simp] theorem setGroup_pmu (s : State) (g : Nat) (v : Group) : (s.setGroup g v).pmu = s.pmu := rfl
@[simp] theorem setGroup_bulkOut (s : State) (g : Nat) (v : Group) : (s.setGroup g v).bulkOut = s.bulkOut := rfl
@[simp] theorem setGroup_hlt (s : State) (g : Nat) (v : Group) : (s.setGroup g v).hlt = s.hlt := rfl
@[simp] theorem setGroup_dbg (s : State) (g : Nat) (v : Group) : (s.setGroup g v).dbg = s.dbg := rfl
@[simp] theorem setGroup_crp (s : State) (g : Nat) (v : Group) : (s.setGroup g v).crp = s.crp := rfl
@[simp] theorem setGroup_replies (s : State) (g : Nat) (v : Group) : (s.setGroup g v).replies = s.replies := rfl
@[simp] theorem setGroup_fresh (s : State) (g : Nat) (v : Group) : (s.setGroup g v).fresh = s.fresh := rfl
@[simp] theorem setGroup_pending (s : State) (g : Nat) (v : Group) : (s.setGroup g v).pending = s.pending := rfl

/-! ### setEntry -/

@[simp] theorem setEntry_build (s : State) (k : Nat) (v : Entry) : (s.setEntry k v).build = s.build := rfl
@[simp] theorem setEntry_regs (s : State) (k : Nat) (v : Entry) : (s.setEntry k v).regs = s.regs := rfl
@[simp] theorem setEntry_clk (s : State) (k : Nat) (v : Entry) : (s.setEntry k v).clk = s.clk := rfl
@[simp] theorem setEntry_mem (s : State) (k : Nat) (v : Entry) : (s.setEntry k v).mem = s.mem := rfl
@[simp] theorem setEntry_arb (s : State) (k : Nat) (v : Entry) : (s.setEntry k v).arb = s.arb := rfl
@[simp] theorem setEntry_bmp (s : State) (k : Nat) (v : Entry) : (s.setEntry k v).bmp = s.bmp := rfl
@[simp] theorem setEntry_evc (s : State) (k : Nat) (v : Entry) : (s.setEntry k v).evc = s.evc := rfl
@[simp] theorem setEntry_cores (s : State) (k : Nat) (v : Entry) : (s.setEntry k v).cores = s.cores := rfl
@[simp] theorem setEntry_ctxs (s : State) (k : Nat) (v : Entry) : (s.setEntry k v).ctxs = s.ctxs := rfl
@[simp] theorem setEntry_scr (s : State) (k : Nat) (v : Entry) : (s.setEntry k v).scr = s.scr := rfl
@[simp] theorem setEntry_code (s : State) (k : Nat) (v : Entry) : (s.setEntry k v).code = s.code := rfl
@[simp] theorem setEntry_mint (s : State) (k : Nat) (v : Entry) : (s.setEntry k v).mint = s.mint := rfl
@[simp] theorem setEntry_alloc (s : State) (k : Nat) (v : Entry) : (s.setEntry k v).alloc = s.alloc := rfl
@[simp] theorem setEntry_hif (s : State) (k : Nat) (v : Entry) : (s.setEntry k v).hif = s.hif := rfl
@[simp] theorem setEntry_wian (s : State) (k : Nat) (v : Entry) : (s.setEntry k v).wian = s.wian := rfl
@[simp] theorem setEntry_sec (s : State) (k : Nat) (v : Entry) : (s.setEntry k v).sec = s.sec := rfl
@[simp] theorem setEntry_pmu (s : State) (k : Nat) (v : Entry) : (s.setEntry k v).pmu = s.pmu := rfl
@[simp] theorem setEntry_bulkOut (s : State) (k : Nat) (v : Entry) : (s.setEntry k v).bulkOut = s.bulkOut := rfl
@[simp] theorem setEntry_hlt (s : State) (k : Nat) (v : Entry) : (s.setEntry k v).hlt = s.hlt := rfl
@[simp] theorem setEntry_dbg (s : State) (k : Nat) (v : Entry) : (s.setEntry k v).dbg = s.dbg := rfl
@[simp] theorem setEntry_crp (s : State) (k : Nat) (v : Entry) : (s.setEntry k v).crp = s.crp := rfl
@[simp] theorem setEntry_replies (s : State) (k : Nat) (v : Entry) : (s.setEntry k v).replies = s.replies := rfl
@[simp] theorem setEntry_fresh (s : State) (k : Nat) (v : Entry) : (s.setEntry k v).fresh = s.fresh := rfl
@[simp] theorem setEntry_pending (s : State) (k : Nat) (v : Entry) : (s.setEntry k v).pending = s.pending := rfl

/-! ### setBmp -/

@[simp] theorem setBmp_build (s : State) (n : Nat) (v : Bmp) : (s.setBmp n v).build = s.build := rfl
@[simp] theorem setBmp_regs (s : State) (n : Nat) (v : Bmp) : (s.setBmp n v).regs = s.regs := rfl
@[simp] theorem setBmp_clk (s : State) (n : Nat) (v : Bmp) : (s.setBmp n v).clk = s.clk := rfl
@[simp] theorem setBmp_mem (s : State) (n : Nat) (v : Bmp) : (s.setBmp n v).mem = s.mem := rfl
@[simp] theorem setBmp_arb (s : State) (n : Nat) (v : Bmp) : (s.setBmp n v).arb = s.arb := rfl
@[simp] theorem setBmp_epc (s : State) (n : Nat) (v : Bmp) : (s.setBmp n v).epc = s.epc := rfl
@[simp] theorem setBmp_evc (s : State) (n : Nat) (v : Bmp) : (s.setBmp n v).evc = s.evc := rfl
@[simp] theorem setBmp_cores (s : State) (n : Nat) (v : Bmp) : (s.setBmp n v).cores = s.cores := rfl
@[simp] theorem setBmp_ctxs (s : State) (n : Nat) (v : Bmp) : (s.setBmp n v).ctxs = s.ctxs := rfl
@[simp] theorem setBmp_scr (s : State) (n : Nat) (v : Bmp) : (s.setBmp n v).scr = s.scr := rfl
@[simp] theorem setBmp_code (s : State) (n : Nat) (v : Bmp) : (s.setBmp n v).code = s.code := rfl
@[simp] theorem setBmp_mint (s : State) (n : Nat) (v : Bmp) : (s.setBmp n v).mint = s.mint := rfl
@[simp] theorem setBmp_alloc (s : State) (n : Nat) (v : Bmp) : (s.setBmp n v).alloc = s.alloc := rfl
@[simp] theorem setBmp_hif (s : State) (n : Nat) (v : Bmp) : (s.setBmp n v).hif = s.hif := rfl
@[simp] theorem setBmp_wian (s : State) (n : Nat) (v : Bmp) : (s.setBmp n v).wian = s.wian := rfl
@[simp] theorem setBmp_sec (s : State) (n : Nat) (v : Bmp) : (s.setBmp n v).sec = s.sec := rfl
@[simp] theorem setBmp_pmu (s : State) (n : Nat) (v : Bmp) : (s.setBmp n v).pmu = s.pmu := rfl
@[simp] theorem setBmp_bulkOut (s : State) (n : Nat) (v : Bmp) : (s.setBmp n v).bulkOut = s.bulkOut := rfl
@[simp] theorem setBmp_hlt (s : State) (n : Nat) (v : Bmp) : (s.setBmp n v).hlt = s.hlt := rfl
@[simp] theorem setBmp_dbg (s : State) (n : Nat) (v : Bmp) : (s.setBmp n v).dbg = s.dbg := rfl
@[simp] theorem setBmp_crp (s : State) (n : Nat) (v : Bmp) : (s.setBmp n v).crp = s.crp := rfl
@[simp] theorem setBmp_replies (s : State) (n : Nat) (v : Bmp) : (s.setBmp n v).replies = s.replies := rfl
@[simp] theorem setBmp_fresh (s : State) (n : Nat) (v : Bmp) : (s.setBmp n v).fresh = s.fresh := rfl
@[simp] theorem setBmp_pending (s : State) (n : Nat) (v : Bmp) : (s.setBmp n v).pending = s.pending := rfl

/-! ### setSource -/

@[simp] theorem setSource_build (s : State) (e : Nat) (v : Source) : (s.setSource e v).build = s.build := rfl
@[simp] theorem setSource_regs (s : State) (e : Nat) (v : Source) : (s.setSource e v).regs = s.regs := rfl
@[simp] theorem setSource_clk (s : State) (e : Nat) (v : Source) : (s.setSource e v).clk = s.clk := rfl
@[simp] theorem setSource_mem (s : State) (e : Nat) (v : Source) : (s.setSource e v).mem = s.mem := rfl
@[simp] theorem setSource_arb (s : State) (e : Nat) (v : Source) : (s.setSource e v).arb = s.arb := rfl
@[simp] theorem setSource_epc (s : State) (e : Nat) (v : Source) : (s.setSource e v).epc = s.epc := rfl
@[simp] theorem setSource_bmp (s : State) (e : Nat) (v : Source) : (s.setSource e v).bmp = s.bmp := rfl
@[simp] theorem setSource_cores (s : State) (e : Nat) (v : Source) : (s.setSource e v).cores = s.cores := rfl
@[simp] theorem setSource_ctxs (s : State) (e : Nat) (v : Source) : (s.setSource e v).ctxs = s.ctxs := rfl
@[simp] theorem setSource_scr (s : State) (e : Nat) (v : Source) : (s.setSource e v).scr = s.scr := rfl
@[simp] theorem setSource_code (s : State) (e : Nat) (v : Source) : (s.setSource e v).code = s.code := rfl
@[simp] theorem setSource_mint (s : State) (e : Nat) (v : Source) : (s.setSource e v).mint = s.mint := rfl
@[simp] theorem setSource_alloc (s : State) (e : Nat) (v : Source) : (s.setSource e v).alloc = s.alloc := rfl
@[simp] theorem setSource_hif (s : State) (e : Nat) (v : Source) : (s.setSource e v).hif = s.hif := rfl
@[simp] theorem setSource_wian (s : State) (e : Nat) (v : Source) : (s.setSource e v).wian = s.wian := rfl
@[simp] theorem setSource_sec (s : State) (e : Nat) (v : Source) : (s.setSource e v).sec = s.sec := rfl
@[simp] theorem setSource_pmu (s : State) (e : Nat) (v : Source) : (s.setSource e v).pmu = s.pmu := rfl
@[simp] theorem setSource_bulkOut (s : State) (e : Nat) (v : Source) : (s.setSource e v).bulkOut = s.bulkOut := rfl
@[simp] theorem setSource_hlt (s : State) (e : Nat) (v : Source) : (s.setSource e v).hlt = s.hlt := rfl
@[simp] theorem setSource_dbg (s : State) (e : Nat) (v : Source) : (s.setSource e v).dbg = s.dbg := rfl
@[simp] theorem setSource_crp (s : State) (e : Nat) (v : Source) : (s.setSource e v).crp = s.crp := rfl
@[simp] theorem setSource_replies (s : State) (e : Nat) (v : Source) : (s.setSource e v).replies = s.replies := rfl
@[simp] theorem setSource_fresh (s : State) (e : Nat) (v : Source) : (s.setSource e v).fresh = s.fresh := rfl
@[simp] theorem setSource_pending (s : State) (e : Nat) (v : Source) : (s.setSource e v).pending = s.pending := rfl

/-! ### setTarget -/

@[simp] theorem setTarget_build (s : State) (n : Nat) (v : Target) : (s.setTarget n v).build = s.build := rfl
@[simp] theorem setTarget_regs (s : State) (n : Nat) (v : Target) : (s.setTarget n v).regs = s.regs := rfl
@[simp] theorem setTarget_clk (s : State) (n : Nat) (v : Target) : (s.setTarget n v).clk = s.clk := rfl
@[simp] theorem setTarget_mem (s : State) (n : Nat) (v : Target) : (s.setTarget n v).mem = s.mem := rfl
@[simp] theorem setTarget_arb (s : State) (n : Nat) (v : Target) : (s.setTarget n v).arb = s.arb := rfl
@[simp] theorem setTarget_epc (s : State) (n : Nat) (v : Target) : (s.setTarget n v).epc = s.epc := rfl
@[simp] theorem setTarget_bmp (s : State) (n : Nat) (v : Target) : (s.setTarget n v).bmp = s.bmp := rfl
@[simp] theorem setTarget_cores (s : State) (n : Nat) (v : Target) : (s.setTarget n v).cores = s.cores := rfl
@[simp] theorem setTarget_ctxs (s : State) (n : Nat) (v : Target) : (s.setTarget n v).ctxs = s.ctxs := rfl
@[simp] theorem setTarget_scr (s : State) (n : Nat) (v : Target) : (s.setTarget n v).scr = s.scr := rfl
@[simp] theorem setTarget_code (s : State) (n : Nat) (v : Target) : (s.setTarget n v).code = s.code := rfl
@[simp] theorem setTarget_mint (s : State) (n : Nat) (v : Target) : (s.setTarget n v).mint = s.mint := rfl
@[simp] theorem setTarget_alloc (s : State) (n : Nat) (v : Target) : (s.setTarget n v).alloc = s.alloc := rfl
@[simp] theorem setTarget_hif (s : State) (n : Nat) (v : Target) : (s.setTarget n v).hif = s.hif := rfl
@[simp] theorem setTarget_wian (s : State) (n : Nat) (v : Target) : (s.setTarget n v).wian = s.wian := rfl
@[simp] theorem setTarget_sec (s : State) (n : Nat) (v : Target) : (s.setTarget n v).sec = s.sec := rfl
@[simp] theorem setTarget_pmu (s : State) (n : Nat) (v : Target) : (s.setTarget n v).pmu = s.pmu := rfl
@[simp] theorem setTarget_bulkOut (s : State) (n : Nat) (v : Target) : (s.setTarget n v).bulkOut = s.bulkOut := rfl
@[simp] theorem setTarget_hlt (s : State) (n : Nat) (v : Target) : (s.setTarget n v).hlt = s.hlt := rfl
@[simp] theorem setTarget_dbg (s : State) (n : Nat) (v : Target) : (s.setTarget n v).dbg = s.dbg := rfl
@[simp] theorem setTarget_crp (s : State) (n : Nat) (v : Target) : (s.setTarget n v).crp = s.crp := rfl
@[simp] theorem setTarget_replies (s : State) (n : Nat) (v : Target) : (s.setTarget n v).replies = s.replies := rfl
@[simp] theorem setTarget_fresh (s : State) (n : Nat) (v : Target) : (s.setTarget n v).fresh = s.fresh := rfl
@[simp] theorem setTarget_pending (s : State) (n : Nat) (v : Target) : (s.setTarget n v).pending = s.pending := rfl

/-! ### setCoreAt -/

@[simp] theorem setCoreAt_build (s : State) (k : Nat) (v : Core) : (s.setCoreAt k v).build = s.build := rfl
@[simp] theorem setCoreAt_regs (s : State) (k : Nat) (v : Core) : (s.setCoreAt k v).regs = s.regs := rfl
@[simp] theorem setCoreAt_clk (s : State) (k : Nat) (v : Core) : (s.setCoreAt k v).clk = s.clk := rfl
@[simp] theorem setCoreAt_mem (s : State) (k : Nat) (v : Core) : (s.setCoreAt k v).mem = s.mem := rfl
@[simp] theorem setCoreAt_arb (s : State) (k : Nat) (v : Core) : (s.setCoreAt k v).arb = s.arb := rfl
@[simp] theorem setCoreAt_epc (s : State) (k : Nat) (v : Core) : (s.setCoreAt k v).epc = s.epc := rfl
@[simp] theorem setCoreAt_bmp (s : State) (k : Nat) (v : Core) : (s.setCoreAt k v).bmp = s.bmp := rfl
@[simp] theorem setCoreAt_evc (s : State) (k : Nat) (v : Core) : (s.setCoreAt k v).evc = s.evc := rfl
@[simp] theorem setCoreAt_ctxs (s : State) (k : Nat) (v : Core) : (s.setCoreAt k v).ctxs = s.ctxs := rfl
@[simp] theorem setCoreAt_scr (s : State) (k : Nat) (v : Core) : (s.setCoreAt k v).scr = s.scr := rfl
@[simp] theorem setCoreAt_code (s : State) (k : Nat) (v : Core) : (s.setCoreAt k v).code = s.code := rfl
@[simp] theorem setCoreAt_mint (s : State) (k : Nat) (v : Core) : (s.setCoreAt k v).mint = s.mint := rfl
@[simp] theorem setCoreAt_alloc (s : State) (k : Nat) (v : Core) : (s.setCoreAt k v).alloc = s.alloc := rfl
@[simp] theorem setCoreAt_hif (s : State) (k : Nat) (v : Core) : (s.setCoreAt k v).hif = s.hif := rfl
@[simp] theorem setCoreAt_wian (s : State) (k : Nat) (v : Core) : (s.setCoreAt k v).wian = s.wian := rfl
@[simp] theorem setCoreAt_sec (s : State) (k : Nat) (v : Core) : (s.setCoreAt k v).sec = s.sec := rfl
@[simp] theorem setCoreAt_pmu (s : State) (k : Nat) (v : Core) : (s.setCoreAt k v).pmu = s.pmu := rfl
@[simp] theorem setCoreAt_bulkOut (s : State) (k : Nat) (v : Core) : (s.setCoreAt k v).bulkOut = s.bulkOut := rfl
@[simp] theorem setCoreAt_hlt (s : State) (k : Nat) (v : Core) : (s.setCoreAt k v).hlt = s.hlt := rfl
@[simp] theorem setCoreAt_dbg (s : State) (k : Nat) (v : Core) : (s.setCoreAt k v).dbg = s.dbg := rfl
@[simp] theorem setCoreAt_crp (s : State) (k : Nat) (v : Core) : (s.setCoreAt k v).crp = s.crp := rfl
@[simp] theorem setCoreAt_replies (s : State) (k : Nat) (v : Core) : (s.setCoreAt k v).replies = s.replies := rfl
@[simp] theorem setCoreAt_fresh (s : State) (k : Nat) (v : Core) : (s.setCoreAt k v).fresh = s.fresh := rfl
@[simp] theorem setCoreAt_pending (s : State) (k : Nat) (v : Core) : (s.setCoreAt k v).pending = s.pending := rfl

/-! ### setCore -/

@[simp] theorem setCore_build (s : State) (c : CoreId) (v : Core) : (s.setCore c v).build = s.build := rfl
@[simp] theorem setCore_regs (s : State) (c : CoreId) (v : Core) : (s.setCore c v).regs = s.regs := rfl
@[simp] theorem setCore_clk (s : State) (c : CoreId) (v : Core) : (s.setCore c v).clk = s.clk := rfl
@[simp] theorem setCore_mem (s : State) (c : CoreId) (v : Core) : (s.setCore c v).mem = s.mem := rfl
@[simp] theorem setCore_arb (s : State) (c : CoreId) (v : Core) : (s.setCore c v).arb = s.arb := rfl
@[simp] theorem setCore_epc (s : State) (c : CoreId) (v : Core) : (s.setCore c v).epc = s.epc := rfl
@[simp] theorem setCore_bmp (s : State) (c : CoreId) (v : Core) : (s.setCore c v).bmp = s.bmp := rfl
@[simp] theorem setCore_evc (s : State) (c : CoreId) (v : Core) : (s.setCore c v).evc = s.evc := rfl
@[simp] theorem setCore_ctxs (s : State) (c : CoreId) (v : Core) : (s.setCore c v).ctxs = s.ctxs := rfl
@[simp] theorem setCore_scr (s : State) (c : CoreId) (v : Core) : (s.setCore c v).scr = s.scr := rfl
@[simp] theorem setCore_code (s : State) (c : CoreId) (v : Core) : (s.setCore c v).code = s.code := rfl
@[simp] theorem setCore_mint (s : State) (c : CoreId) (v : Core) : (s.setCore c v).mint = s.mint := rfl
@[simp] theorem setCore_alloc (s : State) (c : CoreId) (v : Core) : (s.setCore c v).alloc = s.alloc := rfl
@[simp] theorem setCore_hif (s : State) (c : CoreId) (v : Core) : (s.setCore c v).hif = s.hif := rfl
@[simp] theorem setCore_wian (s : State) (c : CoreId) (v : Core) : (s.setCore c v).wian = s.wian := rfl
@[simp] theorem setCore_sec (s : State) (c : CoreId) (v : Core) : (s.setCore c v).sec = s.sec := rfl
@[simp] theorem setCore_pmu (s : State) (c : CoreId) (v : Core) : (s.setCore c v).pmu = s.pmu := rfl
@[simp] theorem setCore_bulkOut (s : State) (c : CoreId) (v : Core) : (s.setCore c v).bulkOut = s.bulkOut := rfl
@[simp] theorem setCore_hlt (s : State) (c : CoreId) (v : Core) : (s.setCore c v).hlt = s.hlt := rfl
@[simp] theorem setCore_dbg (s : State) (c : CoreId) (v : Core) : (s.setCore c v).dbg = s.dbg := rfl
@[simp] theorem setCore_crp (s : State) (c : CoreId) (v : Core) : (s.setCore c v).crp = s.crp := rfl
@[simp] theorem setCore_replies (s : State) (c : CoreId) (v : Core) : (s.setCore c v).replies = s.replies := rfl
@[simp] theorem setCore_fresh (s : State) (c : CoreId) (v : Core) : (s.setCore c v).fresh = s.fresh := rfl
@[simp] theorem setCore_pending (s : State) (c : CoreId) (v : Core) : (s.setCore c v).pending = s.pending := rfl

/-! ### setCtxAt -/

@[simp] theorem setCtxAt_build (s : State) (k : Nat) (v : Ctx) : (s.setCtxAt k v).build = s.build := rfl
@[simp] theorem setCtxAt_regs (s : State) (k : Nat) (v : Ctx) : (s.setCtxAt k v).regs = s.regs := rfl
@[simp] theorem setCtxAt_clk (s : State) (k : Nat) (v : Ctx) : (s.setCtxAt k v).clk = s.clk := rfl
@[simp] theorem setCtxAt_mem (s : State) (k : Nat) (v : Ctx) : (s.setCtxAt k v).mem = s.mem := rfl
@[simp] theorem setCtxAt_arb (s : State) (k : Nat) (v : Ctx) : (s.setCtxAt k v).arb = s.arb := rfl
@[simp] theorem setCtxAt_epc (s : State) (k : Nat) (v : Ctx) : (s.setCtxAt k v).epc = s.epc := rfl
@[simp] theorem setCtxAt_bmp (s : State) (k : Nat) (v : Ctx) : (s.setCtxAt k v).bmp = s.bmp := rfl
@[simp] theorem setCtxAt_evc (s : State) (k : Nat) (v : Ctx) : (s.setCtxAt k v).evc = s.evc := rfl
@[simp] theorem setCtxAt_cores (s : State) (k : Nat) (v : Ctx) : (s.setCtxAt k v).cores = s.cores := rfl
@[simp] theorem setCtxAt_scr (s : State) (k : Nat) (v : Ctx) : (s.setCtxAt k v).scr = s.scr := rfl
@[simp] theorem setCtxAt_code (s : State) (k : Nat) (v : Ctx) : (s.setCtxAt k v).code = s.code := rfl
@[simp] theorem setCtxAt_mint (s : State) (k : Nat) (v : Ctx) : (s.setCtxAt k v).mint = s.mint := rfl
@[simp] theorem setCtxAt_alloc (s : State) (k : Nat) (v : Ctx) : (s.setCtxAt k v).alloc = s.alloc := rfl
@[simp] theorem setCtxAt_hif (s : State) (k : Nat) (v : Ctx) : (s.setCtxAt k v).hif = s.hif := rfl
@[simp] theorem setCtxAt_wian (s : State) (k : Nat) (v : Ctx) : (s.setCtxAt k v).wian = s.wian := rfl
@[simp] theorem setCtxAt_sec (s : State) (k : Nat) (v : Ctx) : (s.setCtxAt k v).sec = s.sec := rfl
@[simp] theorem setCtxAt_pmu (s : State) (k : Nat) (v : Ctx) : (s.setCtxAt k v).pmu = s.pmu := rfl
@[simp] theorem setCtxAt_bulkOut (s : State) (k : Nat) (v : Ctx) : (s.setCtxAt k v).bulkOut = s.bulkOut := rfl
@[simp] theorem setCtxAt_hlt (s : State) (k : Nat) (v : Ctx) : (s.setCtxAt k v).hlt = s.hlt := rfl
@[simp] theorem setCtxAt_dbg (s : State) (k : Nat) (v : Ctx) : (s.setCtxAt k v).dbg = s.dbg := rfl
@[simp] theorem setCtxAt_crp (s : State) (k : Nat) (v : Ctx) : (s.setCtxAt k v).crp = s.crp := rfl
@[simp] theorem setCtxAt_replies (s : State) (k : Nat) (v : Ctx) : (s.setCtxAt k v).replies = s.replies := rfl
@[simp] theorem setCtxAt_fresh (s : State) (k : Nat) (v : Ctx) : (s.setCtxAt k v).fresh = s.fresh := rfl
@[simp] theorem setCtxAt_pending (s : State) (k : Nat) (v : Ctx) : (s.setCtxAt k v).pending = s.pending := rfl

/-! ### setRow -/

@[simp] theorem setRow_build (s : State) (k : Nat) (d : Gran) (t : Bool) : (s.setRow k d t).build = s.build := rfl
@[simp] theorem setRow_regs (s : State) (k : Nat) (d : Gran) (t : Bool) : (s.setRow k d t).regs = s.regs := rfl
@[simp] theorem setRow_clk (s : State) (k : Nat) (d : Gran) (t : Bool) : (s.setRow k d t).clk = s.clk := rfl
@[simp] theorem setRow_arb (s : State) (k : Nat) (d : Gran) (t : Bool) : (s.setRow k d t).arb = s.arb := rfl
@[simp] theorem setRow_epc (s : State) (k : Nat) (d : Gran) (t : Bool) : (s.setRow k d t).epc = s.epc := rfl
@[simp] theorem setRow_bmp (s : State) (k : Nat) (d : Gran) (t : Bool) : (s.setRow k d t).bmp = s.bmp := rfl
@[simp] theorem setRow_evc (s : State) (k : Nat) (d : Gran) (t : Bool) : (s.setRow k d t).evc = s.evc := rfl
@[simp] theorem setRow_cores (s : State) (k : Nat) (d : Gran) (t : Bool) : (s.setRow k d t).cores = s.cores := rfl
@[simp] theorem setRow_ctxs (s : State) (k : Nat) (d : Gran) (t : Bool) : (s.setRow k d t).ctxs = s.ctxs := rfl
@[simp] theorem setRow_scr (s : State) (k : Nat) (d : Gran) (t : Bool) : (s.setRow k d t).scr = s.scr := rfl
@[simp] theorem setRow_code (s : State) (k : Nat) (d : Gran) (t : Bool) : (s.setRow k d t).code = s.code := rfl
@[simp] theorem setRow_mint (s : State) (k : Nat) (d : Gran) (t : Bool) : (s.setRow k d t).mint = s.mint := rfl
@[simp] theorem setRow_alloc (s : State) (k : Nat) (d : Gran) (t : Bool) : (s.setRow k d t).alloc = s.alloc := rfl
@[simp] theorem setRow_hif (s : State) (k : Nat) (d : Gran) (t : Bool) : (s.setRow k d t).hif = s.hif := rfl
@[simp] theorem setRow_wian (s : State) (k : Nat) (d : Gran) (t : Bool) : (s.setRow k d t).wian = s.wian := rfl
@[simp] theorem setRow_sec (s : State) (k : Nat) (d : Gran) (t : Bool) : (s.setRow k d t).sec = s.sec := rfl
@[simp] theorem setRow_pmu (s : State) (k : Nat) (d : Gran) (t : Bool) : (s.setRow k d t).pmu = s.pmu := rfl
@[simp] theorem setRow_bulkOut (s : State) (k : Nat) (d : Gran) (t : Bool) : (s.setRow k d t).bulkOut = s.bulkOut := rfl
@[simp] theorem setRow_hlt (s : State) (k : Nat) (d : Gran) (t : Bool) : (s.setRow k d t).hlt = s.hlt := rfl
@[simp] theorem setRow_dbg (s : State) (k : Nat) (d : Gran) (t : Bool) : (s.setRow k d t).dbg = s.dbg := rfl
@[simp] theorem setRow_crp (s : State) (k : Nat) (d : Gran) (t : Bool) : (s.setRow k d t).crp = s.crp := rfl
@[simp] theorem setRow_replies (s : State) (k : Nat) (d : Gran) (t : Bool) : (s.setRow k d t).replies = s.replies := rfl
@[simp] theorem setRow_fresh (s : State) (k : Nat) (d : Gran) (t : Bool) : (s.setRow k d t).fresh = s.fresh := rfl
@[simp] theorem setRow_pending (s : State) (k : Nat) (d : Gran) (t : Bool) : (s.setRow k d t).pending = s.pending := rfl

/-! ### setScr -/

@[simp] theorem setScr_build (s : State) (g : Nat) (d : Gran) (be : BitVec 16) (t : Bool) : (s.setScr g d be t).build = s.build := rfl
@[simp] theorem setScr_regs (s : State) (g : Nat) (d : Gran) (be : BitVec 16) (t : Bool) : (s.setScr g d be t).regs = s.regs := rfl
@[simp] theorem setScr_clk (s : State) (g : Nat) (d : Gran) (be : BitVec 16) (t : Bool) : (s.setScr g d be t).clk = s.clk := rfl
@[simp] theorem setScr_mem (s : State) (g : Nat) (d : Gran) (be : BitVec 16) (t : Bool) : (s.setScr g d be t).mem = s.mem := rfl
@[simp] theorem setScr_arb (s : State) (g : Nat) (d : Gran) (be : BitVec 16) (t : Bool) : (s.setScr g d be t).arb = s.arb := rfl
@[simp] theorem setScr_epc (s : State) (g : Nat) (d : Gran) (be : BitVec 16) (t : Bool) : (s.setScr g d be t).epc = s.epc := rfl
@[simp] theorem setScr_bmp (s : State) (g : Nat) (d : Gran) (be : BitVec 16) (t : Bool) : (s.setScr g d be t).bmp = s.bmp := rfl
@[simp] theorem setScr_evc (s : State) (g : Nat) (d : Gran) (be : BitVec 16) (t : Bool) : (s.setScr g d be t).evc = s.evc := rfl
@[simp] theorem setScr_cores (s : State) (g : Nat) (d : Gran) (be : BitVec 16) (t : Bool) : (s.setScr g d be t).cores = s.cores := rfl
@[simp] theorem setScr_ctxs (s : State) (g : Nat) (d : Gran) (be : BitVec 16) (t : Bool) : (s.setScr g d be t).ctxs = s.ctxs := rfl
@[simp] theorem setScr_code (s : State) (g : Nat) (d : Gran) (be : BitVec 16) (t : Bool) : (s.setScr g d be t).code = s.code := rfl
@[simp] theorem setScr_mint (s : State) (g : Nat) (d : Gran) (be : BitVec 16) (t : Bool) : (s.setScr g d be t).mint = s.mint := rfl
@[simp] theorem setScr_alloc (s : State) (g : Nat) (d : Gran) (be : BitVec 16) (t : Bool) : (s.setScr g d be t).alloc = s.alloc := rfl
@[simp] theorem setScr_hif (s : State) (g : Nat) (d : Gran) (be : BitVec 16) (t : Bool) : (s.setScr g d be t).hif = s.hif := rfl
@[simp] theorem setScr_wian (s : State) (g : Nat) (d : Gran) (be : BitVec 16) (t : Bool) : (s.setScr g d be t).wian = s.wian := rfl
@[simp] theorem setScr_sec (s : State) (g : Nat) (d : Gran) (be : BitVec 16) (t : Bool) : (s.setScr g d be t).sec = s.sec := rfl
@[simp] theorem setScr_pmu (s : State) (g : Nat) (d : Gran) (be : BitVec 16) (t : Bool) : (s.setScr g d be t).pmu = s.pmu := rfl
@[simp] theorem setScr_bulkOut (s : State) (g : Nat) (d : Gran) (be : BitVec 16) (t : Bool) : (s.setScr g d be t).bulkOut = s.bulkOut := rfl
@[simp] theorem setScr_hlt (s : State) (g : Nat) (d : Gran) (be : BitVec 16) (t : Bool) : (s.setScr g d be t).hlt = s.hlt := rfl
@[simp] theorem setScr_dbg (s : State) (g : Nat) (d : Gran) (be : BitVec 16) (t : Bool) : (s.setScr g d be t).dbg = s.dbg := rfl
@[simp] theorem setScr_crp (s : State) (g : Nat) (d : Gran) (be : BitVec 16) (t : Bool) : (s.setScr g d be t).crp = s.crp := rfl
@[simp] theorem setScr_replies (s : State) (g : Nat) (d : Gran) (be : BitVec 16) (t : Bool) : (s.setScr g d be t).replies = s.replies := rfl
@[simp] theorem setScr_fresh (s : State) (g : Nat) (d : Gran) (be : BitVec 16) (t : Bool) : (s.setScr g d be t).fresh = s.fresh := rfl
@[simp] theorem setScr_pending (s : State) (g : Nat) (d : Gran) (be : BitVec 16) (t : Bool) : (s.setScr g d be t).pending = s.pending := rfl

/-! ### Tables -/

@[simp] theorem group_setGroup_self (s : State) (k : Nat) (v : Group) : (s.setGroup k v).group k = v := by simp [group, setGroup]
theorem group_setGroup_ne (s : State) {k j : Nat} (h : j ≠ k) (v : Group) : (s.setGroup k v).group j = s.group j := by
  simp [group, setGroup, Tbl.get_set_ne _ _ h]
@[simp] theorem entry_setEntry_self (s : State) (k : Nat) (v : Entry) : (s.setEntry k v).entry k = v := by simp [entry, setEntry]
theorem entry_setEntry_ne (s : State) {k j : Nat} (h : j ≠ k) (v : Entry) : (s.setEntry k v).entry j = s.entry j := by
  simp [entry, setEntry, Tbl.get_set_ne _ _ h]
@[simp] theorem bmpOf_setBmp_self (s : State) (k : Nat) (v : Bmp) : (s.setBmp k v).bmpOf k = v := by simp [bmpOf, setBmp]
theorem bmpOf_setBmp_ne (s : State) {k j : Nat} (h : j ≠ k) (v : Bmp) : (s.setBmp k v).bmpOf j = s.bmpOf j := by
  simp [bmpOf, setBmp, Tbl.get_set_ne _ _ h]
@[simp] theorem source_setSource_self (s : State) (k : Nat) (v : Source) : (s.setSource k v).source k = v := by simp [source, setSource]
theorem source_setSource_ne (s : State) {k j : Nat} (h : j ≠ k) (v : Source) : (s.setSource k v).source j = s.source j := by
  simp [source, setSource, Tbl.get_set_ne _ _ h]
@[simp] theorem target_setTarget_self (s : State) (k : Nat) (v : Target) : (s.setTarget k v).target k = v := by simp [target, setTarget]
theorem target_setTarget_ne (s : State) {k j : Nat} (h : j ≠ k) (v : Target) : (s.setTarget k v).target j = s.target j := by
  simp [target, setTarget, Tbl.get_set_ne _ _ h]
@[simp] theorem coreAt_setCoreAt_self (s : State) (k : Nat) (v : Core) : (s.setCoreAt k v).coreAt k = v := by simp [coreAt, setCoreAt]
theorem coreAt_setCoreAt_ne (s : State) {k j : Nat} (h : j ≠ k) (v : Core) : (s.setCoreAt k v).coreAt j = s.coreAt j := by
  simp [coreAt, setCoreAt, Tbl.get_set_ne _ _ h]
@[simp] theorem ctxAt_setCtxAt_self (s : State) (k : Nat) (v : Ctx) : (s.setCtxAt k v).ctxAt k = v := by simp [ctxAt, setCtxAt]
theorem ctxAt_setCtxAt_ne (s : State) {k j : Nat} (h : j ≠ k) (v : Ctx) : (s.setCtxAt k v).ctxAt j = s.ctxAt j := by
  simp [ctxAt, setCtxAt, Tbl.get_set_ne _ _ h]

theorem coreKey_inj {c d : CoreId} {b : Build} (hc : coreBuilt b c = true) (hd : coreBuilt b d = true) (h : coreKey c = coreKey d) : c = d := by
  have hb : b.seqs ≤ 36 := by cases b <;> decide
  cases c <;> cases d <;> simp_all [coreKey, coreBuilt] <;> omega

@[simp] theorem core_setCore_self (s : State) (c : CoreId) (v : Core) : (s.setCore c v).core c = v := by simp [core, setCore]
theorem core_setCore_ne (s : State) {c d : CoreId} (h : coreKey d ≠ coreKey c) (v : Core) : (s.setCore c v).core d = s.core d := by
  simp [core, setCore, coreAt_setCoreAt_ne _ h]

@[simp] theorem group_setReg (s : State) (off : Nat) (v : Reg) (g : Nat) : (s.setReg off v).group g = s.group g := rfl
@[simp] theorem entry_setReg (s : State) (off : Nat) (v : Reg) (k : Nat) : (s.setReg off v).entry k = s.entry k := rfl
@[simp] theorem stamp_setReg (s : State) (off : Nat) (v : Reg) (b : Nat) : (s.setReg off v).stamp b = s.stamp b := rfl
@[simp] theorem bmpOf_setReg (s : State) (off : Nat) (v : Reg) (n : Nat) : (s.setReg off v).bmpOf n = s.bmpOf n := rfl
@[simp] theorem source_setReg (s : State) (off : Nat) (v : Reg) (e : Nat) : (s.setReg off v).source e = s.source e := rfl
@[simp] theorem target_setReg (s : State) (off : Nat) (v : Reg) (n : Nat) : (s.setReg off v).target n = s.target n := rfl
@[simp] theorem coreAt_setReg (s : State) (off : Nat) (v : Reg) (n : Nat) : (s.setReg off v).coreAt n = s.coreAt n := rfl
@[simp] theorem core_setReg (s : State) (off : Nat) (v : Reg) (d : CoreId) : (s.setReg off v).core d = s.core d := rfl
@[simp] theorem ctxAt_setReg (s : State) (off : Nat) (v : Reg) (n : Nat) : (s.setReg off v).ctxAt n = s.ctxAt n := rfl
@[simp] theorem group_setFld (s : State) (f : Fld) (v : Nat) (g : Nat) : (s.setFld f v).group g = s.group g := rfl
@[simp] theorem entry_setFld (s : State) (f : Fld) (v : Nat) (k : Nat) : (s.setFld f v).entry k = s.entry k := rfl
@[simp] theorem stamp_setFld (s : State) (f : Fld) (v : Nat) (b : Nat) : (s.setFld f v).stamp b = s.stamp b := rfl
@[simp] theorem bmpOf_setFld (s : State) (f : Fld) (v : Nat) (n : Nat) : (s.setFld f v).bmpOf n = s.bmpOf n := rfl
@[simp] theorem source_setFld (s : State) (f : Fld) (v : Nat) (e : Nat) : (s.setFld f v).source e = s.source e := rfl
@[simp] theorem target_setFld (s : State) (f : Fld) (v : Nat) (n : Nat) : (s.setFld f v).target n = s.target n := rfl
@[simp] theorem coreAt_setFld (s : State) (f : Fld) (v : Nat) (n : Nat) : (s.setFld f v).coreAt n = s.coreAt n := rfl
@[simp] theorem core_setFld (s : State) (f : Fld) (v : Nat) (d : CoreId) : (s.setFld f v).core d = s.core d := rfl
@[simp] theorem ctxAt_setFld (s : State) (f : Fld) (v : Nat) (n : Nat) : (s.setFld f v).ctxAt n = s.ctxAt n := rfl
@[simp] theorem group_raiseBit (s : State) (f : Fld) (g : Nat) : (s.raiseBit f).group g = s.group g := rfl
@[simp] theorem entry_raiseBit (s : State) (f : Fld) (k : Nat) : (s.raiseBit f).entry k = s.entry k := rfl
@[simp] theorem stamp_raiseBit (s : State) (f : Fld) (b : Nat) : (s.raiseBit f).stamp b = s.stamp b := rfl
@[simp] theorem bmpOf_raiseBit (s : State) (f : Fld) (n : Nat) : (s.raiseBit f).bmpOf n = s.bmpOf n := rfl
@[simp] theorem source_raiseBit (s : State) (f : Fld) (e : Nat) : (s.raiseBit f).source e = s.source e := rfl
@[simp] theorem target_raiseBit (s : State) (f : Fld) (n : Nat) : (s.raiseBit f).target n = s.target n := rfl
@[simp] theorem coreAt_raiseBit (s : State) (f : Fld) (n : Nat) : (s.raiseBit f).coreAt n = s.coreAt n := rfl
@[simp] theorem core_raiseBit (s : State) (f : Fld) (d : CoreId) : (s.raiseBit f).core d = s.core d := rfl
@[simp] theorem ctxAt_raiseBit (s : State) (f : Fld) (n : Nat) : (s.raiseBit f).ctxAt n = s.ctxAt n := rfl
@[simp] theorem group_clearFld (s : State) (f : Fld) (g : Nat) : (s.clearFld f).group g = s.group g := rfl
@[simp] theorem entry_clearFld (s : State) (f : Fld) (k : Nat) : (s.clearFld f).entry k = s.entry k := rfl
@[simp] theorem stamp_clearFld (s : State) (f : Fld) (b : Nat) : (s.clearFld f).stamp b = s.stamp b := rfl
@[simp] theorem bmpOf_clearFld (s : State) (f : Fld) (n : Nat) : (s.clearFld f).bmpOf n = s.bmpOf n := rfl
@[simp] theorem source_clearFld (s : State) (f : Fld) (e : Nat) : (s.clearFld f).source e = s.source e := rfl
@[simp] theorem target_clearFld (s : State) (f : Fld) (n : Nat) : (s.clearFld f).target n = s.target n := rfl
@[simp] theorem coreAt_clearFld (s : State) (f : Fld) (n : Nat) : (s.clearFld f).coreAt n = s.coreAt n := rfl
@[simp] theorem core_clearFld (s : State) (f : Fld) (d : CoreId) : (s.clearFld f).core d = s.core d := rfl
@[simp] theorem ctxAt_clearFld (s : State) (f : Fld) (n : Nat) : (s.clearFld f).ctxAt n = s.ctxAt n := rfl
@[simp] theorem group_addSat (s : State) (f : Fld) (n : Nat) (g : Nat) : (s.addSat f n).group g = s.group g := rfl
@[simp] theorem entry_addSat (s : State) (f : Fld) (n : Nat) (k : Nat) : (s.addSat f n).entry k = s.entry k := rfl
@[simp] theorem stamp_addSat (s : State) (f : Fld) (n : Nat) (b : Nat) : (s.addSat f n).stamp b = s.stamp b := rfl
@[simp] theorem bmpOf_addSat (s : State) (f : Fld) (n : Nat) (x : Nat) : (s.addSat f n).bmpOf x = s.bmpOf x := rfl
@[simp] theorem source_addSat (s : State) (f : Fld) (n : Nat) (e : Nat) : (s.addSat f n).source e = s.source e := rfl
@[simp] theorem target_addSat (s : State) (f : Fld) (n : Nat) (x : Nat) : (s.addSat f n).target x = s.target x := rfl
@[simp] theorem coreAt_addSat (s : State) (f : Fld) (n : Nat) (x : Nat) : (s.addSat f n).coreAt x = s.coreAt x := rfl
@[simp] theorem core_addSat (s : State) (f : Fld) (n : Nat) (d : CoreId) : (s.addSat f n).core d = s.core d := rfl
@[simp] theorem ctxAt_addSat (s : State) (f : Fld) (n : Nat) (x : Nat) : (s.addSat f n).ctxAt x = s.ctxAt x := rfl
@[simp] theorem group_setReg64 (s : State) (lo hi : Nat) (v : BitVec 64) (g : Nat) : (s.setReg64 lo hi v).group g = s.group g := rfl
@[simp] theorem entry_setReg64 (s : State) (lo hi : Nat) (v : BitVec 64) (k : Nat) : (s.setReg64 lo hi v).entry k = s.entry k := rfl
@[simp] theorem stamp_setReg64 (s : State) (lo hi : Nat) (v : BitVec 64) (b : Nat) : (s.setReg64 lo hi v).stamp b = s.stamp b := rfl
@[simp] theorem bmpOf_setReg64 (s : State) (lo hi : Nat) (v : BitVec 64) (n : Nat) : (s.setReg64 lo hi v).bmpOf n = s.bmpOf n := rfl
@[simp] theorem source_setReg64 (s : State) (lo hi : Nat) (v : BitVec 64) (e : Nat) : (s.setReg64 lo hi v).source e = s.source e := rfl
@[simp] theorem target_setReg64 (s : State) (lo hi : Nat) (v : BitVec 64) (n : Nat) : (s.setReg64 lo hi v).target n = s.target n := rfl
@[simp] theorem coreAt_setReg64 (s : State) (lo hi : Nat) (v : BitVec 64) (n : Nat) : (s.setReg64 lo hi v).coreAt n = s.coreAt n := rfl
@[simp] theorem core_setReg64 (s : State) (lo hi : Nat) (v : BitVec 64) (d : CoreId) : (s.setReg64 lo hi v).core d = s.core d := rfl
@[simp] theorem ctxAt_setReg64 (s : State) (lo hi : Nat) (v : BitVec 64) (n : Nat) : (s.setReg64 lo hi v).ctxAt n = s.ctxAt n := rfl
@[simp] theorem reg_setGroup (s : State) (g : Nat) (v : Group) (off : Nat) : (s.setGroup g v).reg off = s.reg off := rfl
@[simp] theorem fld_setGroup (s : State) (g : Nat) (v : Group) (f : Fld) : (s.setGroup g v).fld f = s.fld f := rfl
@[simp] theorem on_setGroup (s : State) (g : Nat) (v : Group) (f : Fld) : (s.setGroup g v).on f = s.on f := rfl
@[simp] theorem bmpOf_setGroup (s : State) (g : Nat) (v : Group) (n : Nat) : (s.setGroup g v).bmpOf n = s.bmpOf n := rfl
@[simp] theorem source_setGroup (s : State) (g : Nat) (v : Group) (e : Nat) : (s.setGroup g v).source e = s.source e := rfl
@[simp] theorem target_setGroup (s : State) (g : Nat) (v : Group) (n : Nat) : (s.setGroup g v).target n = s.target n := rfl
@[simp] theorem coreAt_setGroup (s : State) (g : Nat) (v : Group) (n : Nat) : (s.setGroup g v).coreAt n = s.coreAt n := rfl
@[simp] theorem core_setGroup (s : State) (g : Nat) (v : Group) (d : CoreId) : (s.setGroup g v).core d = s.core d := rfl
@[simp] theorem ctxAt_setGroup (s : State) (g : Nat) (v : Group) (n : Nat) : (s.setGroup g v).ctxAt n = s.ctxAt n := rfl
@[simp] theorem reg_setEntry (s : State) (k : Nat) (v : Entry) (off : Nat) : (s.setEntry k v).reg off = s.reg off := rfl
@[simp] theorem fld_setEntry (s : State) (k : Nat) (v : Entry) (f : Fld) : (s.setEntry k v).fld f = s.fld f := rfl
@[simp] theorem on_setEntry (s : State) (k : Nat) (v : Entry) (f : Fld) : (s.setEntry k v).on f = s.on f := rfl
@[simp] theorem bmpOf_setEntry (s : State) (k : Nat) (v : Entry) (n : Nat) : (s.setEntry k v).bmpOf n = s.bmpOf n := rfl
@[simp] theorem source_setEntry (s : State) (k : Nat) (v : Entry) (e : Nat) : (s.setEntry k v).source e = s.source e := rfl
@[simp] theorem target_setEntry (s : State) (k : Nat) (v : Entry) (n : Nat) : (s.setEntry k v).target n = s.target n := rfl
@[simp] theorem coreAt_setEntry (s : State) (k : Nat) (v : Entry) (n : Nat) : (s.setEntry k v).coreAt n = s.coreAt n := rfl
@[simp] theorem core_setEntry (s : State) (k : Nat) (v : Entry) (d : CoreId) : (s.setEntry k v).core d = s.core d := rfl
@[simp] theorem ctxAt_setEntry (s : State) (k : Nat) (v : Entry) (n : Nat) : (s.setEntry k v).ctxAt n = s.ctxAt n := rfl
@[simp] theorem reg_setBmp (s : State) (n : Nat) (v : Bmp) (off : Nat) : (s.setBmp n v).reg off = s.reg off := rfl
@[simp] theorem fld_setBmp (s : State) (n : Nat) (v : Bmp) (f : Fld) : (s.setBmp n v).fld f = s.fld f := rfl
@[simp] theorem on_setBmp (s : State) (n : Nat) (v : Bmp) (f : Fld) : (s.setBmp n v).on f = s.on f := rfl
@[simp] theorem group_setBmp (s : State) (n : Nat) (v : Bmp) (g : Nat) : (s.setBmp n v).group g = s.group g := rfl
@[simp] theorem entry_setBmp (s : State) (n : Nat) (v : Bmp) (k : Nat) : (s.setBmp n v).entry k = s.entry k := rfl
@[simp] theorem stamp_setBmp (s : State) (n : Nat) (v : Bmp) (b : Nat) : (s.setBmp n v).stamp b = s.stamp b := rfl
@[simp] theorem source_setBmp (s : State) (n : Nat) (v : Bmp) (e : Nat) : (s.setBmp n v).source e = s.source e := rfl
@[simp] theorem target_setBmp (s : State) (n : Nat) (v : Bmp) (x : Nat) : (s.setBmp n v).target x = s.target x := rfl
@[simp] theorem coreAt_setBmp (s : State) (n : Nat) (v : Bmp) (x : Nat) : (s.setBmp n v).coreAt x = s.coreAt x := rfl
@[simp] theorem core_setBmp (s : State) (n : Nat) (v : Bmp) (d : CoreId) : (s.setBmp n v).core d = s.core d := rfl
@[simp] theorem ctxAt_setBmp (s : State) (n : Nat) (v : Bmp) (x : Nat) : (s.setBmp n v).ctxAt x = s.ctxAt x := rfl
@[simp] theorem reg_setSource (s : State) (e : Nat) (v : Source) (off : Nat) : (s.setSource e v).reg off = s.reg off := rfl
@[simp] theorem fld_setSource (s : State) (e : Nat) (v : Source) (f : Fld) : (s.setSource e v).fld f = s.fld f := rfl
@[simp] theorem on_setSource (s : State) (e : Nat) (v : Source) (f : Fld) : (s.setSource e v).on f = s.on f := rfl
@[simp] theorem group_setSource (s : State) (e : Nat) (v : Source) (g : Nat) : (s.setSource e v).group g = s.group g := rfl
@[simp] theorem entry_setSource (s : State) (e : Nat) (v : Source) (k : Nat) : (s.setSource e v).entry k = s.entry k := rfl
@[simp] theorem stamp_setSource (s : State) (e : Nat) (v : Source) (b : Nat) : (s.setSource e v).stamp b = s.stamp b := rfl
@[simp] theorem bmpOf_setSource (s : State) (e : Nat) (v : Source) (n : Nat) : (s.setSource e v).bmpOf n = s.bmpOf n := rfl
@[simp] theorem coreAt_setSource (s : State) (e : Nat) (v : Source) (n : Nat) : (s.setSource e v).coreAt n = s.coreAt n := rfl
@[simp] theorem core_setSource (s : State) (e : Nat) (v : Source) (d : CoreId) : (s.setSource e v).core d = s.core d := rfl
@[simp] theorem ctxAt_setSource (s : State) (e : Nat) (v : Source) (n : Nat) : (s.setSource e v).ctxAt n = s.ctxAt n := rfl
@[simp] theorem reg_setTarget (s : State) (n : Nat) (v : Target) (off : Nat) : (s.setTarget n v).reg off = s.reg off := rfl
@[simp] theorem fld_setTarget (s : State) (n : Nat) (v : Target) (f : Fld) : (s.setTarget n v).fld f = s.fld f := rfl
@[simp] theorem on_setTarget (s : State) (n : Nat) (v : Target) (f : Fld) : (s.setTarget n v).on f = s.on f := rfl
@[simp] theorem group_setTarget (s : State) (n : Nat) (v : Target) (g : Nat) : (s.setTarget n v).group g = s.group g := rfl
@[simp] theorem entry_setTarget (s : State) (n : Nat) (v : Target) (k : Nat) : (s.setTarget n v).entry k = s.entry k := rfl
@[simp] theorem stamp_setTarget (s : State) (n : Nat) (v : Target) (b : Nat) : (s.setTarget n v).stamp b = s.stamp b := rfl
@[simp] theorem bmpOf_setTarget (s : State) (n : Nat) (v : Target) (x : Nat) : (s.setTarget n v).bmpOf x = s.bmpOf x := rfl
@[simp] theorem coreAt_setTarget (s : State) (n : Nat) (v : Target) (x : Nat) : (s.setTarget n v).coreAt x = s.coreAt x := rfl
@[simp] theorem core_setTarget (s : State) (n : Nat) (v : Target) (d : CoreId) : (s.setTarget n v).core d = s.core d := rfl
@[simp] theorem ctxAt_setTarget (s : State) (n : Nat) (v : Target) (x : Nat) : (s.setTarget n v).ctxAt x = s.ctxAt x := rfl
@[simp] theorem reg_setCoreAt (s : State) (k : Nat) (v : Core) (off : Nat) : (s.setCoreAt k v).reg off = s.reg off := rfl
@[simp] theorem fld_setCoreAt (s : State) (k : Nat) (v : Core) (f : Fld) : (s.setCoreAt k v).fld f = s.fld f := rfl
@[simp] theorem on_setCoreAt (s : State) (k : Nat) (v : Core) (f : Fld) : (s.setCoreAt k v).on f = s.on f := rfl
@[simp] theorem group_setCoreAt (s : State) (k : Nat) (v : Core) (g : Nat) : (s.setCoreAt k v).group g = s.group g := rfl
@[simp] theorem entry_setCoreAt (s : State) (k : Nat) (v : Core) (x : Nat) : (s.setCoreAt k v).entry x = s.entry x := rfl
@[simp] theorem stamp_setCoreAt (s : State) (k : Nat) (v : Core) (b : Nat) : (s.setCoreAt k v).stamp b = s.stamp b := rfl
@[simp] theorem bmpOf_setCoreAt (s : State) (k : Nat) (v : Core) (n : Nat) : (s.setCoreAt k v).bmpOf n = s.bmpOf n := rfl
@[simp] theorem source_setCoreAt (s : State) (k : Nat) (v : Core) (e : Nat) : (s.setCoreAt k v).source e = s.source e := rfl
@[simp] theorem target_setCoreAt (s : State) (k : Nat) (v : Core) (n : Nat) : (s.setCoreAt k v).target n = s.target n := rfl
@[simp] theorem ctxAt_setCoreAt (s : State) (k : Nat) (v : Core) (n : Nat) : (s.setCoreAt k v).ctxAt n = s.ctxAt n := rfl
@[simp] theorem reg_setCore (s : State) (c : CoreId) (v : Core) (off : Nat) : (s.setCore c v).reg off = s.reg off := rfl
@[simp] theorem fld_setCore (s : State) (c : CoreId) (v : Core) (f : Fld) : (s.setCore c v).fld f = s.fld f := rfl
@[simp] theorem on_setCore (s : State) (c : CoreId) (v : Core) (f : Fld) : (s.setCore c v).on f = s.on f := rfl
@[simp] theorem group_setCore (s : State) (c : CoreId) (v : Core) (g : Nat) : (s.setCore c v).group g = s.group g := rfl
@[simp] theorem entry_setCore (s : State) (c : CoreId) (v : Core) (k : Nat) : (s.setCore c v).entry k = s.entry k := rfl
@[simp] theorem stamp_setCore (s : State) (c : CoreId) (v : Core) (b : Nat) : (s.setCore c v).stamp b = s.stamp b := rfl
@[simp] theorem bmpOf_setCore (s : State) (c : CoreId) (v : Core) (n : Nat) : (s.setCore c v).bmpOf n = s.bmpOf n := rfl
@[simp] theorem source_setCore (s : State) (c : CoreId) (v : Core) (e : Nat) : (s.setCore c v).source e = s.source e := rfl
@[simp] theorem target_setCore (s : State) (c : CoreId) (v : Core) (n : Nat) : (s.setCore c v).target n = s.target n := rfl
@[simp] theorem ctxAt_setCore (s : State) (c : CoreId) (v : Core) (n : Nat) : (s.setCore c v).ctxAt n = s.ctxAt n := rfl
@[simp] theorem reg_setCtxAt (s : State) (k : Nat) (v : Ctx) (off : Nat) : (s.setCtxAt k v).reg off = s.reg off := rfl
@[simp] theorem fld_setCtxAt (s : State) (k : Nat) (v : Ctx) (f : Fld) : (s.setCtxAt k v).fld f = s.fld f := rfl
@[simp] theorem on_setCtxAt (s : State) (k : Nat) (v : Ctx) (f : Fld) : (s.setCtxAt k v).on f = s.on f := rfl
@[simp] theorem group_setCtxAt (s : State) (k : Nat) (v : Ctx) (g : Nat) : (s.setCtxAt k v).group g = s.group g := rfl
@[simp] theorem entry_setCtxAt (s : State) (k : Nat) (v : Ctx) (x : Nat) : (s.setCtxAt k v).entry x = s.entry x := rfl
@[simp] theorem stamp_setCtxAt (s : State) (k : Nat) (v : Ctx) (b : Nat) : (s.setCtxAt k v).stamp b = s.stamp b := rfl
@[simp] theorem bmpOf_setCtxAt (s : State) (k : Nat) (v : Ctx) (n : Nat) : (s.setCtxAt k v).bmpOf n = s.bmpOf n := rfl
@[simp] theorem source_setCtxAt (s : State) (k : Nat) (v : Ctx) (e : Nat) : (s.setCtxAt k v).source e = s.source e := rfl
@[simp] theorem target_setCtxAt (s : State) (k : Nat) (v : Ctx) (n : Nat) : (s.setCtxAt k v).target n = s.target n := rfl
@[simp] theorem coreAt_setCtxAt (s : State) (k : Nat) (v : Ctx) (n : Nat) : (s.setCtxAt k v).coreAt n = s.coreAt n := rfl
@[simp] theorem core_setCtxAt (s : State) (k : Nat) (v : Ctx) (d : CoreId) : (s.setCtxAt k v).core d = s.core d := rfl
@[simp] theorem reg_setRow (s : State) (k : Nat) (d : Gran) (t : Bool) (off : Nat) : (s.setRow k d t).reg off = s.reg off := rfl
@[simp] theorem fld_setRow (s : State) (k : Nat) (d : Gran) (t : Bool) (f : Fld) : (s.setRow k d t).fld f = s.fld f := rfl
@[simp] theorem on_setRow (s : State) (k : Nat) (d : Gran) (t : Bool) (f : Fld) : (s.setRow k d t).on f = s.on f := rfl
@[simp] theorem group_setRow (s : State) (k : Nat) (d : Gran) (t : Bool) (g : Nat) : (s.setRow k d t).group g = s.group g := rfl
@[simp] theorem entry_setRow (s : State) (k : Nat) (d : Gran) (t : Bool) (x : Nat) : (s.setRow k d t).entry x = s.entry x := rfl
@[simp] theorem stamp_setRow (s : State) (k : Nat) (d : Gran) (t : Bool) (b : Nat) : (s.setRow k d t).stamp b = s.stamp b := rfl
@[simp] theorem bmpOf_setRow (s : State) (k : Nat) (d : Gran) (t : Bool) (n : Nat) : (s.setRow k d t).bmpOf n = s.bmpOf n := rfl
@[simp] theorem source_setRow (s : State) (k : Nat) (d : Gran) (t : Bool) (e : Nat) : (s.setRow k d t).source e = s.source e := rfl
@[simp] theorem target_setRow (s : State) (k : Nat) (d : Gran) (t : Bool) (n : Nat) : (s.setRow k d t).target n = s.target n := rfl
@[simp] theorem coreAt_setRow (s : State) (k : Nat) (d : Gran) (t : Bool) (n : Nat) : (s.setRow k d t).coreAt n = s.coreAt n := rfl
@[simp] theorem core_setRow (s : State) (k : Nat) (d : Gran) (t : Bool) (x : CoreId) : (s.setRow k d t).core x = s.core x := rfl
@[simp] theorem ctxAt_setRow (s : State) (k : Nat) (d : Gran) (t : Bool) (n : Nat) : (s.setRow k d t).ctxAt n = s.ctxAt n := rfl
@[simp] theorem reg_setScr (s : State) (g : Nat) (d : Gran) (be : BitVec 16) (t : Bool) (off : Nat) : (s.setScr g d be t).reg off = s.reg off := rfl
@[simp] theorem fld_setScr (s : State) (g : Nat) (d : Gran) (be : BitVec 16) (t : Bool) (f : Fld) : (s.setScr g d be t).fld f = s.fld f := rfl
@[simp] theorem on_setScr (s : State) (g : Nat) (d : Gran) (be : BitVec 16) (t : Bool) (f : Fld) : (s.setScr g d be t).on f = s.on f := rfl
@[simp] theorem group_setScr (s : State) (g : Nat) (d : Gran) (be : BitVec 16) (t : Bool) (x : Nat) : (s.setScr g d be t).group x = s.group x := rfl
@[simp] theorem entry_setScr (s : State) (g : Nat) (d : Gran) (be : BitVec 16) (t : Bool) (k : Nat) : (s.setScr g d be t).entry k = s.entry k := rfl
@[simp] theorem stamp_setScr (s : State) (g : Nat) (d : Gran) (be : BitVec 16) (t : Bool) (b : Nat) : (s.setScr g d be t).stamp b = s.stamp b := rfl
@[simp] theorem bmpOf_setScr (s : State) (g : Nat) (d : Gran) (be : BitVec 16) (t : Bool) (n : Nat) : (s.setScr g d be t).bmpOf n = s.bmpOf n := rfl
@[simp] theorem source_setScr (s : State) (g : Nat) (d : Gran) (be : BitVec 16) (t : Bool) (e : Nat) : (s.setScr g d be t).source e = s.source e := rfl
@[simp] theorem target_setScr (s : State) (g : Nat) (d : Gran) (be : BitVec 16) (t : Bool) (n : Nat) : (s.setScr g d be t).target n = s.target n := rfl
@[simp] theorem coreAt_setScr (s : State) (g : Nat) (d : Gran) (be : BitVec 16) (t : Bool) (n : Nat) : (s.setScr g d be t).coreAt n = s.coreAt n := rfl
@[simp] theorem core_setScr (s : State) (g : Nat) (d : Gran) (be : BitVec 16) (t : Bool) (x : CoreId) : (s.setScr g d be t).core x = s.core x := rfl
@[simp] theorem ctxAt_setScr (s : State) (g : Nat) (d : Gran) (be : BitVec 16) (t : Bool) (n : Nat) : (s.setScr g d be t).ctxAt n = s.ctxAt n := rfl

end Sys2Proof.Machine.State
end

