-- ==== Sys2Proof/Laws/Mem.lean ====
section
/-! SUPPORT. The byte stores: a granule reads back as written and others as before, and every memory operation keeps the canonical form. -/

namespace Sys2Proof.Machine

/-! ### Granules of a byte store -/

theorem get_writeGran (t : List Host.Cell) (base : Nat) (d : Gran) (be : BitVec 16) (n k : Nat) :
    Tbl.get 0 k (writeGran t base d be n) =
      if base ≤ k ∧ k < base + n ∧ be.getLsbD (k - base) = true then d.extractLsb' (8 * (k - base)) 8 else Tbl.get 0 k t := by
  induction n with
  | zero => simp only [writeGran]; rw [if_neg (by omega)]
  | succ n ih =>
    simp only [writeGran]
    by_cases hk : k = base + n
    · subst hk
      have h0 : ¬ (base ≤ base + n ∧ base + n < base + n ∧ be.getLsbD (base + n - base) = true) := by omega
      split
      · next h =>
        rw [Tbl.get_set_self, if_pos ⟨by omega, by omega, by simpa using h⟩]; simp
      · next h => rw [ih, if_neg h0, if_neg (by simp [h])]
    · have hi : (base ≤ k ∧ k < base + n ∧ be.getLsbD (k - base) = true) ↔
          (base ≤ k ∧ k < base + (n + 1) ∧ be.getLsbD (k - base) = true) := by
        constructor <;> rintro ⟨a, b, c⟩ <;> exact ⟨a, by omega, c⟩
      split
      · rw [Tbl.get_set_ne (h := hk), ih]; simp only [hi]
      · rw [ih]; simp only [hi]

theorem granBytes_congr {t u : List Host.Cell} {base : Nat} (n : Nat) (h : ∀ i, i < n → Tbl.get 0 (base + i) t = Tbl.get 0 (base + i) u) :
    granBytes t base n = granBytes u base n := by
  induction n with
  | zero => rfl
  | succ n ih => rw [granBytes, granBytes, ih (fun i hi => h i (by omega)), h n (by omega)]

/-- A granule whose bytes a write leaves alone reads as before. -/
theorem readGran_writeGran_ne (t : List Host.Cell) {a b : Nat} (d : Gran) (be : BitVec 16) (h : a ≠ b) :
    readGran (writeGran t (16 * a) d be 16) (16 * b) = readGran t (16 * b) := by
  unfold readGran
  rw [granBytes_congr 16]
  intro i hi
  rw [get_writeGran, if_neg (by omega)]

theorem granBytes_lt (t : List Host.Cell) (base n : Nat) : granBytes t base n < 2 ^ (8 * n) := by
  induction n with
  | zero => simp [granBytes]
  | succ n ih =>
    have h := (Tbl.get 0 (base + n) t).isLt
    rw [granBytes, show 8 * (n + 1) = 8 * n + 8 by omega, Nat.pow_add]
    have : (Tbl.get 0 (base + n) t).toNat * 2 ^ (8 * n) ≤ (2 ^ 8 - 1) * 2 ^ (8 * n) := Nat.mul_le_mul_right _ (by omega)
    have e : 2 ^ (8 * n) * 2 ^ 8 = (2 ^ 8 - 1) * 2 ^ (8 * n) + 2 ^ (8 * n) := by
      rw [Nat.mul_comm, Nat.sub_mul, Nat.one_mul, Nat.sub_add_cancel]; exact Nat.le_mul_of_pos_left _ (by omega)
    omega

theorem testBit_granBytes (t : List Host.Cell) (base n i : Nat) (hi : i < 8 * n) :
    (granBytes t base n).testBit i = (Tbl.get 0 (base + i / 8) t).getLsbD (i % 8) := by
  induction n with
  | zero => omega
  | succ n ih =>
    rw [granBytes, Nat.add_comm, Nat.mul_comm, Nat.testBit_two_pow_mul_add _ (granBytes_lt _ _ _)]
    split
    · next h => exact ih h
    · next h =>
      have : i / 8 = n := by omega
      rw [this, show i - 8 * n = i % 8 by omega]; rfl

/-- A granule written whole reads back as written. -/
@[simp] theorem readGran_writeGran_self (t : List Host.Cell) (base : Nat) (d : Gran) :
    readGran (writeGran t base d 0xFFFF 16) base = d := by
  apply BitVec.eq_of_getLsbD_eq
  intro i hi
  have hb : i / 8 < 16 := by omega
  have hm : (0xFFFF : BitVec 16).getLsbD (i / 8) = true := by
    rw [show (0xFFFF : BitVec 16) = BitVec.allOnes 16 from rfl, BitVec.getLsbD_allOnes]; simpa using hb
  rw [readGran, BitVec.getLsbD_ofNat, testBit_granBytes _ _ _ _ (by omega), get_writeGran,
    if_pos ⟨by omega, by omega, by rw [Nat.add_sub_cancel_left]; exact hm⟩]
  simp only [hi, decide_true, Bool.true_and, BitVec.getLsbD_extractLsb', Nat.add_sub_cancel_left, Nat.mod_lt i (by omega : 8 > 0)]
  congr 1; omega

/-! ### Rows and scratch granules -/

/-- A row reads as it was written; every other row as before. -/
theorem State.rowData_setRow (s : State) (k j : Nat) (d : Gran) (t : Bool) :
    (s.setRow k d t).rowData j = if j = k then d else s.rowData j := by
  simp only [State.rowData, State.setRow]
  by_cases h : j = k
  · rw [if_pos h, h]; exact readGran_writeGran_self _ _ _
  · rw [if_neg h]; exact readGran_writeGran_ne _ _ _ (fun e => h e.symm)

theorem State.rowTag_setRow (s : State) (k j : Nat) (d : Gran) (t : Bool) :
    (s.setRow k d t).rowTag j = if j = k then t else s.rowTag j := by
  simp only [State.rowTag, State.setRow]; rw [Tbl.get_set]

theorem State.rowEcc_setRow (s : State) (k j : Nat) (d : Gran) (t : Bool) :
    (s.setRow k d t).rowEcc j = if j = k then none else s.rowEcc j := by
  simp only [State.rowEcc, State.setRow]; rw [Tbl.get_set]

/-- A scratch granule written whole reads as written; every other granule as before, whatever the enables. -/
@[simp] theorem State.scrData_setScr_self (s : State) (g : Nat) (d : Gran) (t : Bool) : (s.setScr g d 0xFFFF t).scrData g = d :=
  readGran_writeGran_self _ _ _

theorem State.scrData_setScr_ne (s : State) {g h : Nat} (d : Gran) (be : BitVec 16) (t : Bool) (hn : h ≠ g) :
    (s.setScr g d be t).scrData h = s.scrData h := readGran_writeGran_ne _ _ _ (fun e => hn e.symm)

theorem State.scrTag_setScr (s : State) (g h : Nat) (d : Gran) (be : BitVec 16) (t : Bool) :
    (s.setScr g d be t).scrTag h = if h = g then t else s.scrTag h := by
  simp only [State.scrTag, State.setScr]; rw [Tbl.get_set]

/-! ### The canonical form -/

/-- Writing bytes keeps the canonical form. -/
theorem Memory.wf_writeGran {t : List Host.Cell} (base : Nat) (d : Gran) (be : BitVec 16) (n : Nat) (h : Memory.wf t = true) :
    Memory.wf (writeGran t base d be n) = true := by
  induction n with
  | zero => exact h
  | succ n ih =>
    simp only [writeGran]
    split
    · exact Tbl.wf_set _ _ ih
    · exact ih

/-- Keeping the bytes of some addresses keeps the canonical form. -/
theorem Memory.wf_keep {t : List Host.Cell} (p : Nat → Bool) (h : Memory.wf t = true) : Memory.wf (Tbl.keep p t) = true := Tbl.wf_keep p h

/-- The canonical form depends on the two byte stores alone. -/
theorem State.memWf_congr {s t : State} (hm : t.mem.bytes = s.mem.bytes) (hs : t.scr.bytes = s.scr.bytes) (h : s.memWf) : t.memWf := by
  unfold State.memWf at *; rw [hm, hs]; exact h

theorem State.memWf_setRow {s : State} (k : Nat) (d : Gran) (t : Bool) (h : s.memWf) : (s.setRow k d t).memWf :=
  ⟨Memory.wf_writeGran _ _ _ _ h.1, h.2⟩

theorem State.memWf_setScr {s : State} (g : Nat) (d : Gran) (be : BitVec 16) (t : Bool) (h : s.memWf) : (s.setScr g d be t).memWf :=
  ⟨h.1, Memory.wf_writeGran _ _ _ _ h.2⟩

theorem memWf_zeroRows {s : State} (n : Nat) (h : s.memWf) : (zeroRows n s).memWf :=
  ⟨Memory.wf_keep (fun k => decide (n ≤ k / 16 % 4608)) h.1, h.2⟩

/-- After reset both stores are empty, hence canonical. -/
theorem memWf_reset : State.reset.memWf := ⟨rfl, rfl⟩

/-! ### Accesses (R90 to R94) -/

/-- Raising an event changes registers of the wake logic and the event controller alone. -/
theorem raise_only (e : Nat) (s : State) : ∃ r v, raise e s = { s with regs := r, evc := v } := by
  have key : ∀ u : State, (∃ r v, u = { s with regs := r, evc := v }) → ∃ r v,
      (if e < 32 ∧ bitsOf (u.reg MOTH_WATCH).toNat e 1 = 1 then { u with evc := { u.evc with wakes := u.evc.wakes ++ [e] } } else u) =
        { s with regs := r, evc := v } := by
    rintro u ⟨r, v, rfl⟩
    split
    · exact ⟨_, _, rfl⟩
    · exact ⟨_, _, rfl⟩
  unfold raise
  split
  · exact ⟨s.regs, s.evc, rfl⟩
  · refine key _ ?_
    split
    · exact ⟨_, _, rfl⟩
    · split
      · exact ⟨_, _, rfl⟩
      · exact ⟨_, _, rfl⟩

@[simp] theorem raise_mem (e : Nat) (s : State) : (raise e s).mem = s.mem := by
  obtain ⟨r, v, h⟩ := raise_only e s; rw [h]

@[simp] theorem raise_scr (e : Nat) (s : State) : (raise e s).scr = s.scr := by
  obtain ⟨r, v, h⟩ := raise_only e s; rw [h]

/-- Correcting, logging and fetching a row change no byte. -/
@[simp] theorem found_mem (k : Nat) (b : Bool) (s : State) : (found k b s).mem = s.mem := rfl
@[simp] theorem found_scr (k : Nat) (b : Bool) (s : State) : (found k b s).scr = s.scr := rfl
@[simp] theorem countCe_bytes (k : Nat) (s : State) : (countCe k s).mem.bytes = s.mem.bytes := rfl
@[simp] theorem countCe_scr (k : Nat) (s : State) : (countCe k s).scr = s.scr := rfl
@[simp] theorem correctRow_bytes (k : Nat) (s : State) : (correctRow k s).mem.bytes = s.mem.bytes := rfl
@[simp] theorem correctRow_scr (k : Nat) (s : State) : (correctRow k s).scr = s.scr := rfl

@[simp] theorem correctTag_bytes (k : Nat) (s : State) : (correctTag k s).mem.bytes = s.mem.bytes := by unfold correctTag; split <;> rfl
@[simp] theorem correctTag_scr (k : Nat) (s : State) : (correctTag k s).scr = s.scr := by unfold correctTag; split <;> rfl

@[simp] theorem noteUe_mem (k p : Nat) (s : State) : (noteUe k p s).mem = s.mem := by
  unfold noteUe
  split
  · exact State.raiseBit_mem _ _
  · rw [State.setReg_mem, State.raiseBit_mem]

@[simp] theorem noteUe_scr (k p : Nat) (s : State) : (noteUe k p s).scr = s.scr := by
  unfold noteUe
  split
  · exact State.raiseBit_scr _ _
  · rw [State.setReg_scr, State.raiseBit_scr]

@[simp] theorem logUe_mem (k p : Nat) (s : State) : (logUe k p s).mem.bytes = s.mem.bytes := by
  rw [logUe, raise_mem, found_mem, noteUe_mem]

@[simp] theorem logUe_scr (k p : Nat) (s : State) : (logUe k p s).scr = s.scr := by
  rw [logUe, raise_scr, found_scr, noteUe_scr]

theorem memWf_correctRow {s : State} (k : Nat) (h : s.memWf) : (correctRow k s).memWf := State.memWf_congr (by simp) (by simp) h
theorem memWf_correctTag {s : State} (k : Nat) (h : s.memWf) : (correctTag k s).memWf := State.memWf_congr (by simp) (by simp) h
theorem memWf_logUe {s : State} (k p : Nat) (h : s.memWf) : (logUe k p s).memWf := State.memWf_congr (by simp) (by simp) h

theorem memWf_fetchRow {s : State} (k p : Nat) (h : s.memWf) : (fetchRow k p s).2.memWf := by
  have h := memWf_correctTag k h
  simp only [fetchRow]
  split
  · exact h
  · exact memWf_correctRow k h
  · exact memWf_logUe k p h

theorem memWf_foldCheck {s : State} (k : Nat) (h : s.memWf) : (foldCheck k s).memWf := by
  unfold foldCheck
  split
  · exact memWf_correctRow k h
  · exact memWf_logUe k 3 h
  · exact h

theorem memWf_spoilRow {s : State} (j : Nat) (b : Bool) (h : s.memWf) : (spoilRow j b s).memWf := by
  cases b
  · exact h
  · exact ⟨h.1, h.2⟩

theorem memWf_foldCopy {s : State} (k j : Nat) (b : Bool) (h : s.memWf) : (foldCopy k j b s).memWf :=
  memWf_spoilRow j b (State.memWf_setRow j (s.rowData k) (s.rowTag k) h)

theorem memWf_foldEntry {s : State} (b i : Nat) (h : s.memWf) : (foldEntry b i s).memWf :=
  memWf_foldCopy _ _ _ (memWf_foldCheck _ h)

theorem memWf_checkLow {s : State} (b : Nat) (h : s.memWf) : (checkLow b s).memWf := by unfold checkLow; split <;> exact h

theorem memWf_allocEntry {s t : State} {b i : Nat} (h : s.memWf) (e : allocEntry b s = some (i, t)) : t.memWf := by
  unfold allocEntry at e
  split at e
  · cases e; exact h
  · split at e
    · cases e; exact h
    · split at e
      · cases e; exact memWf_foldEntry _ _ h
      · cases e

theorem memWf_mergeFrom {s : State} (b src pc : Nat) (d : Gran) (be : BitVec 16) (h : s.memWf) : (mergeFrom b src pc d be s).2.memWf := by
  have := memWf_fetchRow (s.rowKey b src) pc h
  unfold mergeFrom
  split
  · exact h
  · split <;> (next e => rw [e] at this; exact this)

theorem memWf_putRow {s : State} (b row : Nat) (d : Gran) (tag : Bool) (h : s.memWf) : (putRow b row d tag s).memWf :=
  State.memWf_setRow _ _ _ h

theorem memWf_createVersion {s : State} (a : Access) (b x i : Nat) (d : Gran) (tag : Bool) (h : s.memWf) :
    (createVersion a b x i d tag s).memWf := by
  unfold createVersion
  refine memWf_checkLow _ (State.memWf_congr ?_ ?_ (memWf_putRow b (4096 + i) d tag h))
  · rw [State.setEntry_mem]
  · rw [State.setEntry_scr]

theorem memWf_placeGranule {s : State} (a : Access) (d : Gran) (tag : Bool) (h : s.memWf) : (placeGranule a d tag s).memWf := by
  unfold placeGranule
  dsimp only
  split
  · split
    · split
      · next e => exact memWf_createVersion _ _ _ _ _ _ (memWf_allocEntry h e)
      · exact h
    · exact memWf_putRow _ _ _ _ h
  · split
    · exact memWf_putRow _ _ _ _ h
    · split
      · exact memWf_createVersion _ _ _ _ _ _ (by split; exact memWf_foldEntry _ _ h; exact h)
      · exact memWf_putRow _ _ _ _ (by split; exact memWf_foldEntry _ _ h; exact h)

theorem memWf_countRefusal {s : State} (r : MemRes) (h : s.memWf) : (countRefusal r s).memWf := by
  unfold countRefusal; split <;> exact h

theorem memWf_keptWrite {s : State} (a : Access) (d : Gran) (be : BitVec 16) (tag : Bool) (h : s.memWf) :
    (keptWrite a d be tag s).memWf := by unfold keptWrite; split <;> exact h

/-- A write ends in the refusal that its row gives, in an uncorrectable merge, or with the granule in its place. -/
theorem writeGranule_cases (a : Access) (d : Gran) (be : BitVec 16) (tag : Bool) (s : State) :
    (∃ r, s.refusal a = some r ∧ writeGranule a d be tag s = (r, countRefusal r s)) ∨
    ∃ o t, s.refusal a = none ∧ mergeFrom (bankOf s.build a.gran) (s.writeBase a)
      (portClass a.port) d be s = (o, t) ∧
      writeGranule a d be tag s = (match o with
        | none => (.ue, t)
        | some x => (.ok x tag, placeGranule a x tag (keptWrite a d be tag t))) := by
  cases h : s.refusal a with
  | some r => exact .inl ⟨r, rfl, by simp only [writeGranule, h]⟩
  | none =>
    cases e : mergeFrom (bankOf s.build a.gran) (s.writeBase a) (portClass a.port) d be s with
    | mk o t => exact .inr ⟨o, t, rfl, rfl, by simp only [writeGranule, h, e]; cases o <;> rfl⟩

theorem memWf_writeGranule {s : State} (a : Access) (d : Gran) (be : BitVec 16) (tag : Bool) (h : s.memWf) :
    (writeGranule a d be tag s).2.memWf := by
  obtain ⟨r, -, e⟩ | ⟨o, t, -, hm, e⟩ := writeGranule_cases a d be tag s
  · rw [e]; exact memWf_countRefusal r h
  · have ht := memWf_mergeFrom (bankOf s.build a.gran) (s.writeBase a) (portClass a.port) d be h
    rw [hm] at ht
    rw [e]
    cases o with
    | none => exact ht
    | some x => have := memWf_placeGranule a x tag (memWf_keptWrite a d be tag ht); dsimp only; exact this

theorem memWf_readGranule {s : State} (a : Access) (h : s.memWf) : (readGranule a s).2.memWf := by
  unfold readGranule
  dsimp only
  have := memWf_fetchRow (s.rowKey (bankOf s.build a.gran) (s.readRowOf a.view a.group.toNat (bankOf s.build a.gran)
    (homeOf s.build a.gran))) (portClass a.port) h
  split <;> (next e => rw [e] at this; exact this)

/-- An access performed whole keeps both byte stores canonical. -/
theorem memWf_perform {s : State} (a : Access) (h : s.memWf) : (perform a s).2.memWf := by
  unfold perform
  split
  · exact memWf_readGranule a h
  · have := memWf_readGranule a h
    split
    · next e => rw [e] at this; split <;> exact this
    · exact this
  · next d be t _ =>
    have := memWf_writeGranule a d be t h
    split
    · next e => rw [e] at this; exact this
    · exact this
  · next i _ =>
    have hw := memWf_writeGranule a (wordData i 0xFFFF) (wordBe i) false h
    dsimp only
    split
    · next e => rw [e] at hw; exact hw
    · exact hw
  · next i v _ =>
    split
    · split
      · have hw := memWf_writeGranule a (wordData i v) (wordBe i) false h
        split
        · next e => rw [e] at hw; exact hw
        · exact hw
      · exact h
    · exact h
  · exact h

theorem memWf_scrubKey {s : State} (k : Nat) (h : s.memWf) : (scrubKey k s).memWf := by
  have h := memWf_correctTag k h
  simp only [scrubKey]
  split
  · exact memWf_correctRow k h
  · exact State.memWf_congr (by simp) (by simp) (memWf_logUe k 9 h)
  · exact h

theorem memWf_priorRead {s : State} (p : Prior) (port : Nat) (h : s.memWf) : (priorRead p port s).2.memWf := by
  have := memWf_fetchRow p.row (portClass port) h
  unfold priorRead
  split
  · split <;> (next e => rw [e] at this; exact this)
  · exact h

/-- What a granted request does keeps both byte stores canonical. -/
theorem memWf_performReq {s : State} (w : Req) (h : s.memWf) : (performReq w s).2.memWf := by
  unfold performReq
  split
  · dsimp only
    split
    · exact State.memWf_congr rfl rfl (memWf_foldEntry _ _ (s := { s with epc := _ }) h)
    · exact h
  · exact memWf_scrubKey _ h
  · exact memWf_priorRead _ _ h
  · exact memWf_perform _ h

end Sys2Proof.Machine
end

