-- ==== Sys2Proof/Laws/PerInstr.lean ====
section
/-! SUPPORT. The family ProgramWord: which commands are instructions of the Sprin cores, one lemma per constructor. -/

namespace Sys2Proof.Laws.ProgramWord

/-- A command has a program word exactly when it is an instruction that a Sprin core issues, and a well-formed one names a core of the build. -/
def Statement (i : Instr) : Prop :=
  (sprinEncode i).isSome = (sprinCore i).isSome ∧ ∀ c, sprinCore i = some c → i.wf = true → c.wf = true

theorem of_core {i : Instr} {c : CoreId} {w : BitVec 14} (he : sprinEncode i = some w) (hc : sprinCore i = some c)
    (hw : i.wf = true → c.wf = true) : Statement i :=
  ⟨by rw [he, hc]; rfl, fun d hd hi => by rw [hc] at hd; cases hd; exact hw hi⟩

theorem of_none {i : Instr} (he : sprinEncode i = none) (hc : sprinCore i = none) : Statement i :=
  ⟨by rw [he, hc]; rfl, fun d hd => by rw [hc] at hd; cases hd⟩

theorem regWrite (x0 : Agent) (x1 : Nat) (x2 : Reg) : Statement (.regWrite x0 x1 x2) := of_none rfl rfl
theorem npxReadRequest (x0 : BitVec 8) (x1 : Bool) (x2 : BitVec 28) (x3 : BitVec 6) (x4 : BitVec 4) : Statement (.npxReadRequest x0 x1 x2 x3 x4) := of_none rfl rfl
theorem npxWriteRequest (x0 : BitVec 8) (x1 : Bool) (x2 : BitVec 28) (x3 : BitVec 6) (x4 : BitVec 4) (x5 : List NpxBeat) : Statement (.npxWriteRequest x0 x1 x2 x3 x4 x5) := of_none rfl rfl
theorem arbiterGrant (x0 : Nat) (x1 : List Upset) : Statement (.arbiterGrant x0 x1) := of_none rfl rfl
theorem smemReadData (x0 : Nat) : Statement (.smemReadData x0) := of_none rfl rfl
theorem scratchGrant (x0 : Nat × List Upset) : Statement (.scratchGrant x0) := of_none rfl rfl
theorem scrubAccess (x0 : List Upset) : Statement (.scrubAccess x0) := of_none rfl rfl
theorem smemInit (x0 : Agent) : Statement (.smemInit x0) := of_none rfl rfl
theorem initDone : Statement (.initDone) := of_none rfl rfl
theorem smemCeCntRead (x0 : Agent) : Statement (.smemCeCntRead x0) := of_none rfl rfl
theorem bmpTrain (x0 : Nat) : Statement (.bmpTrain x0) := of_none rfl rfl
theorem bmpTrainReport (x0 : Nat) (x1 : Bool) (x2 : BitVec 16) (x3 : BitVec 8) (x4 : BitVec 8) (x5 : BitVec 8) : Statement (.bmpTrainReport x0 x1 x2 x3 x4 x5) := of_none rfl rfl
theorem bmpTrainTimeout (x0 : Nat) : Statement (.bmpTrainTimeout x0) := of_none rfl rfl
theorem bmpReadBeat (x0 : Nat) (x1 : BitVec 6) (x2 : BitVec 1024) (x3 : BitVec 2) : Statement (.bmpReadBeat x0 x1 x2 x3) := of_none rfl rfl
theorem bmpIlvWrite (x0 : Reg) : Statement (.bmpIlvWrite x0) := of_none rfl rfl
theorem bmpCpyGo (x0 : Nat) (x1 : Reg) : Statement (.bmpCpyGo x0 x1) := of_none rfl rfl
theorem bmpCpyGranuleDone (x0 : Nat) (x1 : BitVec 128) (x2 : BitVec 2) (x3 : List Upset) : Statement (.bmpCpyGranuleDone x0 x1 x2 x3) := of_none rfl rfl
theorem bmpCpyAbort (x0 : Nat) : Statement (.bmpCpyAbort x0) := of_none rfl rfl
theorem tickInstant : Statement (.tickInstant) := of_none rfl rfl
theorem flipRelease : Statement (.flipRelease) := of_none rfl rfl
theorem quiesceMarginStart : Statement (.quiesceMarginStart) := of_none rfl rfl
theorem allocHoldRelease : Statement (.allocHoldRelease) := of_none rfl rfl
theorem gcmdAdmit (x0 : BitVec 6) : Statement (.gcmdAdmit x0) := of_none rfl rfl
theorem gcmdDone (x0 : BitVec 6) : Statement (.gcmdDone x0) := of_none rfl rfl
theorem gcmdDiscard (x0 : BitVec 6) : Statement (.gcmdDiscard x0) := of_none rfl rfl
theorem gcmdNone : Statement (.gcmdNone) := of_none rfl rfl
theorem sweepDone (x0 : BitVec 6) : Statement (.sweepDone x0) := of_none rfl rfl
theorem leaseTake (x0 : Nat) (x1 : BitVec 6) : Statement (.leaseTake x0 x1) := of_none rfl rfl
theorem leaseRelease (x0 : Nat) : Statement (.leaseRelease x0) := of_none rfl rfl
theorem freezeRequest : Statement (.freezeRequest) := of_none rfl rfl
theorem poolCnt0Read (x0 : Agent) : Statement (.poolCnt0Read x0) := of_none rfl rfl
theorem allocAccept (x0 : CoreId) (x1 : List Upset) : Statement (.allocAccept x0 x1) := of_none rfl rfl
theorem allocGrant : Statement (.allocGrant) := of_none rfl rfl
theorem streamElementIssue (x0 : Nat) (x1 : Nat) (x2 : Nat) : Statement (.streamElementIssue x0 x1 x2) := of_none rfl rfl
theorem runEnd (x0 : Nat) : Statement (.runEnd x0) := of_none rfl rfl
theorem podAbort (x0 : Nat) : Statement (.podAbort x0) := of_none rfl rfl
theorem allocWaitRead (x0 : Agent) : Statement (.allocWaitRead x0) := of_none rfl rfl
theorem lit (x0 : CoreId) (x1 : BitVec 12) : Statement (.lit x0 x1) := of_core rfl rfl id
theorem br (x0 : CoreId) (x1 : BitVec 10) : Statement (.br x0 x1) := of_core rfl rfl id
theorem bz (x0 : CoreId) (x1 : BitVec 10) : Statement (.bz x0 x1) := of_core rfl rfl id
theorem bnz (x0 : CoreId) (x1 : BitVec 10) : Statement (.bnz x0 x1) := of_core rfl rfl id
theorem call (x0 : CoreId) (x1 : BitVec 10) : Statement (.call x0 x1) := of_core rfl rfl id
theorem ld (x0 : CoreId) (x1 : BitVec 3) (x2 : BitVec 6) : Statement (.ld x0 x1 x2) := of_core rfl rfl id
theorem st (x0 : CoreId) (x1 : BitVec 3) (x2 : BitVec 6) : Statement (.st x0 x1 x2) := of_core rfl rfl id
theorem ld2 (x0 : CoreId) (x1 : BitVec 3) (x2 : BitVec 6) : Statement (.ld2 x0 x1 x2) := of_core rfl rfl id
theorem st2 (x0 : CoreId) (x1 : BitVec 3) (x2 : BitVec 6) : Statement (.st2 x0 x1 x2) := of_core rfl rfl id
theorem ldx (x0 : CoreId) (x1 : BitVec 3) (x2 : BitVec 6) : Statement (.ldx x0 x1 x2) := of_core rfl rfl id
theorem stx (x0 : CoreId) (x1 : BitVec 3) (x2 : BitVec 6) : Statement (.stx x0 x1 x2) := of_core rfl rfl id
theorem ld2x (x0 : CoreId) (x1 : BitVec 3) (x2 : BitVec 6) : Statement (.ld2x x0 x1 x2) := of_core rfl rfl id
theorem st2x (x0 : CoreId) (x1 : BitVec 3) (x2 : BitVec 6) : Statement (.st2x x0 x1 x2) := of_core rfl rfl id
theorem nop (x0 : CoreId) : Statement (.nop x0) := of_core rfl rfl id
theorem dup (x0 : CoreId) : Statement (.dup x0) := of_core rfl rfl id
theorem drop (x0 : CoreId) : Statement (.drop x0) := of_core rfl rfl id
theorem swap (x0 : CoreId) : Statement (.swap x0) := of_core rfl rfl id
theorem overOp (x0 : CoreId) : Statement (.overOp x0) := of_core rfl rfl id
theorem rot (x0 : CoreId) : Statement (.rot x0) := of_core rfl rfl id
theorem nip (x0 : CoreId) : Statement (.nip x0) := of_core rfl rfl id
theorem tuck (x0 : CoreId) : Statement (.tuck x0) := of_core rfl rfl id
theorem twoDup (x0 : CoreId) : Statement (.twoDup x0) := of_core rfl rfl id
theorem twoDrop (x0 : CoreId) : Statement (.twoDrop x0) := of_core rfl rfl id
theorem twoSwap (x0 : CoreId) : Statement (.twoSwap x0) := of_core rfl rfl id
theorem twoOver (x0 : CoreId) : Statement (.twoOver x0) := of_core rfl rfl id
theorem minusRot (x0 : CoreId) : Statement (.minusRot x0) := of_core rfl rfl id
theorem pick (x0 : CoreId) (x1 : BitVec 3) : Statement (.pick x0 x1) := of_core rfl rfl id
theorem add (x0 : CoreId) : Statement (.add x0) := of_core rfl rfl id
theorem adc (x0 : CoreId) : Statement (.adc x0) := of_core rfl rfl id
theorem sub (x0 : CoreId) : Statement (.sub x0) := of_core rfl rfl id
theorem sbc (x0 : CoreId) : Statement (.sbc x0) := of_core rfl rfl id
theorem neg (x0 : CoreId) : Statement (.neg x0) := of_core rfl rfl id
theorem inc (x0 : CoreId) : Statement (.inc x0) := of_core rfl rfl id
theorem dec (x0 : CoreId) : Statement (.dec x0) := of_core rfl rfl id
theorem and (x0 : CoreId) : Statement (.and x0) := of_core rfl rfl id
theorem or (x0 : CoreId) : Statement (.or x0) := of_core rfl rfl id
theorem xor (x0 : CoreId) : Statement (.xor x0) := of_core rfl rfl id
theorem not (x0 : CoreId) : Statement (.not x0) := of_core rfl rfl id
theorem shl (x0 : CoreId) : Statement (.shl x0) := of_core rfl rfl id
theorem shr (x0 : CoreId) : Statement (.shr x0) := of_core rfl rfl id
theorem sra (x0 : CoreId) : Statement (.sra x0) := of_core rfl rfl id
theorem rol (x0 : CoreId) : Statement (.rol x0) := of_core rfl rfl id
theorem shli (x0 : CoreId) (x1 : BitVec 4) : Statement (.shli x0 x1) := of_core rfl rfl (fun h => by simp [Instr.wf] at h; exact h.1)
theorem shri (x0 : CoreId) (x1 : BitVec 4) : Statement (.shri x0 x1) := of_core rfl rfl (fun h => by simp [Instr.wf] at h; exact h.1)
theorem srai (x0 : CoreId) (x1 : BitVec 4) : Statement (.srai x0 x1) := of_core rfl rfl (fun h => by simp [Instr.wf] at h; exact h.1)
theorem min (x0 : CoreId) : Statement (.min x0) := of_core rfl rfl id
theorem max (x0 : CoreId) : Statement (.max x0) := of_core rfl rfl id
theorem umin (x0 : CoreId) : Statement (.umin x0) := of_core rfl rfl id
theorem umax (x0 : CoreId) : Statement (.umax x0) := of_core rfl rfl id
theorem abs (x0 : CoreId) : Statement (.abs x0) := of_core rfl rfl id
theorem sext8 (x0 : CoreId) : Statement (.sext8 x0) := of_core rfl rfl id
theorem zext8 (x0 : CoreId) : Statement (.zext8 x0) := of_core rfl rfl id
theorem popc (x0 : CoreId) : Statement (.popc x0) := of_core rfl rfl id
theorem clz (x0 : CoreId) : Statement (.clz x0) := of_core rfl rfl id
theorem mul (x0 : CoreId) : Statement (.mul x0) := of_core rfl rfl id
theorem mulu (x0 : CoreId) : Statement (.mulu x0) := of_core rfl rfl id
theorem mull (x0 : CoreId) : Statement (.mull x0) := of_core rfl rfl id
theorem div (x0 : CoreId) : Statement (.div x0) := of_core rfl rfl id
theorem divu (x0 : CoreId) : Statement (.divu x0) := of_core rfl rfl id
theorem div2u (x0 : CoreId) : Statement (.div2u x0) := of_core rfl rfl id
theorem add2 (x0 : CoreId) : Statement (.add2 x0) := of_core rfl rfl id
theorem sub2 (x0 : CoreId) : Statement (.sub2 x0) := of_core rfl rfl id
theorem neg2 (x0 : CoreId) : Statement (.neg2 x0) := of_core rfl rfl id
theorem eq (x0 : CoreId) : Statement (.eq x0) := of_core rfl rfl id
theorem ne (x0 : CoreId) : Statement (.ne x0) := of_core rfl rfl id
theorem lt (x0 : CoreId) : Statement (.lt x0) := of_core rfl rfl id
theorem le (x0 : CoreId) : Statement (.le x0) := of_core rfl rfl id
theorem gt (x0 : CoreId) : Statement (.gt x0) := of_core rfl rfl id
theorem ge (x0 : CoreId) : Statement (.ge x0) := of_core rfl rfl id
theorem ult (x0 : CoreId) : Statement (.ult x0) := of_core rfl rfl id
theorem ule (x0 : CoreId) : Statement (.ule x0) := of_core rfl rfl id
theorem ugt (x0 : CoreId) : Statement (.ugt x0) := of_core rfl rfl id
theorem uge (x0 : CoreId) : Statement (.uge x0) := of_core rfl rfl id
theorem zeroEq (x0 : CoreId) : Statement (.zeroEq x0) := of_core rfl rfl id
theorem zeroLt (x0 : CoreId) : Statement (.zeroLt x0) := of_core rfl rfl id
theorem sel (x0 : CoreId) : Statement (.sel x0) := of_core rfl rfl id
theorem ret (x0 : CoreId) : Statement (.ret x0) := of_core rfl rfl id
theorem toR (x0 : CoreId) : Statement (.toR x0) := of_core rfl rfl id
theorem rFrom (x0 : CoreId) : Statement (.rFrom x0) := of_core rfl rfl id
theorem rFetch (x0 : CoreId) : Statement (.rFetch x0) := of_core rfl rfl id
theorem jmps (x0 : CoreId) : Statement (.jmps x0) := of_core rfl rfl id
theorem calls (x0 : CoreId) : Statement (.calls x0) := of_core rfl rfl id
theorem reti (x0 : CoreId) : Statement (.reti x0) := of_core rfl rfl id
theorem rett (x0 : CoreId) : Statement (.rett x0) := of_core rfl rfl id
theorem wait (x0 : CoreId) : Statement (.wait x0) := of_core rfl rfl id
theorem synci (x0 : CoreId) : Statement (.synci x0) := of_core rfl rfl id
theorem niwo (x0 : CoreId) : Statement (.niwo x0) := of_core rfl rfl id
theorem niwc (x0 : CoreId) : Statement (.niwc x0) := of_core rfl rfl id
theorem fence (x0 : CoreId) : Statement (.fence x0) := of_core rfl rfl id
theorem loop (x0 : CoreId) (x1 : BitVec 8) : Statement (.loop x0 x1) := of_core rfl rfl id
theorem rep (x0 : CoreId) : Statement (.rep x0) := of_core rfl rfl id
theorem repi (x0 : CoreId) (x1 : BitVec 6) : Statement (.repi x0 x1) := of_core rfl rfl id
theorem flFetch (x0 : CoreId) : Statement (.flFetch x0) := of_core rfl rfl id
theorem flStore (x0 : CoreId) : Statement (.flStore x0) := of_core rfl rfl id
theorem lcFetch (x0 : CoreId) : Statement (.lcFetch x0) := of_core rfl rfl id
theorem lcStore (x0 : CoreId) : Statement (.lcStore x0) := of_core rfl rfl id
theorem lsFetch (x0 : CoreId) : Statement (.lsFetch x0) := of_core rfl rfl id
theorem lsStore (x0 : CoreId) : Statement (.lsStore x0) := of_core rfl rfl id
theorem leFetch (x0 : CoreId) : Statement (.leFetch x0) := of_core rfl rfl id
theorem leStore (x0 : CoreId) : Statement (.leStore x0) := of_core rfl rfl id
theorem rcFetch (x0 : CoreId) : Statement (.rcFetch x0) := of_core rfl rfl id
theorem depth (x0 : CoreId) : Statement (.depth x0) := of_core rfl rfl id
theorem rdepth (x0 : CoreId) : Statement (.rdepth x0) := of_core rfl rfl id
theorem lpush (x0 : CoreId) : Statement (.lpush x0) := of_core rfl rfl id
theorem lpop (x0 : CoreId) : Statement (.lpop x0) := of_core rfl rfl id
theorem leave (x0 : CoreId) : Statement (.leave x0) := of_core rfl rfl id
theorem ctxid (x0 : CoreId) : Statement (.ctxid x0) := of_core rfl rfl id
theorem ldp (x0 : CoreId) (x1 : BitVec 3) : Statement (.ldp x0 x1) := of_core rfl rfl id
theorem stp (x0 : CoreId) (x1 : BitVec 3) : Statement (.stp x0 x1) := of_core rfl rfl id
theorem ld2p (x0 : CoreId) (x1 : BitVec 3) : Statement (.ld2p x0 x1) := of_core rfl rfl id
theorem st2p (x0 : CoreId) (x1 : BitVec 3) : Statement (.st2p x0 x1) := of_core rfl rfl id
theorem tas (x0 : CoreId) (x1 : BitVec 3) : Statement (.tas x0 x1) := of_core rfl rfl id
theorem lr (x0 : CoreId) (x1 : BitVec 3) : Statement (.lr x0 x1) := of_core rfl rfl id
theorem sc (x0 : CoreId) (x1 : BitVec 3) : Statement (.sc x0 x1) := of_core rfl rfl id
theorem ldmStep (x0 : CoreId) (x1 : BitVec 3) : Statement (.ldmStep x0 x1) := of_core rfl rfl id
theorem stmStep (x0 : CoreId) (x1 : BitVec 3) : Statement (.stmStep x0 x1) := of_core rfl rfl id
theorem cmov (x0 : CoreId) (x1 : BitVec 3) (x2 : BitVec 3) : Statement (.cmov x0 x1 x2) := of_core rfl rfl id
theorem cderive (x0 : CoreId) (x1 : BitVec 3) (x2 : BitVec 3) : Statement (.cderive x0 x1 x2) := of_core rfl rfl id
theorem cseal (x0 : CoreId) (x1 : BitVec 3) (x2 : BitVec 3) : Statement (.cseal x0 x1 x2) := of_core rfl rfl id
theorem cunseal (x0 : CoreId) (x1 : BitVec 3) (x2 : BitVec 3) : Statement (.cunseal x0 x1 x2) := of_core rfl rfl id
theorem cbase (x0 : CoreId) (x1 : BitVec 3) : Statement (.cbase x0 x1) := of_core rfl rfl id
theorem clen (x0 : CoreId) (x1 : BitVec 3) : Statement (.clen x0 x1) := of_core rfl rfl id
theorem cperm (x0 : CoreId) (x1 : BitVec 3) : Statement (.cperm x0 x1) := of_core rfl rfl id
theorem cattr (x0 : CoreId) (x1 : BitVec 3) : Statement (.cattr x0 x1) := of_core rfl rfl id
theorem cowner (x0 : CoreId) (x1 : BitVec 3) : Statement (.cowner x0 x1) := of_core rfl rfl id
theorem ctag (x0 : CoreId) (x1 : BitVec 3) : Statement (.ctag x0 x1) := of_core rfl rfl id
theorem cclr (x0 : CoreId) (x1 : BitVec 3) : Statement (.cclr x0 x1) := of_core rfl rfl id
theorem cprior (x0 : CoreId) (x1 : BitVec 3) : Statement (.cprior x0 x1) := of_core rfl rfl id
theorem cskey (x0 : CoreId) (x1 : BitVec 3) : Statement (.cskey x0 x1) := of_core rfl rfl id
theorem cldc (x0 : CoreId) (x1 : BitVec 3) (x2 : BitVec 3) : Statement (.cldc x0 x1 x2) := of_core rfl rfl id
theorem cstc (x0 : CoreId) (x1 : BitVec 3) (x2 : BitVec 3) : Statement (.cstc x0 x1 x2) := of_core rfl rfl id
theorem sev (x0 : CoreId) (x1 : BitVec 6) : Statement (.sev x0 x1) := of_core rfl rfl id
theorem lith (x0 : CoreId) (x1 : BitVec 8) : Statement (.lith x0 x1) := of_core rfl rfl id
theorem trap (x0 : CoreId) (x1 : BitVec 8) (x2 : List Upset) : Statement (.trap x0 x1 x2) := of_core rfl rfl id
theorem vissue (x0 : CoreId) (x1 : BitVec 3) : Statement (.vissue x0 x1) := of_core rfl rfl id
theorem vwait (x0 : CoreId) : Statement (.vwait x0) := of_core rfl rfl id
theorem vresume (x0 : CoreId) : Statement (.vresume x0) := of_core rfl rfl id
theorem vtest (x0 : CoreId) : Statement (.vtest x0) := of_core rfl rfl id
theorem vprFetch (x0 : CoreId) : Statement (.vprFetch x0) := of_core rfl rfl id
theorem vprStore (x0 : CoreId) : Statement (.vprStore x0) := of_core rfl rfl id
theorem undefinedWord (x0 : CoreId) (x1 : BitVec 14) : Statement (.undefinedWord x0 x1) := of_none rfl rfl
theorem spillTrap (x0 : CoreId) (x1 : List Upset) : Statement (.spillTrap x0 x1) := of_none rfl rfl
theorem fillTrap (x0 : CoreId) (x1 : List Upset) : Statement (.fillTrap x0 x1) := of_none rfl rfl
theorem interruptRecognise (x0 : CoreId) : Statement (.interruptRecognise x0) := of_none rfl rfl
theorem faultEntry (x0 : CoreId) : Statement (.faultEntry x0) := of_none rfl rfl
theorem niwExpiry (x0 : CoreId) : Statement (.niwExpiry x0) := of_none rfl rfl
theorem budgetExhausted (x0 : CoreId) : Statement (.budgetExhausted x0) := of_none rfl rfl
theorem quantumExpiry (x0 : CoreId) : Statement (.quantumExpiry x0) := of_none rfl rfl
theorem contextDispatch (x0 : CoreId) : Statement (.contextDispatch x0) := of_none rfl rfl
theorem contextEvict (x0 : CoreId) (x1 : BitVec 9) : Statement (.contextEvict x0 x1) := of_none rfl rfl
theorem contextLoad (x0 : CoreId) (x1 : BitVec 9) : Statement (.contextLoad x0 x1) := of_none rfl rfl
theorem ctxLoad (x0 : Nat) (x1 : BitVec 9) : Statement (.ctxLoad x0 x1) := of_none rfl rfl
theorem ctxWake (x0 : Nat) (x1 : BitVec 9) : Statement (.ctxWake x0 x1) := of_none rfl rfl
theorem ctxPark (x0 : Nat) (x1 : BitVec 9) : Statement (.ctxPark x0 x1) := of_none rfl rfl
theorem ctxFree (x0 : Nat) (x1 : BitVec 9) : Statement (.ctxFree x0 x1) := of_none rfl rfl
theorem ctxSetbud (x0 : Nat) (x1 : BitVec 9) : Statement (.ctxSetbud x0 x1) := of_none rfl rfl
theorem ctxCmdNone (x0 : Nat) (x1 : BitVec 9) : Statement (.ctxCmdNone x0 x1) := of_none rfl rfl
theorem ctxDataWrite (x0 : Nat) (x1 : Reg) : Statement (.ctxDataWrite x0 x1) := of_none rfl rfl
theorem svwDataWrite (x0 : CoreId) (x1 : Reg) : Statement (.svwDataWrite x0 x1) := of_none rfl rfl
theorem mint (x0 : Agent) : Statement (.mint x0) := of_none rfl rfl
theorem mintCopy (x0 : Agent) (x1 : BitVec 3) : Statement (.mintCopy x0 x1) := of_none rfl rfl
theorem mintDone : Statement (.mintDone) := of_none rfl rfl
theorem splitEnApply (x0 : CoreId) : Statement (.splitEnApply x0) := of_none rfl rfl
theorem detSwitch (x0 : CoreId) : Statement (.detSwitch x0) := of_none rfl rfl
theorem lineRequest (x0 : CoreId) (x1 : BitVec 18) : Statement (.lineRequest x0 x1) := of_none rfl rfl
theorem lineDelivered (x0 : CoreId) (x1 : BitVec 252) (x2 : BitVec 4) (x3 : Bool) : Statement (.lineDelivered x0 x1 x2 x3) := of_none rfl rfl
theorem codeLineWrite (x0 : Agent) : Statement (.codeLineWrite x0) := of_none rfl rfl
theorem codeWriteDone (x0 : Bool) : Statement (.codeWriteDone x0) := of_none rfl rfl
theorem lcInvalidate (x0 : Agent) : Statement (.lcInvalidate x0) := of_none rfl rfl
theorem seqDetRead (x0 : Agent) (x1 : CoreId) (x2 : Bool) : Statement (.seqDetRead x0 x1 x2) := of_none rfl rfl
theorem seqExcCntRead (x0 : Agent) (x1 : CoreId) : Statement (.seqExcCntRead x0 x1) := of_none rfl rfl
theorem hifEnable : Statement (.hifEnable) := of_none rfl rfl
theorem ringEnable (x0 : Nat) (x1 : Reg) : Statement (.ringEnable x0 x1) := of_none rfl rfl
theorem ringDisable (x0 : Nat) : Statement (.ringDisable x0) := of_none rfl rfl
theorem doorbellSqtail (x0 : Nat) (x1 : Reg) : Statement (.doorbellSqtail x0 x1) := of_none rfl rfl
theorem doorbellCqhead (x0 : Nat) (x1 : Reg) : Statement (.doorbellCqhead x0 x1) := of_none rfl rfl
theorem inlineDoorbell (x0 : Nat) (x1 : NpxBeat) : Statement (.inlineDoorbell x0 x1) := of_none rfl rfl
theorem descriptorFetch : Statement (.descriptorFetch) := of_none rfl rfl
theorem descriptorReadDone (x0 : Nat) (x1 : List RdBeat) (x2 : List Upset) : Statement (.descriptorReadDone x0 x1 x2) := of_none rfl rfl
theorem postRecord (x0 : Reg) : Statement (.postRecord x0) := of_none rfl rfl
theorem completionRecordWrite (x0 : Nat) : Statement (.completionRecordWrite x0) := of_none rfl rfl
theorem recordWriteResponse (x0 : Nat) (x1 : BitVec 2) : Statement (.recordWriteResponse x0 x1) := of_none rfl rfl
theorem broadcastWrite (x0 : Agent) (x1 : BitVec 22) (x2 : Reg) : Statement (.broadcastWrite x0 x1 x2) := of_none rfl rfl
theorem wrFrame (x0 : Nat) (x1 : Frame) (x2 : List Upset) : Statement (.wrFrame x0 x1 x2) := of_none rfl rfl
theorem rdFrame (x0 : Nat) (x1 : Frame) (x2 : List Upset) : Statement (.rdFrame x0 x1 x2) := of_none rfl rfl
theorem wrackFrame (x0 : Nat) (x1 : Frame) : Statement (.wrackFrame x0 x1) := of_none rfl rfl
theorem rdrFrame (x0 : Nat) (x1 : Frame) (x2 : List Upset) : Statement (.rdrFrame x0 x1 x2) := of_none rfl rfl
theorem frameForward (x0 : Nat) (x1 : Frame) : Statement (.frameForward x0 x1) := of_none rfl rfl
theorem frameSend (x0 : Nat) (x1 : BitVec 2) : Statement (.frameSend x0 x1) := of_none rfl rfl
theorem linkFrame (x0 : Nat) (x1 : Frame) : Statement (.linkFrame x0 x1) := of_none rfl rfl
theorem capxFrame (x0 : Nat) (x1 : Frame) : Statement (.capxFrame x0 x1) := of_none rfl rfl
theorem discFrame (x0 : Nat) (x1 : Frame) : Statement (.discFrame x0 x1) := of_none rfl rfl
theorem joinFrame (x0 : Nat) (x1 : Frame) : Statement (.joinFrame x0 x1) := of_none rfl rfl
theorem assignFrame (x0 : Nat) (x1 : Frame) : Statement (.assignFrame x0 x1) := of_none rfl rfl
theorem tsyncFrame (x0 : Nat) (x1 : Frame) : Statement (.tsyncFrame x0 x1) := of_none rfl rfl
theorem tsyncExchange (x0 : Nat) : Statement (.tsyncExchange x0) := of_none rfl rfl
theorem slewCorrection : Statement (.slewCorrection) := of_none rfl rfl
theorem discoveryStart : Statement (.discoveryStart) := of_none rfl rfl
theorem discSend : Statement (.discSend) := of_none rfl rfl
theorem joinSend : Statement (.joinSend) := of_none rfl rfl
theorem monarchAssign : Statement (.monarchAssign) := of_none rfl rfl
theorem linkDown (x0 : Nat × Option (BitVec 3)) : Statement (.linkDown x0) := of_none rfl rfl
theorem linkTrainStart (x0 : Nat) : Statement (.linkTrainStart x0) := of_none rfl rfl
theorem linkTrained (x0 : Nat) (x1 : BitVec 5) : Statement (.linkTrained x0 x1) := of_none rfl rfl
theorem linkRetrain (x0 : Nat) : Statement (.linkRetrain x0) := of_none rfl rfl
theorem linkAuthTimeout (x0 : Nat) : Statement (.linkAuthTimeout x0) := of_none rfl rfl
theorem laneMarginLow (x0 : Nat) (x1 : BitVec 3) (x2 : BitVec 8) : Statement (.laneMarginLow x0 x1 x2) := of_none rfl rfl
theorem txGo (x0 : Nat) (x1 : Reg) : Statement (.txGo x0 x1) := of_none rfl rfl
theorem txFrameIssue (x0 : Nat) (x1 : List Upset) : Statement (.txFrameIssue x0 x1) := of_none rfl rfl
theorem txFrameTimeout (x0 : Nat) (x1 : BitVec 8) : Statement (.txFrameTimeout x0 x1) := of_none rfl rfl
theorem txAbort (x0 : Nat) : Statement (.txAbort x0) := of_none rfl rfl
theorem linkCntRead (x0 : Agent) (x1 : Nat) : Statement (.linkCntRead x0 x1) := of_none rfl rfl
theorem eventPending (x0 : Nat) : Statement (.eventPending x0) := of_none rfl rfl
theorem moderationTimeout (x0 : Nat) : Statement (.moderationTimeout x0) := of_none rfl rfl
theorem evcClaim (x0 : Agent) (x1 : Nat) : Statement (.evcClaim x0 x1) := of_none rfl rfl
theorem evcDone (x0 : Agent) (x1 : Nat) (x2 : BitVec 3) : Statement (.evcDone x0 x1 x2) := of_none rfl rfl
theorem evcPush (x0 : Agent) (x1 : Nat) (x2 : BitVec 3) : Statement (.evcPush x0 x1 x2) := of_none rfl rfl
theorem evcSrcClear : Statement (.evcSrcClear) := of_none rfl rfl
theorem evcSwev (x0 : BitVec 9) : Statement (.evcSwev x0) := of_none rfl rfl
theorem mothWake (x0 : BitVec 5) : Statement (.mothWake x0) := of_none rfl rfl
theorem mclkStable : Statement (.mclkStable) := of_none rfl rfl
theorem mgmtWrite (x0 : Reg) : Statement (.mgmtWrite x0) := of_none rfl rfl
theorem tbLoad : Statement (.tbLoad) := of_none rfl rfl
theorem compareMatch (x0 : Nat) : Statement (.compareMatch x0) := of_none rfl rfl
theorem cmpStage (x0 : Nat) (x1 : Reg) : Statement (.cmpStage x0 x1) := of_none rfl rfl
theorem cmpCommit (x0 : Nat) (x1 : Reg) : Statement (.cmpCommit x0 x1) := of_none rfl rfl
theorem cmpEnable (x0 : Nat) (x1 : Reg) : Statement (.cmpEnable x0 x1) := of_none rfl rfl
theorem cmpStatRead (x0 : Agent) (x1 : Nat) : Statement (.cmpStatRead x0 x1) := of_none rfl rfl
theorem groupLoad (x0 : Reg) : Statement (.groupLoad x0) := of_none rfl rfl
theorem captureEdge (x0 : Nat) (x1 : Bool) : Statement (.captureEdge x0 x1) := of_none rfl rfl
theorem capRiseRead (x0 : Agent) (x1 : Nat) : Statement (.capRiseRead x0 x1) := of_none rfl rfl
theorem capFallRead (x0 : Agent) (x1 : Nat) : Statement (.capFallRead x0 x1) := of_none rfl rfl
theorem capWidthRead (x0 : Agent) (x1 : Nat) : Statement (.capWidthRead x0 x1) := of_none rfl rfl
theorem tickArm : Statement (.tickArm) := of_none rfl rfl
theorem tickPeriodWrite (x0 : Reg) : Statement (.tickPeriodWrite x0) := of_none rfl rfl
theorem tickStatRead (x0 : Agent) : Statement (.tickStatRead x0) := of_none rfl rfl
theorem wdgWarn : Statement (.wdgWarn) := of_none rfl rfl
theorem wdgExpire : Statement (.wdgExpire) := of_none rfl rfl
theorem wdgService (x0 : BitVec 32) : Statement (.wdgService x0) := of_none rfl rfl
theorem wdgLock (x0 : Reg) : Statement (.wdgLock x0) := of_none rfl rfl
theorem pmuCntRead (x0 : Agent) (x1 : Nat) : Statement (.pmuCntRead x0 x1) := of_none rfl rfl
theorem pmuSnapshot : Statement (.pmuSnapshot) := of_none rfl rfl
theorem pmuClear : Statement (.pmuClear) := of_none rfl rfl
theorem ringletEnable (x0 : Reg) : Statement (.ringletEnable x0) := of_none rfl rfl
theorem ringletWrite : Statement (.ringletWrite) := of_none rfl rfl
theorem ringletWriteDone (x0 : Bool) : Statement (.ringletWriteDone x0) := of_none rfl rfl
theorem pmuRlCntRead (x0 : Agent) : Statement (.pmuRlCntRead x0) := of_none rfl rfl
theorem bwWindowEnd : Statement (.bwWindowEnd) := of_none rfl rfl
theorem pmuBwMaxRead (x0 : Agent) (x1 : Nat) : Statement (.pmuBwMaxRead x0 x1) := of_none rfl rfl
theorem tapIrUpdate (x0 : BitVec 5) : Statement (.tapIrUpdate x0) := of_none rfl rfl
theorem dbgregRead (x0 : BitVec 14) : Statement (.dbgregRead x0) := of_none rfl rfl
theorem dbgregWrite (x0 : BitVec 14) (x1 : Reg) : Statement (.dbgregWrite x0 x1) := of_none rfl rfl
theorem dbgregStatus : Statement (.dbgregStatus) := of_none rfl rfl
theorem dbgregNop : Statement (.dbgregNop) := of_none rfl rfl
theorem dbgregCapture : Statement (.dbgregCapture) := of_none rfl rfl
theorem daprAccess (x0 : Bool) (x1 : BitVec 14) (x2 : Reg) : Statement (.daprAccess x0 x1 x2) := of_none rfl rfl
theorem masterWrite (x0 : Reg) : Statement (.masterWrite x0) := of_none rfl rfl
theorem masterRead : Statement (.masterRead) := of_none rfl rfl
theorem masterAccessDone (x0 : Reg) (x1 : BitVec 2) (x2 : List Upset) : Statement (.masterAccessDone x0 x1 x2) := of_none rfl rfl
theorem haltRequest : Statement (.haltRequest) := of_none rfl rfl
theorem haltEntry (x0 : CoreId) : Statement (.haltEntry x0) := of_none rfl rfl
theorem resume : Statement (.resume) := of_none rfl rfl
theorem step : Statement (.step) := of_none rfl rfl
theorem msvDataWrite (x0 : Reg) : Statement (.msvDataWrite x0) := of_none rfl rfl
theorem podFreeze (x0 : BitVec 16) : Statement (.podFreeze x0) := of_none rfl rfl
theorem crossTrigger (x0 : CoreId) : Statement (.crossTrigger x0) := of_none rfl rfl
theorem vtCdataWrite (x0 : Agent) (x1 : Nat) (x2 : Reg) : Statement (.vtCdataWrite x0 x1 x2) := of_none rfl rfl
theorem vtCdataRead (x0 : Agent) (x1 : Nat) : Statement (.vtCdataRead x0 x1) := of_none rfl rfl
theorem vtDdataWrite (x0 : Nat) (x1 : Reg) : Statement (.vtDdataWrite x0 x1) := of_none rfl rfl
theorem vtDdataRead (x0 : Nat) : Statement (.vtDdataRead x0) := of_none rfl rfl
theorem authNew : Statement (.authNew) := of_none rfl rfl
theorem authVerify (x0 : Bool) : Statement (.authVerify x0) := of_none rfl rfl
theorem authVerifyDone : Statement (.authVerifyDone) := of_none rfl rfl
theorem authDrop : Statement (.authDrop) := of_none rfl rfl
theorem swapStage (x0 : Reg) : Statement (.swapStage x0) := of_none rfl rfl
theorem bankCopyDone : Statement (.bankCopyDone) := of_none rfl rfl
theorem swapApply (x0 : List Upset) : Statement (.swapApply x0) := of_none rfl rfl
theorem selftestStart (x0 : Nat) : Statement (.selftestStart x0) := of_none rfl rfl
theorem selftestDone (x0 : Nat) (x1 : Bool) : Statement (.selftestDone x0 x1) := of_none rfl rfl
theorem lockstepMismatch : Statement (.lockstepMismatch) := of_none rfl rfl
theorem railSample (x0 : BitVec 12) : Statement (.railSample x0) := of_none rfl rfl
theorem railDataRead (x0 : Agent) : Statement (.railDataRead x0) := of_none rfl rfl
theorem thermalSample (x0 : BitVec 4) (x1 : BitVec 12) : Statement (.thermalSample x0 x1) := of_none rfl rfl
theorem thermDataRead (x0 : Agent) : Statement (.thermDataRead x0) := of_none rfl rfl
theorem logPop : Statement (.logPop) := of_none rfl rfl
theorem imageDataWrite (x0 : Reg) : Statement (.imageDataWrite x0) := of_none rfl rfl
theorem imageLoad : Statement (.imageLoad) := of_none rfl rfl
theorem entropyFail : Statement (.entropyFail) := of_none rfl rfl
theorem drbgReseed : Statement (.drbgReseed) := of_none rfl rfl
theorem versionAdvance (x0 : Agent) : Statement (.versionAdvance x0) := of_none rfl rfl
theorem secLockSet (x0 : Agent) : Statement (.secLockSet x0) := of_none rfl rfl
theorem secRefuseRead (x0 : Agent) : Statement (.secRefuseRead x0) := of_none rfl rfl
theorem auditPop (x0 : Agent) : Statement (.auditPop x0) := of_none rfl rfl
theorem pwrReqRun (x0 : Agent) : Statement (.pwrReqRun x0) := of_none rfl rfl
theorem pwrReqDoze (x0 : Agent) : Statement (.pwrReqDoze x0) := of_none rfl rfl
theorem pwrReqNap (x0 : Agent) : Statement (.pwrReqNap x0) := of_none rfl rfl
theorem pwrReqSleep (x0 : Agent) : Statement (.pwrReqSleep x0) := of_none rfl rfl
theorem pwrReqNone (x0 : Agent) : Statement (.pwrReqNone x0) := of_none rfl rfl
theorem napEntryDone : Statement (.napEntryDone) := of_none rfl rfl
theorem sleepEntryDone : Statement (.sleepEntryDone) := of_none rfl rfl
theorem napExit : Statement (.napExit) := of_none rfl rfl
theorem sleepExit : Statement (.sleepExit) := of_none rfl rfl
theorem supplyLoss : Statement (.supplyLoss) := of_none rfl rfl
theorem powerOn : Statement (.powerOn) := of_none rfl rfl
theorem coldResetPin (x0 : Bool) : Statement (.coldResetPin x0) := of_none rfl rfl
theorem warmResetPin (x0 : Bool) : Statement (.warmResetPin x0) := of_none rfl rfl
theorem coldResetRequest (x0 : Agent) : Statement (.coldResetRequest x0) := of_none rfl rfl
theorem warmResetRequest (x0 : Agent) : Statement (.warmResetRequest x0) := of_none rfl rfl
theorem domainReset (x0 : Agent) (x1 : Reg) : Statement (.domainReset x0 x1) := of_none rfl rfl
theorem startupCheck (x0 : Bool) (x1 : BitVec 12) (x2 : BitVec 16) : Statement (.startupCheck x0 x1 x2) := of_none rfl rfl
theorem supervisorRelease (x0 : BootImage) : Statement (.supervisorRelease x0) := of_none rfl rfl
theorem scratchInitDone : Statement (.scratchInitDone) := of_none rfl rfl
theorem seqRelease (x0 : Agent) : Statement (.seqRelease x0) := of_none rfl rfl
theorem islandPowerAck (x0 : BitVec 6) : Statement (.islandPowerAck x0) := of_none rfl rfl
theorem islandAckTimeout (x0 : BitVec 6) : Statement (.islandAckTimeout x0) := of_none rfl rfl
theorem selfRefreshAck (x0 : Nat) : Statement (.selfRefreshAck x0) := of_none rfl rfl
theorem backgroundReclaimVisit (x0 : Nat) : Statement (.backgroundReclaimVisit x0) := of_none rfl rfl
theorem badFrame (x0 : Nat) (x1 : BadFrame) (x2 : Frame) : Statement (.badFrame x0 x1 x2) := of_none rfl rfl
theorem entropyRecovery : Statement (.entropyRecovery) := of_none rfl rfl
theorem secureBootFail (x0 : BootImage) : Statement (.secureBootFail x0) := of_none rfl rfl
theorem pmuCounterOverflow (x0 : Nat) (x1 : BitVec 32) : Statement (.pmuCounterOverflow x0 x1) := of_none rfl rfl

end Sys2Proof.Laws.ProgramWord
end

