-- ==== Sys2Proof/Laws/Sprin.lean ====
section
/-! SUPPORT. What issuing and retiring an instruction do: one lemma for an instruction that can run, the stacks that an effect leaves, and the
frame of a retirement. -/

namespace Sys2Proof.Machine

/-! ### Stacks -/

theorem Bank.opd_pushes (out : List Word) (b : Bank) : (out.foldl Bank.push b).opd = b.opd + out.length := by
  induction out generalizing b with
  | nil => rfl
  | cons w ws ih => simp only [List.foldl_cons, ih, Bank.push, List.length_cons]; omega

@[simp] theorem Bank.rets_pushes (out : List Word) (b : Bank) : (out.foldl Bank.push b).rets = b.rets := by
  induction out generalizing b with
  | nil => rfl
  | cons w ws ih => rw [List.foldl_cons, ih]; rfl

@[simp] theorem Bank.rtd_pushes (out : List Word) (b : Bank) : (out.foldl Bank.push b).rtd = b.rtd := by
  induction out generalizing b with
  | nil => rfl
  | cons w ws ih => rw [List.foldl_cons, ih]; rfl

theorem Bank.cells_pushes (out : List Word) (b : Bank) (i : Nat) : Tbl.get 0 i (out.foldl Bank.push b).cells =
    if b.opd ≤ i ∧ i < b.opd + out.length then out.getD (i - b.opd) 0 else Tbl.get 0 i b.cells := by
  induction out generalizing b with
  | nil => rw [if_neg (by simp only [List.length_nil]; omega)]; rfl
  | cons w ws ih =>
    rw [List.foldl_cons, ih]
    simp only [Bank.push, Tbl.get_set, List.length_cons]
    by_cases h1 : i = b.opd
    · subst h1; rw [if_neg (by omega), if_pos rfl, if_pos (by omega), Nat.sub_self]; rfl
    · by_cases h2 : b.opd + 1 ≤ i ∧ i < b.opd + 1 + ws.length
      · have h3 : b.opd ≤ i ∧ i < b.opd + (ws.length + 1) := by omega
        rw [if_pos h2, if_pos h3, show i - b.opd = (i - (b.opd + 1)) + 1 by omega]; simp
      · have h3 : ¬ (b.opd ≤ i ∧ i < b.opd + (ws.length + 1)) := by omega
        rw [if_neg h2, if_neg h3, if_neg h1]

theorem Bank.rtd_rpushes (out : List PC) (b : Bank) : (out.foldl Bank.rpush b).rtd = b.rtd + out.length := by
  induction out generalizing b with
  | nil => rfl
  | cons w ws ih => simp only [List.foldl_cons, ih, Bank.rpush, List.length_cons]; omega

@[simp] theorem Bank.cells_rpushes (out : List PC) (b : Bank) : (out.foldl Bank.rpush b).cells = b.cells := by
  induction out generalizing b with
  | nil => rfl
  | cons w ws ih => rw [List.foldl_cons, ih]; rfl

@[simp] theorem Bank.opd_rpushes (out : List PC) (b : Bank) : (out.foldl Bank.rpush b).opd = b.opd := by
  induction out generalizing b with
  | nil => rfl
  | cons w ws ih => rw [List.foldl_cons, ih]; rfl

theorem Bank.rets_rpushes (out : List PC) (b : Bank) (i : Nat) : Tbl.get 0 i (out.foldl Bank.rpush b).rets =
    if b.rtd ≤ i ∧ i < b.rtd + out.length then out.getD (i - b.rtd) 0 else Tbl.get 0 i b.rets := by
  induction out generalizing b with
  | nil => rw [if_neg (by simp only [List.length_nil]; omega)]; rfl
  | cons w ws ih =>
    rw [List.foldl_cons, ih]
    simp only [Bank.rpush, Tbl.get_set, List.length_cons]
    by_cases h1 : i = b.rtd
    · subst h1; rw [if_neg (by omega), if_pos rfl, if_pos (by omega), Nat.sub_self]; rfl
    · by_cases h2 : b.rtd + 1 ≤ i ∧ i < b.rtd + 1 + ws.length
      · have h3 : b.rtd ≤ i ∧ i < b.rtd + (ws.length + 1) := by omega
        rw [if_pos h2, if_pos h3, show i - b.rtd = (i - (b.rtd + 1)) + 1 by omega]; simp
      · have h3 : ¬ (b.rtd ≤ i ∧ i < b.rtd + (ws.length + 1)) := by omega
        rw [if_neg h2, if_neg h3, if_neg h1]

/-- What `View.eff` leaves: the cells taken replaced by `out`, the rest and the return stack as they were. -/
theorem View.leaves_eff (v : View) (p : Nat) (out : List Word) : v.leaves (v.eff p out) p out := by
  refine ⟨⟨by simp [View.eff, Bank.opd_pushes], ?_, ?_⟩, by simp [View.eff], by simp [View.eff]⟩
  · intro i hi
    simp only [View.eff, Bank.cells_pushes]
    rw [if_neg (by omega)]
  · intro i hi
    simp only [View.eff, Bank.cells_pushes]
    rw [if_pos (by omega), Nat.add_sub_cancel_left]

/-- What `View.reff` leaves. -/
theorem View.rleaves_reff (v : View) (p : Nat) (out : List PC) : v.rleaves (v.reff p out) p out := by
  refine ⟨by simp [View.reff, Bank.rtd_rpushes], ?_, ?_⟩
  · intro i hi
    simp only [View.reff, Bank.rets_rpushes]
    rw [if_neg (by omega)]
  · intro i hi
    simp only [View.reff, Bank.rets_rpushes]
    rw [if_pos (by omega), Nat.add_sub_cancel_left]

/-! ### Issue -/

/-- The depth check passes where the level has what the shape takes and room for what it leaves. -/
theorem depthCheck_ok {v : View} {live : Bool} {osc rsc : Word} {i : Shape} (hp : i.p ≤ v.depth) (hr : i.rp ≤ v.rdepth)
    (hq : v.bank.opd + i.q ≤ v.ocap + i.p) (hrq : v.bank.rtd + i.rq ≤ v.rcap + i.rp) :
    depthCheck v live osc rsc i = .ok := by
  have hd : v.depth ≤ v.bank.opd := Nat.sub_le _ _
  have hrd : v.rdepth ≤ v.bank.rtd := Nat.sub_le _ _
  have h1 : ¬ v.depth < i.p := by omega
  have h2 : ¬ v.rdepth < i.rp := by omega
  have h3 : ¬ v.ocap < v.bank.opd - i.p + i.q := by omega
  have h4 : ¬ v.rcap < v.bank.rtd - i.rp + i.rq := by omega
  cases live <;> simp [depthCheck, h1, h2, h3, h4]

/-- An instruction that can run runs: its effect is its body's, with the line it lies in entered. -/
theorem issue_runs {s : State} {c : CoreId} {v : View} {i : Shape} (body : View → State → State) (h : s.ready c v)
    (ht : s.takes c v i.p i.q i.rp i.rq) (hl : illegalCause c (s.core c) v.regs i = none) (hr : s.repCounts c v)
    (hp : i.plain = true ∨ (s.core c).flight = []) : issue c i body s = .next (body v (s.entered c)) := by
  obtain ⟨hb, hv, hc, ho, hbp, hf, hw, _⟩ := h
  obtain ⟨h1, h2, h3, h4, h5⟩ := ht
  have hr' : ¬ ((s.core c).rep.isSome = true ∧ v.regs.rc = 0) := by
    intro ⟨ha, hb⟩; rw [hr hb] at ha; simp at ha
  have hp' : ¬ (i.plain = false ∧ (s.core c).flight.isEmpty = false) := by
    intro ⟨ha, hb⟩; rcases hp with hp | hp <;> simp_all
  simp only [issue, State.entered, hb, hv, hc, ho, hbp, hf, hw, hl, depthCheck_ok h1 h2 h3 h4, h5]
  simp only [Bool.not_true, Bool.false_eq_true, if_false, or_self, if_neg hr', false_or]
  simp_all

/-- No opcode fault for a shape that is defined, present, allowed at the level and, under REP, repeatable. -/
theorem legal {c : CoreId} {k : Core} {r : Regs} {i : Shape} (hu : i.undef = false) (ha : i.absent = false)
    (hr : i.rep = true ∨ (r.rc = 0 ∧ k.rep = none)) (hl : i.levels.contains k.level = true) : illegalCause c k r i = none := by
  rcases hr with hr | ⟨h1, h2⟩
  · simp_all [illegalCause]
  · simp_all [illegalCause]

/-- Every level is among those of a shape that names none. -/
theorem level_any {k : Core} (h : k.level.toNat ≤ 12) : ({} : Shape).levels.contains k.level = true := by
  have : ∀ l : BitVec 4, l.toNat ≤ 12 → ({} : Shape).levels.contains l = true := by decide
  exact this _ h

/-! ### Retirement -/

theorem tally_eq (u i e n : Nat) (s : State) :
    tally u i e n s = { s with pmu := { s.pmu with now := (tally u i e n s).pmu.now } } := rfl

/-- An occurrence at a core changes the PMU's count of it alone. -/
theorem tallyCore_eq (c : CoreId) (e : Nat) (s : State) :
    tallyCore c e s = { s with pmu := { s.pmu with now := (tallyCore c e s).pmu.now } } := by
  unfold tallyCore
  split
  · split <;> rfl
  · rfl

/-- What an issue ends on a core, whatever halt follows it. -/
theorem endIssue_eq (c : CoreId) (s : State) : ∃ a h n, endIssue c s = { s.setCore c { s.core c with
    rep := none, skipBp := false, stepping := false, fresh := false, flight := followed (s.core c).flight, after := a, haltReq := h } with
      pmu := { s.pmu with now := n } } := by
  unfold endIssue
  dsimp only
  split
  · next hf =>
    have hf : (s.core c).flight = [] := hf
    rw [tallyCore_eq]
    unfold Core.settle
    split <;> exact ⟨_, _, _, by simp only [Core.issued, hf, followed]; rfl⟩
  · exact ⟨_, _, s.pmu.now, rfl⟩

/-- Entering a line moves lines within the core's fetch buffer alone. -/
theorem enterLine_eq (c : CoreId) (pc : PC) (s : State) :
    enterLine c pc s = s ∨ ∃ h a, enterLine c pc s = s.setCore c { s.core c with held := h, ahead := a } := by
  unfold enterLine
  dsimp only
  repeat' split
  · exact .inl rfl
  · exact .inr ⟨_, _, rfl⟩
  · exact .inr ⟨_, _, rfl⟩
  · exact .inl rfl

/-- The key of the live context rests on the spare map and the core's live slot. -/
theorem State.liveKey_congr {s t : State} {c : CoreId} (hr : t.regs = s.regs) (hb : t.build = s.build) (hl : (t.core c).live = (s.core c).live) :
    t.liveKey c = s.liveKey c := by
  have h : ∀ n, t.lsOfSeq n = s.lsOfSeq n := by
    intro n; unfold State.lsOfSeq State.retired State.reg; rw [hr, hb]
  cases c <;> simp [State.liveKey, hl, h]

/-- The running level rests on the spare map, the contexts, and the core's level, live slot, handler registers and bank. -/
theorem State.view_congr {s t : State} {c : CoreId} (hr : t.regs = s.regs) (hb : t.build = s.build) (hx : t.ctxs = s.ctxs)
    (hl : (t.core c).live = (s.core c).live) (hv : (t.core c).level = (s.core c).level) (hh : (t.core c).hr = (s.core c).hr)
    (hs : (t.core c).sbh = (s.core c).sbh) (hba : (t.core c).base = (s.core c).base) (hrb : (t.core c).rbase = (s.core c).rbase) :
    t.view c = s.view c := by
  simp only [State.view, State.liveKey_congr hr hb hl, State.ctxAt, hx, hv, hh, hs, hba, hrb]

/-- The level takes the registers and bank given to it, and keeps its bases and capacities. -/
theorem State.view_setView {s : State} {c : CoreId} {v : View} (w : View) (h : s.view c = some v) :
    (s.setView c w).view c = some { v with regs := w.regs, bank := w.bank } := by
  unfold State.view at h
  by_cases h0 : (s.core c).level = 0
  · cases hk : s.liveKey c with
    | none => simp [hk, h0] at h
    | some i =>
      simp only [hk, if_pos h0, Option.some.injEq] at h
      have e : s.setView c w = s.setCtxAt i { s.ctxAt i with r := w.regs, bank := w.bank } := by simp [State.setView, h0, hk]
      have hk' : (s.setView c w).liveKey c = some i := by rw [e]; exact hk
      have hc : (s.setView c w).core c = s.core c := by rw [e]; rfl
      unfold State.view
      rw [hk', hc]
      simp only [if_pos h0]
      rw [e, State.ctxAt_setCtxAt_self, ← h]
  · rw [if_neg h0, Option.some.injEq] at h
    have e : s.setView c w = s.setCore c { s.core c with hr := w.regs, sbh := w.bank } := by simp only [State.setView, if_neg h0]
    have hc : (s.setView c w).core c = { s.core c with hr := w.regs, sbh := w.bank } := by rw [e]; simp
    simp only [State.view, hc]
    rw [if_neg h0, ← h]

/-- What a change of the running level's registers and bank leaves. -/
theorem State.setView_frame (s : State) (c : CoreId) (w : View) :
    s.setView c w = { s with cores := (s.setView c w).cores, ctxs := (s.setView c w).ctxs } ∧
    (∀ k, k ≠ coreKey c → (s.setView c w).coreAt k = s.coreAt k) ∧
    (s.setView c w).core c = { s.core c with hr := ((s.setView c w).core c).hr, sbh := ((s.setView c w).core c).sbh } ∧
    (∀ k, s.liveKey c ≠ some k → (s.setView c w).ctxAt k = s.ctxAt k) ∧
    (∀ k, (s.setView c w).ctxAt k = { s.ctxAt k with r := ((s.setView c w).ctxAt k).r, bank := ((s.setView c w).ctxAt k).bank }) := by
  by_cases h0 : (s.core c).level = 0
  · cases hk : s.liveKey c with
    | none =>
      have e : s.setView c w = s := by simp [State.setView, h0, hk]
      rw [e]; exact ⟨rfl, fun _ _ => rfl, rfl, fun _ _ => rfl, fun _ => rfl⟩
    | some i =>
      have e : s.setView c w = s.setCtxAt i { s.ctxAt i with r := w.regs, bank := w.bank } := by simp [State.setView, h0, hk]
      rw [e]
      refine ⟨rfl, fun _ _ => rfl, rfl, ?_, ?_⟩
      · intro k h
        exact State.ctxAt_setCtxAt_ne _ (fun e => h (by rw [e])) _
      · intro k
        by_cases hki : k = i
        · subst hki; simp
        · simp [State.ctxAt_setCtxAt_ne _ hki]
  · have e : s.setView c w = s.setCore c { s.core c with hr := w.regs, sbh := w.bank } := by simp only [State.setView, if_neg h0]
    rw [e]
    refine ⟨rfl, ?_, by simp, fun _ _ => rfl, fun _ => rfl⟩
    intro k h
    exact State.coreAt_setCoreAt_ne _ h _

/-- A change of a core that keeps its level, live slot, registers and bank leaves its running level. -/
theorem State.view_setCore {s : State} {c : CoreId} {k : Core} (hl : k.live = (s.core c).live) (hv : k.level = (s.core c).level)
    (hh : k.hr = (s.core c).hr) (hs : k.sbh = (s.core c).sbh) (hb : k.base = (s.core c).base) (hr : k.rbase = (s.core c).rbase) :
    (s.setCore c k).view c = s.view c := by
  have e := State.core_setCore_self s c k
  exact State.view_congr rfl rfl rfl (by rw [e, hl]) (by rw [e, hv]) (by rw [e, hh]) (by rw [e, hs]) (by rw [e, hb]) (by rw [e, hr])

/-- Entering a line leaves the running level. -/
theorem view_entered (s : State) (c : CoreId) : (s.entered c).view c = s.view c := by
  unfold State.entered
  split
  · next v _ =>
    rcases enterLine_eq c v.regs.pc s with e | ⟨h, a, e⟩ <;> rw [e]
    exact State.view_setCore rfl rfl rfl rfl rfl rfl
  · rfl

/-- Entering a line leaves everything but the core. -/
theorem State.entered_frame (s : State) (c : CoreId) :
    s.entered c = { s with cores := (s.entered c).cores } ∧ (∀ k, k ≠ coreKey c → (s.entered c).coreAt k = s.coreAt k) ∧
    (s.entered c).core c = { s.core c with held := ((s.entered c).core c).held, ahead := ((s.entered c).core c).ahead } := by
  unfold State.entered
  split
  · next v _ =>
    rcases enterLine_eq c v.regs.pc s with e | ⟨h, a, e⟩ <;> rw [e]
    · exact ⟨rfl, fun _ _ => rfl, rfl⟩
    · exact ⟨rfl, fun k hk => State.coreAt_setCoreAt_ne _ hk _, by rw [State.core_setCore_self]⟩
  · exact ⟨rfl, fun _ _ => rfl, rfl⟩

/-- The end of an issue leaves the running level. -/
theorem view_endIssue (c : CoreId) (s : State) : (endIssue c s).view c = s.view c := by
  obtain ⟨a, h, n, e⟩ := endIssue_eq c s
  rw [e]
  exact State.view_setCore (s := { s with pmu := { s.pmu with now := n } }) rfl rfl rfl rfl rfl rfl

/-- An instruction leaves its level with the registers and bank of `w`. -/
theorem view_ends {s : State} {c : CoreId} {v : View} (w : View) (h : s.view c = some v) :
    (endIssue c ((s.entered c).setView c w)).view c = some { v with regs := w.regs, bank := w.bank } :=
  (view_endIssue ..).trans (State.view_setView w ((view_entered s c).trans h))

/-- The key of the live context is that of before the line was entered. -/
theorem State.liveKey_entered (s : State) (c : CoreId) : (s.entered c).liveKey c = s.liveKey c := by
  obtain ⟨h1, -, h3⟩ := State.entered_frame s c
  exact State.liveKey_congr (by rw [h1]) (by rw [h1]) (by rw [h3])

/-- The end of an instruction changes the running level alone. -/
theorem onlyLevel_ends (c : CoreId) (w : View) (s : State) (buf : Bool) : s.onlyLevel (endIssue c ((s.entered c).setView c w)) c buf := by
  obtain ⟨g1, g2, g3⟩ := State.entered_frame s c
  obtain ⟨h1, h2, h3, h4, h5⟩ := State.setView_frame (s.entered c) c w
  rw [State.liveKey_entered] at h4
  have hx : ∀ k, (s.entered c).ctxAt k = s.ctxAt k := fun k => by rw [g1]; rfl
  have hf : ((s.entered c).core c).flight = (s.core c).flight := by rw [g3]
  simp only [hx] at h4 h5
  generalize (s.entered c).setView c w = s1 at *
  obtain ⟨a, h, n, e⟩ := endIssue_eq c s1
  have hc : (endIssue c s1).core c = { s1.core c with
      rep := none, skipBp := false, stepping := false, fresh := false, flight := followed (s1.core c).flight, after := a, haltReq := h } := by
    rw [e]; exact State.core_setCore_self ..
  refine ⟨?_, ?_, ?_, ?_, ?_⟩
  · rw [e, h1, g1]; rfl
  · intro k hk
    rw [e, ← g2 k hk, ← h2 k hk]
    exact State.coreAt_setCoreAt_ne _ hk _
  · rw [hc, State.spent, h3, hf, g3]
    cases buf <;> rfl
  · intro k hk; rw [e]; exact h4 k hk
  · intro k; rw [e]; exact h5 k

/-! ### Completion -/

/-- Every instruction made by `cells` completes. -/
theorem completes_cells {i : CoreId → Instr} {p q : Nat} {f : View → List Word × Flags}
    (hi : ∀ c s, exec (i c) s = cells c p q f s) (hq : ∀ v, (f v).1.length = q) : Completes i p q f := by
  intro s c v hr ht hrep
  have hleg := legal (c := c) (k := s.core c) (r := v.regs) (i := { p := p, q := q, rep := true }) rfl rfl (Or.inl rfl)
    (level_any hr.2.2.2.2.2.2.2)
  have hrun := issue_runs (i := { p := p, q := q, rep := true })
    (fun v s => retire c ((v.eff p (f v).1).flags (f v).2) none s) hr ht hleg hrep (Or.inl rfl)
  exact ⟨_, _, (hi c s).trans hrun, view_ends _ hr.2.1, View.leaves_eff v p (f v).1, hq v, rfl, onlyLevel_ends ..⟩

/-- The state with the buffers of core `c` changed: its branch-target buffer, the words a hit brought, its loop buffer. -/
def State.rebuf (s : State) (c : CoreId) (b : Tbl (Option BtbEntry)) (q : Option (PC × List (BitVec 14))) (l : List (BitVec 14)) : State :=
  s.setCore c { s.core c with btb := b, quick := q, loopBuf := l }

/-- What a flow change or a loop instruction does to the core's buffers after it retires. -/
theorem btbUpdate_eq (c : CoreId) (a : PC) (tgt : Option PC) (s : State) :
    btbUpdate c a tgt s = s ∨ ∃ b q l, btbUpdate c a tgt s = s.rebuf c b q l := by
  unfold btbUpdate
  repeat' split
  all_goals first | exact .inl rfl | exact .inr ⟨_, _, _, rfl⟩ | skip
  all_goals dsimp only; repeat' split
  all_goals first | exact .inl rfl | exact .inr ⟨_, _, _, rfl⟩

theorem fillLoop_eq (c : CoreId) (ls : PC) (s : State) : fillLoop c ls s = s ∨ ∃ b q l, fillLoop c ls s = s.rebuf c b q l := by
  unfold fillLoop
  split
  · exact .inl rfl
  · exact .inr ⟨_, _, _, rfl⟩

/-- The end of an instruction followed by such a change: the level it leaves, and its frame. -/
theorem ends_bufs {s t : State} {c : CoreId} {v : View} (w : View) (h : s.view c = some v)
    (ht : let r := endIssue c ((s.entered c).setView c w); t = r ∨ ∃ b q l, t = r.rebuf c b q l) :
    t.view c = some { v with regs := w.regs, bank := w.bank } ∧ s.onlyLevel t c true := by
  have hv := view_ends w h
  have hl := onlyLevel_ends c w s true
  rcases ht with rfl | ⟨b, q, l, rfl⟩
  · exact ⟨hv, hl⟩
  · obtain ⟨h1, h2, h3, h4, h5⟩ := hl
    generalize endIssue c ((s.entered c).setView c w) = r at *
    have hc : (r.rebuf c b q l).core c = { r.core c with btb := b, quick := q, loopBuf := l } := State.core_setCore_self ..
    refine ⟨(State.view_setCore (k := { r.core c with btb := b, quick := q, loopBuf := l }) rfl rfl rfl rfl rfl rfl).trans hv, ?_, ?_, ?_, h4, h5⟩
    · rw [h1]; rfl
    · intro k hk
      rw [← h2 k hk]
      exact State.coreAt_setCoreAt_ne _ hk _
    · rw [hc, h3]; rfl

/-- An instruction that is no REP target and whose end leaves the level as `w`. -/
theorem completes_issue {i : CoreId → Instr} {p q rp rq : Nat} {g : View → List Word} {gr : View → List PC} {h : View → Regs}
    (body : CoreId → View → State → State) (w : View → View) (buf : Bool)
    (hi : ∀ c s, exec (i c) s = issue c (eff p q rp rq) (body c) s)
    (hb : ∀ (c : CoreId) (v : View) (s : State), s.view c = some v → (body c v (s.entered c)).view c = some { v with regs := (w v).regs, bank := (w v).bank } ∧
      s.onlyLevel (body c v (s.entered c)) c buf)
    (hw : ∀ v, p ≤ v.depth → rp ≤ v.rdepth → v.regs.rc = 0 → v.cleaves (w v) p (g v) ∧ v.rleaves (w v) rp (gr v) ∧ (w v).regs = h v)
    (hq : ∀ v, (g v).length = q) (hrq : ∀ v, (gr v).length = rq) : CompletesPlain i p q rp rq g gr h buf := by
  intro s c v hr ht hrep
  have hleg := legal (c := c) (k := s.core c) (r := v.regs) (i := eff p q rp rq) rfl rfl (Or.inr hrep)
    (level_any hr.2.2.2.2.2.2.2)
  have hrun := issue_runs (i := eff p q rp rq) (body c) hr ht hleg (fun _ => hrep.2) (Or.inl rfl)
  obtain ⟨h1, h2⟩ := hb c v s hr.2.1
  obtain ⟨w1, w2, w3⟩ := hw v ht.1 ht.2.1 hrep.1
  exact ⟨_, _, (hi c s).trans hrun, h1, w1, hq v, w2, hrq v, w3, h2⟩

/-- One that leaves the buffers of the core alone. -/
theorem completes_plainIns {i : CoreId → Instr} {p q rp rq : Nat} {g : View → List Word} {gr : View → List PC} {h : View → Regs}
    (w : View → View) (hi : ∀ c s, exec (i c) s = plainIns c (eff p q rp rq) (fun v => (w v, none)) s)
    (hw : ∀ v, p ≤ v.depth → rp ≤ v.rdepth → v.regs.rc = 0 →
      v.cleaves (w v) p (g v) ∧ v.rleaves (w v) rp (gr v) ∧ (w v).regs.complete none = h v)
    (hq : ∀ v, (g v).length = q) (hrq : ∀ v, (gr v).length = rq) : CompletesPlain i p q rp rq g gr h false :=
  completes_issue (fun c v s => retire c (w v) none s) (fun v => { w v with regs := (w v).regs.complete none }) false hi
    (fun _ _ _ hv => ⟨view_ends _ hv, onlyLevel_ends ..⟩) hw hq hrq

/-- A flow change. -/
theorem completes_flow {i : CoreId → Instr} {p q rp rq : Nat} {g : View → List Word} {gr : View → List PC} {h : View → Regs}
    {tgt : View → Option PC} (w : View → View)
    (hi : ∀ c s, exec (i c) s = flow c (eff p q rp rq) (fun v => (w v, tgt v)) s)
    (hw : ∀ v, p ≤ v.depth → rp ≤ v.rdepth → v.regs.rc = 0 →
      v.cleaves (w v) p (g v) ∧ v.rleaves (w v) rp (gr v) ∧ (w v).regs.complete (tgt v) = h v)
    (hq : ∀ v, (g v).length = q) (hrq : ∀ v, (gr v).length = rq) : CompletesPlain i p q rp rq g gr h true :=
  completes_issue (fun c v s => btbUpdate c v.regs.pc (tgt v) (retire c (w v) (tgt v) s))
    (fun v => { w v with regs := (w v).regs.complete (tgt v) }) true hi
    (fun _ _ _ hv => ends_bufs _ hv (btbUpdate_eq ..)) hw hq hrq

/-- An instruction that writes loop state. -/
theorem completes_loop {i : CoreId → Instr} {p q rp rq : Nat} {g : View → List Word} {gr : View → List PC} {h : View → Regs}
    (w : View → View) (own : Bool)
    (hi : ∀ c s, exec (i c) s = issue c (eff p q rp rq) (fun v s => retireLoop c v.regs own (w v) s) s)
    (hw : ∀ v, p ≤ v.depth → rp ≤ v.rdepth → v.regs.rc = 0 →
      v.cleaves (w v) p (g v) ∧ v.rleaves (w v) rp (gr v) ∧ v.regs.loopTest own (w v).regs = h v)
    (hq : ∀ v, (g v).length = q) (hrq : ∀ v, (gr v).length = rq) : CompletesPlain i p q rp rq g gr h false :=
  completes_issue (fun c v s => retireLoop c v.regs own (w v) s) (fun v => { w v with regs := v.regs.loopTest own (w v).regs }) false hi
    (fun _ _ _ hv => ⟨view_ends _ hv, onlyLevel_ends ..⟩) hw hq hrq

end Sys2Proof.Machine
end

