-- ==== Sys2Proof/Tests/Slice0.lean ====
section
/-! SUPPORT. Tests: ill-formed commands that the checks refuse, program words written out from the tables, single commands with results
worked out from the spec, and concrete states and operands that meet the hypotheses of every clause of the statements. -/

open Sys2Proof Sys2Proof.Machine

namespace Sys2Proof.Tests

-- One theorem is checked at a time: checks that wait on one another would each hold a thread, with its stack.
set_option Elab.async false

/-- A frame with 17 payload granules, one more than Table 12.1 allows, and one with none. -/
def longFrame : Frame := { hdr := 0, pay := List.replicate 17 0 }
def fr : Frame := { hdr := 0, pay := [] }

/-- No command is well formed on a core that no build has. -/
theorem smoke_core :
    ([.nop, .dup, .drop, .swap, .overOp, .rot, .nip, .tuck, .twoDup, .twoDrop, .twoSwap, .twoOver, .minusRot, .add, .adc, .sub, .sbc, .neg, .inc,
      .dec, .and, .or, .xor, .not, .shl, .shr, .sra, .rol, .min, .max, .umin, .umax, .abs, .sext8, .zext8, .popc, .clz, .mul, .mulu, .mull, .div,
      .divu, .div2u, .add2, .sub2, .neg2, .eq, .ne, .lt, .le, .gt, .ge, .ult, .ule, .ugt, .uge, .zeroEq, .zeroLt, .sel, .ret, .toR, .rFrom, .rFetch,
      .jmps, .calls, .reti, .rett, .wait, .synci, .niwo, .niwc, .fence, .rep, .flFetch, .flStore, .lcFetch, .lcStore, .lsFetch, .lsStore, .leFetch,
      .leStore, .rcFetch, .depth, .rdepth, .lpush, .lpop, .leave, .ctxid, .vwait, .vresume, .vtest, .vprFetch, .vprStore, .interruptRecognise,
      .faultEntry, .niwExpiry, .budgetExhausted, .quantumExpiry, .contextDispatch, .splitEnApply, .detSwitch, .haltEntry, .crossTrigger] : List (CoreId → Instr)).all
      (fun f => !(f (.seq 36)).wf && (f (.seq 35)).wf) = true := by decide

/-- Ill formed: a core that no build has. -/
theorem smoke_core_operands :
    ([.allocAccept (.seq 36) [], .lit (.seq 36) 1, .br (.seq 36) 1, .bz (.seq 36) 1, .bnz (.seq 36) 1, .call (.seq 36) 1, .ld (.seq 36) 1 1,
      .st (.seq 36) 1 1, .ld2 (.seq 36) 1 1, .st2 (.seq 36) 1 1, .ldx (.seq 36) 1 1, .stx (.seq 36) 1 1, .ld2x (.seq 36) 1 1, .st2x (.seq 36) 1 1,
      .pick (.seq 36) 1, .shli (.seq 36) 1, .shri (.seq 36) 1, .srai (.seq 36) 1, .loop (.seq 36) 1, .repi (.seq 36) 1, .ldp (.seq 36) 1,
      .stp (.seq 36) 1, .ld2p (.seq 36) 1, .st2p (.seq 36) 1, .tas (.seq 36) 1, .lr (.seq 36) 1, .sc (.seq 36) 1, .ldmStep (.seq 36) 1,
      .stmStep (.seq 36) 1, .cmov (.seq 36) 1 1, .cderive (.seq 36) 1 1, .cseal (.seq 36) 1 1, .cunseal (.seq 36) 1 1, .cbase (.seq 36) 1,
      .clen (.seq 36) 1, .cperm (.seq 36) 1, .cattr (.seq 36) 1, .cowner (.seq 36) 1, .ctag (.seq 36) 1, .cclr (.seq 36) 1, .cprior (.seq 36) 1,
      .cskey (.seq 36) 1, .cldc (.seq 36) 1 1, .cstc (.seq 36) 1 1, .sev (.seq 36) 1, .lith (.seq 36) 1, .trap (.seq 36) 1 [], .vissue (.seq 36) 1,
      .undefinedWord (.seq 36) 1, .spillTrap (.seq 36) [], .fillTrap (.seq 36) [], .contextEvict (.seq 36) 1, .contextLoad (.seq 36) 1,
      .svwDataWrite (.seq 36) 0, .lineRequest (.seq 36) 1, .lineDelivered (.seq 36) 1 0 false, .seqDetRead .host (.seq 36) false,
      .seqExcCntRead .host (.seq 36)] : List Instr).all (fun i => !i.wf) = true := by decide

/-- Ill formed: a core that no build has sends. -/
theorem smoke_agent :
    ([.regWrite (.core (.seq 36)) 0 0, .smemInit (.core (.seq 36)), .smemCeCntRead (.core (.seq 36)), .poolCnt0Read (.core (.seq 36)),
      .allocWaitRead (.core (.seq 36)), .mint (.core (.seq 36)), .mintCopy (.core (.seq 36)) 1, .codeLineWrite (.core (.seq 36)),
      .lcInvalidate (.core (.seq 36)), .seqDetRead (.core (.seq 36)) .sup false, .seqExcCntRead (.core (.seq 36)) .sup,
      .broadcastWrite (.core (.seq 36)) 1 0, .linkCntRead (.core (.seq 36)) 0, .evcClaim (.core (.seq 36)) 0, .evcDone (.core (.seq 36)) 0 1,
      .evcPush (.core (.seq 36)) 0 1, .cmpStatRead (.core (.seq 36)) 0, .capRiseRead (.core (.seq 36)) 0, .capFallRead (.core (.seq 36)) 0,
      .capWidthRead (.core (.seq 36)) 0, .tickStatRead (.core (.seq 36)), .pmuCntRead (.core (.seq 36)) 0, .pmuRlCntRead (.core (.seq 36)),
      .pmuBwMaxRead (.core (.seq 36)) 0, .vtCdataWrite (.core (.seq 36)) 0 0, .vtCdataRead (.core (.seq 36)) 0, .railDataRead (.core (.seq 36)),
      .thermDataRead (.core (.seq 36)), .versionAdvance (.core (.seq 36)), .secLockSet (.core (.seq 36)), .secRefuseRead (.core (.seq 36)),
      .auditPop (.core (.seq 36)), .pwrReqRun (.core (.seq 36)), .pwrReqDoze (.core (.seq 36)), .pwrReqNap (.core (.seq 36)),
      .pwrReqSleep (.core (.seq 36)), .pwrReqNone (.core (.seq 36)), .coldResetRequest (.core (.seq 36)), .warmResetRequest (.core (.seq 36)),
      .domainReset (.core (.seq 36)) 0, .seqRelease (.core (.seq 36))] : List Instr).all (fun i => !i.wf) = true := by decide

/-- Ill formed: the first number past the units that exist. -/
theorem smoke_unit_number :
    ([.regWrite .host 0x1010000 0, .arbiterGrant 2032 [], .bmpTrain 8, .bmpTrainReport 8 false 1 1 1 1, .bmpTrainTimeout 8, .bmpReadBeat 8 1 1 1,
      .bmpCpyGo 8 0, .bmpCpyGranuleDone 8 1 1 [], .bmpCpyAbort 8, .leaseTake 4 1, .leaseRelease 4, .streamElementIssue 17 0 0, .runEnd 17,
      .podAbort 17, .ctxLoad 32 1, .ctxWake 32 1, .ctxPark 32 1, .ctxFree 32 1, .ctxSetbud 32 1, .ctxCmdNone 32 1, .ctxDataWrite 32 0,
      .ringEnable 64 0, .ringDisable 64, .doorbellSqtail 64 0, .doorbellCqhead 64 0, .inlineDoorbell 64 ⟨0, 0⟩, .descriptorReadDone 64 [] [],
      .completionRecordWrite 64, .recordWriteResponse 256 1, .wrFrame 4 fr [], .rdFrame 4 fr [], .wrackFrame 4 fr, .rdrFrame 4 fr [],
      .frameForward 4 fr, .frameSend 4 1, .linkFrame 4 fr, .capxFrame 4 fr, .discFrame 4 fr, .joinFrame 4 fr, .assignFrame 4 fr, .tsyncFrame 4 fr,
      .tsyncExchange 4, .linkDown (4, none), .linkDown (0, some 5), .linkTrainStart 4, .linkTrained 4 31, .linkRetrain 4, .linkAuthTimeout 4,
      .laneMarginLow 4 1 1, .txGo 4 0, .txFrameIssue 4 [], .txFrameTimeout 4 1, .txAbort 4, .linkCntRead .host 4, .evcClaim .host 34,
      .evcDone .host 34 1, .evcPush .host 34 1, .compareMatch 32, .cmpStage 32 0, .cmpCommit 32 0, .cmpEnable 32 0, .cmpStatRead .host 32,
      .captureEdge 16 false, .capRiseRead .host 16, .capFallRead .host 16, .capWidthRead .host 16, .pmuCntRead .host 256, .pmuBwMaxRead .host 20,
      .vtCdataWrite .host 4 0, .vtCdataRead .host 4, .vtDdataWrite 4 0, .vtDdataRead 4, .selftestStart 17, .selftestDone 17 false,
      .islandPowerAck 41, .islandAckTimeout 41, .selfRefreshAck 8, .backgroundReclaimVisit 2032, .badFrame 4 .crc fr, .pmuCounterOverflow 256 1] : List Instr).all (fun i => !i.wf) = true := by decide

/-- Ill formed: a frame longer than Table 12.1 allows. -/
theorem smoke_frame :
    ([.wrFrame 0 longFrame [], .rdFrame 0 longFrame [], .wrackFrame 0 longFrame, .rdrFrame 0 longFrame [], .frameForward 0 longFrame,
      .linkFrame 0 longFrame, .capxFrame 0 longFrame, .discFrame 0 longFrame, .joinFrame 0 longFrame, .assignFrame 0 longFrame,
      .tsyncFrame 0 longFrame, .badFrame 0 .crc longFrame] : List Instr).all (fun i => !i.wf) = true := by decide

/-- Ill formed: an immediate shift count of 0, which R232 leaves out. -/
theorem smoke_shift_count :
    ([.shli .sup 0, .shri .sup 0, .srai .sup 0] : List Instr).all (fun i => !i.wf) = true := by decide

/-- Ill formed: an event number that Table 13.1 reserves. -/
theorem smoke_event_number :
    ([.eventPending 9, .moderationTimeout 9] : List Instr).all (fun i => !i.wf) = true := by decide

/-- Ill formed: fewer beats than LEN says. -/
theorem smoke_beat_count :
    ([.npxWriteRequest 1 false 1 1 1 []] : List Instr).all (fun i => !i.wf) = true := by decide

/-! ### States -/

def cells (l : List Word) : Tbl Word := (l.foldl (fun (a : Nat × Tbl Word) x => (a.1 + 1, Tbl.set 0 a.1 x a.2)) (0, [])).2
def rets (l : List PC) : Tbl PC := (l.foldl (fun (a : Nat × Tbl PC) x => (a.1 + 1, Tbl.set 0 a.1 x a.2)) (0, [])).2
def bank (l : List Word) (r : List PC) : Bank := { cells := cells l, opd := l.length, rets := rets r, rtd := r.length }

/-- A capability over `len` words from `base`, with permissions `perm`. -/
def capOf (base len perm : Nat) (view : BitVec 2 := 2) (group : BitVec 6 := 5) (owner : Nat := 3) : Cap :=
  { bits := capBits base len perm group.toNat view.toNat 0 owner 0, tag := true }

def caps8 (l : List Cap) : Tbl Cap := (l.foldl (fun (a : Nat × Tbl Cap) x => (a.1 + 1, Tbl.set Cap.null a.1 x a.2)) (0, [])).2

/-- A context that runs at 0x100 with cells `l` and return entries `r`. -/
def ctxOf (l : List Word) (r : List PC) : Ctx := { Ctx.init with r := { Regs.init with pc := 0x100 }, bank := bank l r, state := .running }

/-- The block in RUN, firmware started: LS0 runs context 3, the supervisor SB1, and every core is released. -/
def up : State :=
  let s := State.reset.setFld CRP_PWR_STAT_STATE 1
  { s with
    crp := { Crp.init with phase := 2 }
    cores := [(0, { Core.init with released := true, live := some 3, resident := [(1, some 3)] }), (1, { Core.init with released := true }),
              (36, { Core.init with released := true, live := some 1 }), (37, Core.moth)]
    ctxs := [(3, ctxOf [] []), (0x4001, { ctxOf [] [] with caps := [(0, mintRoot)] }), (0x4002, { Ctx.init with state := .wait }),
             (0x4003, { Ctx.init with state := .wait }), (0x4004, { Ctx.init with state := .wait }), (0x8001, Ctx.start)] }

/-- Context 3 of LS0 with other contents. -/
def withCtx (f : Ctx → Ctx) (s : State) : State := s.setCtxAt 3 (f (s.ctxAt 3))
def withCore (c : CoreId) (f : Core → Core) (s : State) : State := s.setCore c (f (s.core c))
def run (l : List Word) (r : List PC := []) : State := withCtx (fun x => { x with bank := bank l r }) up
/-- Core `c` in a handler at level `n` over an empty context stack, with cells `l` in its frame. -/
def handler (c : CoreId) (n : BitVec 4) (l : List Word) (r : List PC := []) (b : Nat := 0) : State :=
  withCore c (fun k => { k with level := n, cpl := n, cset := n, hr := { Regs.init with pc := 0x200 }, sbh := bank (List.replicate b 7 ++ l) (List.replicate b 9 ++ r), base := b, rbase := b, sv := [(levelSet n, { SaveSet.init with r := { Regs.init with pc := 0x105 }, bank := 1, valid := true })] }) up

/-! ### Program words written out from Tables 7.2 to 7.22 -/

theorem decode_flow_and_memory (c : CoreId) :
    sprinDecode c 0b00_0100_0000_0000 = some (.lit c 0x400) ∧ sprinDecode c 0b01_0011_1111_1110 = some (.br c 0x3FE) ∧
    sprinDecode c 0b01_1000_0000_0101 = some (.bnz c 5) ∧ sprinDecode c 0b01_1110_0000_0000 = some (.call c 0x200) ∧
    sprinDecode c 0b10_1110_0011_1111 = some (.ld c 7 63) ∧ sprinDecode c 0b10_0010_0100_0001 = some (.st c 1 1) ∧
    sprinDecode c 0b10_0101_1000_0010 = some (.ld2x c 2 2) ∧ sprinDecode c 0b10_0111_1100_0000 = some (.st2x c 3 0) := by
  refine ⟨?_, ?_, ?_, ?_, ?_, ?_, ?_, ?_⟩ <;> rfl

theorem decode_plain_groups (c : CoreId) :
    sprinDecode c 0b11_0000_0000_0011 = some (.swap c) ∧ sprinDecode c 0b11_0001_0000_0010 = some (.sub c) ∧
    sprinDecode c 0b11_0001_0011_1111 = some (.shri c 15) ∧ sprinDecode c 0b11_0001_0101_1011 = some (.clz c) ∧
    sprinDecode c 0b11_0010_0000_0110 = some (.div2u c) ∧ sprinDecode c 0b11_0011_0000_0010 = some (.lt c) ∧
    sprinDecode c 0b11_0100_0000_0001 = some (.toR c) ∧ sprinDecode c 0b11_0101_1111_1111 = some (.loop c 255) ∧
    sprinDecode c 0b11_0110_0100_0101 = some (.repi c 5) := by
  refine ⟨?_, ?_, ?_, ?_, ?_, ?_, ?_, ?_, ?_⟩ <;> rfl

theorem decode_register_groups (c : CoreId) :
    sprinDecode c 0b11_0111_0000_1010 = some (.stp c 2) ∧ sprinDecode c 0b11_0111_0011_1011 = some (.ldmStep c 3) ∧
    sprinDecode c 0b11_1000_1000_1010 = some (.cseal c 1 2) ∧ sprinDecode c 0b11_1001_0000_0111 = some (.vissue c 7) ∧
    sprinDecode c 0b11_1001_0000_1001 = some (.vresume c) ∧ sprinDecode c 0b11_1010_1010_1011 = some (.lith c 0xAB) ∧
    sprinDecode c 0b11_1011_0011_1111 = some (.sev c 63) ∧ sprinDecode c 0b11_1100_0001_0100 = some (.cperm c 4) ∧
    sprinDecode c 0b11_1101_0101_0011 = some (.cstc c 2 3) ∧ sprinDecode c 0b11_1101_1000_0000 = some (.stmStep c 0) := by
  refine ⟨?_, ?_, ?_, ?_, ?_, ?_, ?_, ?_, ?_, ?_⟩ <;> rfl

/-- The reserved words at the edges of the groups (Table 7.5). -/
theorem decode_undefined (c : CoreId) :
    sprinDecode c 0b11_0000_0000_1101 = none ∧ sprinDecode c 0b11_0001_0000_1111 = none ∧ sprinDecode c 0b11_0001_0011_0000 = none ∧
    sprinDecode c 0b11_0110_0001_0000 = none ∧ sprinDecode c 0b11_1001_0000_1101 = none ∧ sprinDecode c 0b11_1100_0100_1000 = none ∧
    sprinDecode c 0b11_1101_1000_1000 = none ∧ sprinDecode c 0b11_1110_1111_1111 = none := by
  refine ⟨?_, ?_, ?_, ?_, ?_, ?_, ?_, ?_⟩ <;> rfl

/-! ### Single commands on a small state, with results worked out from the spec -/

/-- The cells, from T down, and the pc after a command of LS0. -/
def cellsAfter (i : Instr) (s : State) (n : Nat) : Option (List Word × PC) :=
  match exec i s with
  | .next t => (t.view (.seq 0)).map (fun v => ((List.range n).map v.cell, v.regs.pc))
  | _ => none

/-- LIT sign-extends bit 11 (R227). -/
theorem test_lit_negative : cellsAfter (.lit (.seq 0) 0x801) (run []) 1 = some ([0xF801], 0x101) := by decide +kernel

/-- LIT 0x0CD then LITH 0xAB gives 0xABCD (the example under R227). -/
theorem test_lith_builds : cellsAfter (.lith (.seq 0) 0xAB) (run [0x00CD]) 1 = some ([0xABCD], 0x101) := by decide +kernel

/-- A sum wraps: 0xFFFF + 1 is 0. -/
theorem test_add_wraps : cellsAfter (.add (.seq 0)) (run [0xFFFF, 1]) 1 = some ([0], 0x101) := by decide +kernel

/-- T is subtracted from the cell below it. -/
theorem test_sub_order : cellsAfter (.sub (.seq 0)) (run [5, 7]) 1 = some ([0xFFFE], 0x101) := by decide +kernel

/-- A shift count of 16 is 0 (R232). -/
theorem test_shl_modulo : cellsAfter (.shl (.seq 0)) (run [0x1234, 16]) 1 = some ([0x1234], 0x101) := by decide +kernel

/-- The remainder takes the sign of the dividend: -7 by 2 is -3, -1 (R233). -/
theorem test_div_truncates : cellsAfter (.div (.seq 0)) (run [0xFFF9, 2]) 2 = some ([0xFFFF, 0xFFFD], 0x101) := by decide +kernel

/-- A division by 0 gives 0xFFFF and the dividend (R233). -/
theorem test_divu_zero : cellsAfter (.divu (.seq 0)) (run [9, 0]) 2 = some ([9, 0xFFFF], 0x101) := by decide +kernel

/-- BZ at 0x100 with offset -512 continues at 0x100 + 1 - 512, modulo 2^22 (R228). -/
theorem test_bz_taken : cellsAfter (.bz (.seq 0) 0x200) (run [0]) 0 = some ([], 0x3FFF01) := by decide +kernel

/-- The third cell comes to the top. -/
theorem test_rot : cellsAfter (.rot (.seq 0)) (run [1, 2, 3]) 3 = some ([1, 3, 2], 0x101) := by decide +kernel

/-- 0x8000 has no absolute value of 16 bits: it stays (Table 7.7). -/
theorem test_abs_least : cellsAfter (.abs (.seq 0)) (run [0x8000]) 1 = some ([0x8000], 0x101) := by decide +kernel

/-! ### The statements over every state, met by concrete ones -/

/-- Two commands wait: the first is that of `StepRunsFrontCommand`. -/
theorem witness_StepRunsFrontCommand :
    ({ up with pending := [.lit (.seq 0) 1, .nop (.seq 0)] } : State).pending = .lit (.seq 0) 1 :: [.nop (.seq 0)] := rfl

/-- The build is F16 and the command well formed, on its last core. -/
theorem witness_EveryCommandAnswers : up.build = .f16 ∧ (Instr.lit (.seq 35) 0xFFF).wf = true := by decide +kernel

/-- An instruction with operands at their bounds, and a word at the end of the defined ones. -/
theorem witness_SprinRoundTrips :
    ((Instr.st2x (.seq 35) 7 63).wf = true ∧ sprinCore (.st2x (.seq 35) 7 63) = some (.seq 35) ∧
      sprinEncode (.st2x (.seq 35) 7 63) = some 0b10_1111_1111_1111) ∧
    sprinDecode (.seq 0) 0b11_1111_1111_1111 = some (.trap (.seq 0) 0xFF []) := by
  refine ⟨⟨by decide +kernel, by decide +kernel, by decide +kernel⟩, rfl⟩

/-- A command that answers. -/
theorem witness_CommandsLeaveQueueAndBuild : ∃ t, exec (.lit (.seq 0) 1) (run []) = .next t :=
  ⟨match exec (.lit (.seq 0) 1) (run []) with | .next t => t | _ => up, by rfl⟩

/-- A state whose memory is in its form, with a step. -/
theorem witness_MemoryStaysCanonical : State.reset.memWf ∧ ∃ t, step State.reset = .next t := by
  refine ⟨?_, match step State.reset with | .next t => t | _ => up, by rfl⟩
  unfold State.memWf
  decide +kernel

/-- A write of a granule, seen as CURRENT, that the bank takes. -/
def curWrite : Access := { dest := .core (.seq 0) 0, port := 40, gran := 33, view := 2, group := 5, owner := 3, kind := .read }

theorem witness_CurrentWritesHideFromPrior :
    curWrite.view = 2 ∧ curWrite.gran < up.build.granules ∧
    (match (writeGranule curWrite 0x77 0xFFFF false up).1 with | .ok _ _ => true | _ => false) = true := by
  decide +kernel

/-- The state a step from reset answers, on an empty queue, still has an empty queue. -/
theorem test_idle : (match step State.reset with | .next t => t.pending | _ => [.nop .sup]) = [] := by decide +kernel

/-! ### States and operands that meet the hypotheses of the statements, clause by clause -/

namespace StackGroupEffects

def rs : List PC := [0x10, 0x3FFFFF, 0x20001]

def ws0 : State := run [1, 2, 3, 4, 5, 6, 7, 8, 9] rs

/-- States and operands that meet the hypotheses of the clauses of `StackGroupEffects`. -/
theorem witness_StackGroupEffects :
    (∃ (x : BitVec 12) (s : State) (c : CoreId) (v : View), s.ready c v ∧ s.takes c v 0 1 0 0 ∧ s.repCounts c v) ∧
    (∃ (n : BitVec 8) (s : State) (c : CoreId) (v : View), s.ready c v ∧ s.takes c v 1 1 0 0 ∧ s.repCounts c v) ∧
    (∃ (s : State) (c : CoreId) (v : View), s.ready c v ∧ s.takes c v 0 0 0 0 ∧ s.repCounts c v) ∧
    (∃ (s : State) (c : CoreId) (v : View), s.ready c v ∧ s.takes c v 1 2 0 0 ∧ s.repCounts c v) ∧
    (∃ (s : State) (c : CoreId) (v : View), s.ready c v ∧ s.takes c v 1 0 0 0 ∧ s.repCounts c v) ∧
    (∃ (s : State) (c : CoreId) (v : View), s.ready c v ∧ s.takes c v 2 2 0 0 ∧ s.repCounts c v) ∧
    (∃ (s : State) (c : CoreId) (v : View), s.ready c v ∧ s.takes c v 2 3 0 0 ∧ s.repCounts c v) ∧
    (∃ (s : State) (c : CoreId) (v : View), s.ready c v ∧ s.takes c v 3 3 0 0 ∧ s.repCounts c v) ∧
    (∃ (s : State) (c : CoreId) (v : View), s.ready c v ∧ s.takes c v 2 1 0 0 ∧ s.repCounts c v) ∧
    (∃ (s : State) (c : CoreId) (v : View), s.ready c v ∧ s.takes c v 2 4 0 0 ∧ s.repCounts c v) ∧
    (∃ (s : State) (c : CoreId) (v : View), s.ready c v ∧ s.takes c v 2 0 0 0 ∧ s.repCounts c v) ∧
    (∃ (s : State) (c : CoreId) (v : View), s.ready c v ∧ s.takes c v 4 4 0 0 ∧ s.repCounts c v) ∧
    (∃ (s : State) (c : CoreId) (v : View), s.ready c v ∧ s.takes c v 4 6 0 0 ∧ s.repCounts c v) ∧
    (∃ (k : BitVec 3) (s : State) (c : CoreId) (v : View), s.ready c v ∧ s.takes c v (k.toNat + 1) (k.toNat + 2) 0 0 ∧ s.repCounts c v) :=
  ⟨⟨12576#12, (run [] rs), (CoreId.seq 0), (Option.get ((run [] rs).view (CoreId.seq 0)) (by decide +kernel)), by unfold State.ready State.takes State.repCounts; decide +kernel⟩,
   ⟨12576#8, (run [1] rs), (CoreId.seq 0), (Option.get ((run [1] rs).view (CoreId.seq 0)) (by decide +kernel)), by unfold State.ready State.takes State.repCounts; decide +kernel⟩,
   ⟨(run [] rs), (CoreId.seq 0), (Option.get ((run [] rs).view (CoreId.seq 0)) (by decide +kernel)), by unfold State.ready State.takes State.repCounts; decide +kernel⟩,
   ⟨(run [1] rs), (CoreId.seq 0), (Option.get ((run [1] rs).view (CoreId.seq 0)) (by decide +kernel)), by unfold State.ready State.takes State.repCounts; decide +kernel⟩,
   ⟨(run [1] rs), (CoreId.seq 0), (Option.get ((run [1] rs).view (CoreId.seq 0)) (by decide +kernel)), by unfold State.ready State.takes State.repCounts; decide +kernel⟩,
   ⟨(run [5, 3] rs), (CoreId.seq 0), (Option.get ((run [5, 3] rs).view (CoreId.seq 0)) (by decide +kernel)), by unfold State.ready State.takes State.repCounts; decide +kernel⟩,
   ⟨(run [5, 3] rs), (CoreId.seq 0), (Option.get ((run [5, 3] rs).view (CoreId.seq 0)) (by decide +kernel)), by unfold State.ready State.takes State.repCounts; decide +kernel⟩,
   ⟨(run [9, 8, 7] rs), (CoreId.seq 0), (Option.get ((run [9, 8, 7] rs).view (CoreId.seq 0)) (by decide +kernel)), by unfold State.ready State.takes State.repCounts; decide +kernel⟩,
   ⟨(run [5, 3] rs), (CoreId.seq 0), (Option.get ((run [5, 3] rs).view (CoreId.seq 0)) (by decide +kernel)), by unfold State.ready State.takes State.repCounts; decide +kernel⟩,
   ⟨(run [5, 3] rs), (CoreId.seq 0), (Option.get ((run [5, 3] rs).view (CoreId.seq 0)) (by decide +kernel)), by unfold State.ready State.takes State.repCounts; decide +kernel⟩,
   ⟨(run [5, 3] rs), (CoreId.seq 0), (Option.get ((run [5, 3] rs).view (CoreId.seq 0)) (by decide +kernel)), by unfold State.ready State.takes State.repCounts; decide +kernel⟩,
   ⟨(run [1, 2, 3, 4] rs), (CoreId.seq 0), (Option.get ((run [1, 2, 3, 4] rs).view (CoreId.seq 0)) (by decide +kernel)), by unfold State.ready State.takes State.repCounts; decide +kernel⟩,
   ⟨(run [1, 2, 3, 4] rs), (CoreId.seq 0), (Option.get ((run [1, 2, 3, 4] rs).view (CoreId.seq 0)) (by decide +kernel)), by unfold State.ready State.takes State.repCounts; decide +kernel⟩,
   ⟨7#3, ws0, (CoreId.seq 0), (Option.get (ws0.view (CoreId.seq 0)) (by decide +kernel)), by unfold State.ready State.takes State.repCounts; decide +kernel⟩⟩

/-- States and operands that meet the hypotheses of the clauses of `SumsAndComparisons`. -/
theorem witness_SumsAndComparisons :
    (∃ (s : State) (c : CoreId) (v : View), s.ready c v ∧ s.takes c v 2 1 0 0 ∧ s.repCounts c v) ∧
    (∃ (s : State) (c : CoreId) (v : View), s.ready c v ∧ s.takes c v 1 1 0 0 ∧ s.repCounts c v) ∧
    (∃ (s : State) (c : CoreId) (v : View), s.ready c v ∧ s.takes c v 3 1 0 0 ∧ s.repCounts c v) :=
  ⟨⟨(run [5, 3] rs), (CoreId.seq 0), (Option.get ((run [5, 3] rs).view (CoreId.seq 0)) (by decide +kernel)), by unfold State.ready State.takes State.repCounts; decide +kernel⟩,
   ⟨(run [1] rs), (CoreId.seq 0), (Option.get ((run [1] rs).view (CoreId.seq 0)) (by decide +kernel)), by unfold State.ready State.takes State.repCounts; decide +kernel⟩,
   ⟨(run [9, 8, 7] rs), (CoreId.seq 0), (Option.get ((run [9, 8, 7] rs).view (CoreId.seq 0)) (by decide +kernel)), by unfold State.ready State.takes State.repCounts; decide +kernel⟩⟩

/-- States and operands that meet the hypotheses of the clauses of `AluLogicAndShifts`. -/
theorem witness_AluLogicAndShifts :
    (∃ (s : State) (c : CoreId) (v : View), s.ready c v ∧ s.takes c v 2 1 0 0 ∧ s.repCounts c v) ∧
    (∃ (s : State) (c : CoreId) (v : View), s.ready c v ∧ s.takes c v 1 1 0 0 ∧ s.repCounts c v) ∧
    (∃ (k : BitVec 4) (s : State) (c : CoreId) (v : View), k ≠ 0 ∧ s.ready c v ∧ s.takes c v 1 1 0 0 ∧ s.repCounts c v) :=
  ⟨⟨(run [5, 3] rs), (CoreId.seq 0), (Option.get ((run [5, 3] rs).view (CoreId.seq 0)) (by decide +kernel)), by unfold State.ready State.takes State.repCounts; decide +kernel⟩,
   ⟨(run [1] rs), (CoreId.seq 0), (Option.get ((run [1] rs).view (CoreId.seq 0)) (by decide +kernel)), by unfold State.ready State.takes State.repCounts; decide +kernel⟩,
   ⟨305419896#4, (run [1] rs), (CoreId.seq 0), (Option.get ((run [1] rs).view (CoreId.seq 0)) (by decide +kernel)), by unfold State.ready State.takes State.repCounts; decide +kernel⟩⟩

/-- States and operands that meet the hypotheses of the clauses of `MultiplyDividePairs`. -/
theorem witness_MultiplyDividePairs :
    (∃ (s : State) (c : CoreId) (v : View), s.ready c v ∧ s.takes c v 2 2 0 0 ∧ s.repCounts c v) ∧
    (∃ (s : State) (c : CoreId) (v : View), s.ready c v ∧ s.takes c v 2 1 0 0 ∧ s.repCounts c v) ∧
    (∃ (s : State) (c : CoreId) (v : View), s.ready c v ∧ s.takes c v 3 2 0 0 ∧ s.repCounts c v) ∧
    (∃ (s : State) (c : CoreId) (v : View), s.ready c v ∧ s.takes c v 4 2 0 0 ∧ s.repCounts c v) :=
  ⟨⟨(run [5, 3] rs), (CoreId.seq 0), (Option.get ((run [5, 3] rs).view (CoreId.seq 0)) (by decide +kernel)), by unfold State.ready State.takes State.repCounts; decide +kernel⟩,
   ⟨(run [5, 3] rs), (CoreId.seq 0), (Option.get ((run [5, 3] rs).view (CoreId.seq 0)) (by decide +kernel)), by unfold State.ready State.takes State.repCounts; decide +kernel⟩,
   ⟨(run [9, 8, 7] rs), (CoreId.seq 0), (Option.get ((run [9, 8, 7] rs).view (CoreId.seq 0)) (by decide +kernel)), by unfold State.ready State.takes State.repCounts; decide +kernel⟩,
   ⟨(run [1, 2, 3, 4] rs), (CoreId.seq 0), (Option.get ((run [1, 2, 3, 4] rs).view (CoreId.seq 0)) (by decide +kernel)), by unfold State.ready State.takes State.repCounts; decide +kernel⟩⟩

/-- States and operands that meet the hypotheses of the clauses of `FlowAndLoopRegisters`. -/
theorem witness_FlowAndLoopRegisters :
    (∃ (off : BitVec 10) (s : State) (c : CoreId) (v : View), s.ready c v ∧ s.takes c v 0 0 0 0 ∧ s.noRep c v) ∧
    (∃ (off : BitVec 10) (s : State) (c : CoreId) (v : View), s.ready c v ∧ s.takes c v 1 0 0 0 ∧ s.noRep c v) ∧
    (∃ (off : BitVec 10) (s : State) (c : CoreId) (v : View), s.ready c v ∧ s.takes c v 0 0 0 1 ∧ s.noRep c v) ∧
    (∃ (s : State) (c : CoreId) (v : View), s.ready c v ∧ s.takes c v 0 0 1 0 ∧ s.noRep c v) ∧
    (∃ (s : State) (c : CoreId) (v : View), s.ready c v ∧ s.takes c v 2 0 0 0 ∧ s.noRep c v) ∧
    (∃ (s : State) (c : CoreId) (v : View), s.ready c v ∧ s.takes c v 2 0 0 1 ∧ s.noRep c v) ∧
    (∃ (s : State) (c : CoreId) (v : View), s.ready c v ∧ s.takes c v 1 0 0 1 ∧ s.noRep c v) ∧
    (∃ (s : State) (c : CoreId) (v : View), s.ready c v ∧ s.takes c v 0 1 1 0 ∧ s.noRep c v) ∧
    (∃ (s : State) (c : CoreId) (v : View), s.ready c v ∧ s.takes c v 0 1 1 1 ∧ s.noRep c v) ∧
    (∃ (s : State) (c : CoreId) (v : View), s.ready c v ∧ s.takes c v 0 0 0 3 ∧ s.noRep c v) ∧
    (∃ (s : State) (c : CoreId) (v : View), s.ready c v ∧ s.takes c v 0 0 3 0 ∧ s.noRep c v) ∧
    (∃ (s : State) (c : CoreId) (v : View), s.ready c v ∧ s.takes c v 0 0 0 0 ∧ s.noRep c v) ∧
    (∃ (s : State) (c : CoreId) (v : View), s.ready c v ∧ s.takes c v 0 1 0 0 ∧ s.noRep c v) ∧
    (∃ (s : State) (c : CoreId) (v : View), s.ready c v ∧ s.takes c v 1 0 0 0 ∧ s.noRep c v) ∧
    (∃ (s : State) (c : CoreId) (v : View), s.ready c v ∧ s.takes c v 0 2 0 0 ∧ s.noRep c v) ∧
    (∃ (d : BitVec 8) (s : State) (c : CoreId) (v : View), s.ready c v ∧ s.takes c v 1 0 0 0 ∧ s.noRep c v) ∧
    (∃ (r : Regs) (x : Regs) (own : Bool), (r.pc ≠ r.le ∨ r.lc = 0)) ∧
    (∃ (r : Regs) (x : Regs) (own : Bool), r.pc = r.le ∧ r.lc = 1) ∧
    (∃ (r : Regs) (x : Regs) (own : Bool), r.pc = r.le ∧ 1 < BitVec.toNat r.lc) :=
  ⟨⟨12576#10, (run [] rs), (CoreId.seq 0), (Option.get ((run [] rs).view (CoreId.seq 0)) (by decide +kernel)), by unfold State.ready State.takes State.noRep; decide +kernel⟩,
   ⟨12576#10, (run [1] rs), (CoreId.seq 0), (Option.get ((run [1] rs).view (CoreId.seq 0)) (by decide +kernel)), by unfold State.ready State.takes State.noRep; decide +kernel⟩,
   ⟨12576#10, (run [] rs), (CoreId.seq 0), (Option.get ((run [] rs).view (CoreId.seq 0)) (by decide +kernel)), by unfold State.ready State.takes State.noRep; decide +kernel⟩,
   ⟨(run [] rs), (CoreId.seq 0), (Option.get ((run [] rs).view (CoreId.seq 0)) (by decide +kernel)), by unfold State.ready State.takes State.noRep; decide +kernel⟩,
   ⟨(run [5, 3] rs), (CoreId.seq 0), (Option.get ((run [5, 3] rs).view (CoreId.seq 0)) (by decide +kernel)), by unfold State.ready State.takes State.noRep; decide +kernel⟩,
   ⟨(run [5, 3] rs), (CoreId.seq 0), (Option.get ((run [5, 3] rs).view (CoreId.seq 0)) (by decide +kernel)), by unfold State.ready State.takes State.noRep; decide +kernel⟩,
   ⟨(run [1] rs), (CoreId.seq 0), (Option.get ((run [1] rs).view (CoreId.seq 0)) (by decide +kernel)), by unfold State.ready State.takes State.noRep; decide +kernel⟩,
   ⟨(run [] rs), (CoreId.seq 0), (Option.get ((run [] rs).view (CoreId.seq 0)) (by decide +kernel)), by unfold State.ready State.takes State.noRep; decide +kernel⟩,
   ⟨(run [] rs), (CoreId.seq 0), (Option.get ((run [] rs).view (CoreId.seq 0)) (by decide +kernel)), by unfold State.ready State.takes State.noRep; decide +kernel⟩,
   ⟨(run [] rs), (CoreId.seq 0), (Option.get ((run [] rs).view (CoreId.seq 0)) (by decide +kernel)), by unfold State.ready State.takes State.noRep; decide +kernel⟩,
   ⟨(run [] rs), (CoreId.seq 0), (Option.get ((run [] rs).view (CoreId.seq 0)) (by decide +kernel)), by unfold State.ready State.takes State.noRep; decide +kernel⟩,
   ⟨(run [] rs), (CoreId.seq 0), (Option.get ((run [] rs).view (CoreId.seq 0)) (by decide +kernel)), by unfold State.ready State.takes State.noRep; decide +kernel⟩,
   ⟨(run [] rs), (CoreId.seq 0), (Option.get ((run [] rs).view (CoreId.seq 0)) (by decide +kernel)), by unfold State.ready State.takes State.noRep; decide +kernel⟩,
   ⟨(run [1] rs), (CoreId.seq 0), (Option.get ((run [1] rs).view (CoreId.seq 0)) (by decide +kernel)), by unfold State.ready State.takes State.noRep; decide +kernel⟩,
   ⟨(run [] rs), (CoreId.seq 0), (Option.get ((run [] rs).view (CoreId.seq 0)) (by decide +kernel)), by unfold State.ready State.takes State.noRep; decide +kernel⟩,
   ⟨12576#8, (run [1] rs), (CoreId.seq 0), (Option.get ((run [1] rs).view (CoreId.seq 0)) (by decide +kernel)), by unfold State.ready State.takes State.noRep; decide +kernel⟩,
   ⟨({ Regs.init with pc := 256 }), ({ Regs.init with pc := 256 }), false, by decide +kernel⟩,
   ⟨({ pc := 4194303, fl := { z := false, s := false, c := true, v := false }, rc := 2, lc := 1, ls := 80, le := 4194303 }), ({ Regs.init with pc := 256 }), false, by decide +kernel⟩,
   ⟨({ pc := 511, fl := { z := true, s := true, c := true, v := true }, rc := 0, lc := 3, ls := 80, le := 511 }), ({ Regs.init with pc := 256 }), false, by decide +kernel⟩⟩

end StackGroupEffects

namespace LoopAndRepeatCounts

def rs : List PC := [0x10, 0x3FFFFF, 0x20001]
def full : List PC := [1,2,3,4,5,6,7,8]
def prefixed (s : State) : State := withCore (.seq 0) (fun k => { k with rep := some { regs := { Regs.init with pc := 0xFF }, bank := bank [7, 8, 5] [], count := 5 } }) s
def repRun (n : Word) (l : List Word) : State := prefixed (withCtx (fun x => { x with r := { x.r with rc := n } }) (run l rs))
def flt (k : FKind) : Flight := { tok := 0, kind := k, addr := 0x10000000, cap := capOf 0x10000000 64 3, regs := Regs.init, bank := bank [1,2] [], fail := none, done := false, got := none, young := 0, since := 0 }
def wctx (c : CoreId) (f : Core → Core) (s : State) : State := withCore c f s

def ws0 : State := handler (CoreId.seq 0) 3 [] rs 2
def ws1 : State := withCtx (fun x ↦ { x with osc := 8, rsc := 4 }) (run [1])
def ws2 : State := run [1, 2, 3, 4, 5, 6, 7, 8, 9, 10, 11, 12, 13, 14, 15, 16] rs
def ws3 : State := handler (CoreId.seq 0) 3 (List.replicate 30 5) (List.replicate 14 6) 2
def ws4 : State := handler (CoreId.seq 0) 9 []
def ws5 : State := wctx (CoreId.seq 0) (fun k ↦ { k with flight := [flt FKind.store, flt (FKind.load 0 1)] }) (run [1, 2])
def ws6 : State := wctx CoreId.sup (fun k ↦ { k with rsv := some (268435480 / 8) }) (run [1, 2])
def ws7 : State := wctx (CoreId.seq 0) (fun k ↦ { k with rsv := some (268435456 / 8) }) (run [1, 2])

/-- States and operands that meet the hypotheses of the clauses of `LoopAndRepeatCounts`. -/
theorem witness_LoopAndRepeatCounts :
    (∃ (r : Regs) (t : PC), 1 < BitVec.toNat r.rc) ∧
    (∃ (r : Regs) (t : PC), BitVec.toNat r.rc ≤ 1 ∧ r.pc ≠ r.le) ∧
    (∃ (r : Regs) (t : PC), BitVec.toNat r.rc ≤ 1 ∧ r.pc = r.le ∧ 1 < BitVec.toNat r.lc) ∧
    (∃ (r : Regs) (t : PC), BitVec.toNat r.rc ≤ 1 ∧ r.pc = r.le ∧ BitVec.toNat r.lc ≤ 1) ∧
    (∃ (s : State) (c : CoreId) (v : View), s.still c v ∧ s.takes c v 1 0 0 0) ∧
    (∃ (s : State) (c : CoreId) (v : View) (k : BitVec 6), s.still c v ∧ s.takes c v 0 0 0 0) ∧
    (∃ (s : State) (c : CoreId) (v : View) (i : Instr) (r : Rep), i.wf = true ∧ sprinCore i = some c ∧ (sprinEncode i).isSome = true ∧ s.ready c v ∧ v.regs.rc = 0 ∧ (s.core c).rep = some r ∧ repTarget i = true) ∧
    (∃ (s : State) (c : CoreId) (v : View) (i : Instr) (r : Rep), i.wf = true ∧ sprinCore i = some c ∧ (sprinEncode i).isSome = true ∧ c ≠ CoreId.moth ∧ s.ready c v ∧ (s.core c).rep = some r ∧ repTarget i = false) :=
  ⟨⟨({ pc := 0, fl := { z := true, s := false, c := true, v := true }, rc := 2, lc := 0, ls := 119, le := 0 }), 12576#22, by decide +kernel⟩,
   ⟨({ pc := 0, fl := { z := true, s := false, c := true, v := true }, rc := 0, lc := 0, ls := 119, le := 261 }), 12576#22, by decide +kernel⟩,
   ⟨({ pc := 0, fl := { z := true, s := false, c := true, v := true }, rc := 0, lc := 2, ls := 119, le := 0 }), 12576#22, by decide +kernel⟩,
   ⟨({ pc := 0, fl := { z := true, s := false, c := true, v := true }, rc := 0, lc := 0, ls := 119, le := 0 }), 12576#22, by decide +kernel⟩,
   ⟨(run [1] rs), (CoreId.seq 0), (Option.get ((run [1] rs).view (CoreId.seq 0)) (by decide +kernel)), by unfold State.still State.ready State.noRep State.takes; decide +kernel⟩,
   ⟨(run [] rs), (CoreId.seq 0), (Option.get ((run [] rs).view (CoreId.seq 0)) (by decide +kernel)), 12576#6, by unfold State.still State.ready State.noRep State.takes; decide +kernel⟩,
   ⟨(repRun 0 [1, 2, 3]), (CoreId.seq 0), (Option.get ((repRun 0 [1, 2, 3]).view (CoreId.seq 0)) (by decide +kernel)), (Instr.lit (CoreId.seq 0) 3), (Option.get (((repRun 0 [1, 2, 3]).core (CoreId.seq 0)).rep) (by decide +kernel)), by unfold State.ready; decide +kernel⟩,
   ⟨(repRun 0 [1, 2, 3]), (CoreId.seq 0), (Option.get ((repRun 0 [1, 2, 3]).view (CoreId.seq 0)) (by decide +kernel)), (Instr.br (CoreId.seq 0) 3), (Option.get (((repRun 0 [1, 2, 3]).core (CoreId.seq 0)).rep) (by decide +kernel)), by unfold State.ready; decide +kernel⟩⟩

/-- States and operands that meet the hypotheses of the clauses of `IllegalAndDepthFaults`. -/
theorem witness_IllegalAndDepthFaults :
    (∃ (s : State) (c : CoreId) (v : View) (w : BitVec 14), s.ready c v ∧ s.noRep c v ∧ sprinDecode c w = none) ∧
    (∃ (s : State) (c : CoreId) (v : View) (i : Instr), s.ready c v ∧ s.noRep c v ∧ c = CoreId.moth ∧ i ∈ [Instr.vwait c, Instr.vresume c, Instr.vtest c, Instr.vprFetch c, Instr.vprStore c] ++ List.flatMap (fun r ↦ [Instr.lr c (BitVec.ofNat 3 r), Instr.sc c (BitVec.ofNat 3 r), Instr.vissue c (BitVec.ofNat 3 r)]) (List.range 8)) ∧
    (∃ (s : State) (c : CoreId) (v : View), s.ready c v ∧ s.noRep c v ∧ ((s.core c).level = 0 ∨ (s.core c).level = 8)) ∧
    (∃ (s : State) (c : CoreId) (v : View), s.ready c v ∧ s.noRep c v ∧ (s.core c).level ≠ 8) ∧
    (∃ (s : State) (c : CoreId) (v : View) (n : BitVec 8) (us : List Upset), s.ready c v ∧ s.noRep c v ∧ (s.core c).level ≠ 0) ∧
    (∃ (s : State) (c : CoreId) (v : View), s.still c v ∧ v.bounded ∧ v.depth < 2 ∧ ((s.entered c).core c).level = 0 ∧ (s.spilled c).fst ≠ 0) ∧
    (∃ (s : State) (c : CoreId) (v : View), s.still c v ∧ v.bounded ∧ v.depth < 2 ∧ ((s.entered c).core c).level = 0 ∧ ¬(s.spilled c).fst ≠ 0) ∧
    (∃ (s : State) (c : CoreId) (v : View), s.still c v ∧ v.bounded ∧ v.depth < 2 ∧ ¬((s.entered c).core c).level = 0) ∧
    (∃ (s : State) (c : CoreId) (v : View) (x : BitVec 12), s.still c v ∧ v.bounded ∧ v.bank.opd = v.ocap ∧ ((s.entered c).core c).level = 0) ∧
    (∃ (s : State) (c : CoreId) (v : View) (x : BitVec 12), s.still c v ∧ v.bounded ∧ v.bank.opd = v.ocap ∧ ¬((s.entered c).core c).level = 0) ∧
    (∃ (s : State) (c : CoreId) (v : View), s.still c v ∧ v.bounded ∧ v.rdepth < 1 ∧ ((s.entered c).core c).level = 0 ∧ (s.spilled c).snd ≠ 0) ∧
    (∃ (s : State) (c : CoreId) (v : View), s.still c v ∧ v.bounded ∧ v.rdepth < 1 ∧ ((s.entered c).core c).level = 0 ∧ ¬(s.spilled c).snd ≠ 0) ∧
    (∃ (s : State) (c : CoreId) (v : View), s.still c v ∧ v.bounded ∧ v.rdepth < 1 ∧ ¬((s.entered c).core c).level = 0) ∧
    (∃ (s : State) (c : CoreId) (v : View) (off : BitVec 10), s.still c v ∧ v.bounded ∧ v.bank.rtd = v.rcap ∧ ((s.entered c).core c).level = 0) ∧
    (∃ (s : State) (c : CoreId) (v : View) (off : BitVec 10), s.still c v ∧ v.bounded ∧ v.bank.rtd = v.rcap ∧ ¬((s.entered c).core c).level = 0) :=
  ⟨⟨(run [] rs), (CoreId.seq 0), (Option.get ((run [] rs).view (CoreId.seq 0)) (by decide +kernel)), 12576#14, by unfold State.ready State.noRep; decide +kernel⟩,
   ⟨(run [] rs), CoreId.moth, (Option.get ((run [] rs).view CoreId.moth) (by decide +kernel)), (Instr.vissue CoreId.moth 2), by unfold State.ready State.noRep; decide +kernel⟩,
   ⟨(run [] rs), (CoreId.seq 0), (Option.get ((run [] rs).view (CoreId.seq 0)) (by decide +kernel)), by unfold State.ready State.noRep; decide +kernel⟩,
   ⟨(run [] rs), (CoreId.seq 0), (Option.get ((run [] rs).view (CoreId.seq 0)) (by decide +kernel)), by unfold State.ready State.noRep; decide +kernel⟩,
   ⟨ws0, (CoreId.seq 0), (Option.get (ws0.view (CoreId.seq 0)) (by decide +kernel)), 12576#8, [], by unfold State.ready State.noRep; decide +kernel⟩,
   ⟨ws1, (CoreId.seq 0), (Option.get (ws1.view (CoreId.seq 0)) (by decide +kernel)), by unfold State.still State.ready State.noRep View.bounded; decide +kernel⟩,
   ⟨(run [] rs), (CoreId.seq 0), (Option.get ((run [] rs).view (CoreId.seq 0)) (by decide +kernel)), by unfold State.still State.ready State.noRep View.bounded; decide +kernel⟩,
   ⟨ws0, (CoreId.seq 0), (Option.get (ws0.view (CoreId.seq 0)) (by decide +kernel)), by unfold State.still State.ready State.noRep View.bounded; decide +kernel⟩,
   ⟨ws2, (CoreId.seq 0), (Option.get (ws2.view (CoreId.seq 0)) (by decide +kernel)), 12576#12, by unfold State.still State.ready State.noRep View.bounded; decide +kernel⟩,
   ⟨ws3, (CoreId.seq 0), (Option.get (ws3.view (CoreId.seq 0)) (by decide +kernel)), 12576#12, by unfold State.still State.ready State.noRep View.bounded; decide +kernel⟩,
   ⟨ws1, (CoreId.seq 0), (Option.get (ws1.view (CoreId.seq 0)) (by decide +kernel)), by unfold State.still State.ready State.noRep View.bounded; decide +kernel⟩,
   ⟨(run [] rs), CoreId.sup, (Option.get ((run [] rs).view CoreId.sup) (by decide +kernel)), by unfold State.still State.ready State.noRep View.bounded; decide +kernel⟩,
   ⟨ws4, (CoreId.seq 0), (Option.get (ws4.view (CoreId.seq 0)) (by decide +kernel)), by unfold State.still State.ready State.noRep View.bounded; decide +kernel⟩,
   ⟨(run [] full), (CoreId.seq 0), (Option.get ((run [] full).view (CoreId.seq 0)) (by decide +kernel)), 12576#10, by unfold State.still State.ready State.noRep View.bounded; decide +kernel⟩,
   ⟨ws3, (CoreId.seq 0), (Option.get (ws3.view (CoreId.seq 0)) (by decide +kernel)), 12576#10, by unfold State.still State.ready State.noRep View.bounded; decide +kernel⟩⟩

/-- States and operands that meet the hypotheses of the clauses of `ControlInstructions`. -/
theorem witness_ControlInstructions :
    (∃ (s : State) (c : CoreId) (v : View), s.still c v ∧ (∀ (q : Nat), q ≤ 1 → v.bank.opd + q ≤ v.ocap) ∧ v.bank.rtd ≤ v.rcap ∧ c ≠ CoreId.moth) ∧
    (∃ (s : State) (c : CoreId) (v : View) (n : BitVec 6), s.still c v ∧ (∀ (q : Nat), q ≤ 1 → v.bank.opd + q ≤ v.ocap) ∧ v.bank.rtd ≤ v.rcap ∧ s.evcOn = true) ∧
    (∃ (s : State) (c : CoreId) (v : View), s.ready c v ∧ s.takes c v 0 0 0 0 ∧ s.noRep c v ∧ (∀ (f : Flight), f ∈ (s.core c).flight → f.done = true ∨ ∃ p n, f.kind = FKind.load p n)) ∧
    (∃ (s : State) (c : CoreId) (v : View), s.ready c v ∧ s.takes c v 0 0 0 0 ∧ s.noRep c v ∧ (∃ f, f ∈ (s.core c).flight ∧ f.done = false ∧ (f.kind = FKind.store ∨ ∃ p, f.kind = FKind.tas p ∨ f.kind = FKind.lr p ∨ f.kind = FKind.sc p))) ∧
    (∃ (s : State) (c : CoreId) (v : View), s.still c v ∧ s.takes c v 0 0 0 0 ∧ (s.core c).level ≠ 0) ∧
    (∃ (s : State) (c : CoreId) (v : View), s.still c v ∧ s.takes c v 0 0 0 0 ∧ (s.core c).level = 0 ∧ c = CoreId.moth) ∧
    (∃ (s : State) (c : CoreId) (v : View), s.still c v ∧ s.takes c v 0 0 0 0 ∧ (s.core c).level = 0 ∧ c ≠ CoreId.moth ∧ (c = CoreId.sup → (s.core c).rsv = none) ∧ s.ownWatch c = none) ∧
    (∃ (s : State) (c : CoreId) (v : View) (g : Nat) (i : Nat), s.still c v ∧ s.takes c v 0 0 0 0 ∧ (s.core c).level = 0 ∧ c = CoreId.sup ∧ (s.core c).rsv = some g ∧ s.liveKey c = some i) ∧
    (∃ (s : State) (c : CoreId) (v : View) (w : Nat) (i : Nat), s.still c v ∧ s.takes c v 0 0 0 0 ∧ (s.core c).level = 0 ∧ s.ownWatch c = some w ∧ s.liveKey c = some i ∧ (s.ctxAt i).parkRq = false) :=
  ⟨⟨(run [] rs), (CoreId.seq 0), (Option.get ((run [] rs).view (CoreId.seq 0)) (by decide +kernel)), by unfold State.still State.ready State.noRep; decide +kernel⟩,
   ⟨(run [] rs), (CoreId.seq 0), (Option.get ((run [] rs).view (CoreId.seq 0)) (by decide +kernel)), 12576#6, by unfold State.still State.ready State.noRep; decide +kernel⟩,
   ⟨(run [] rs), (CoreId.seq 0), (Option.get ((run [] rs).view (CoreId.seq 0)) (by decide +kernel)), by
     unfold State.ready State.takes State.noRep
     refine ⟨by decide +kernel, by decide +kernel, by decide +kernel, fun f h => ?_⟩
     rw [show ((run [] rs).core (CoreId.seq 0)).flight = [] by decide +kernel] at h
     cases h⟩,
   ⟨ws5, (CoreId.seq 0), (Option.get (ws5.view (CoreId.seq 0)) (by decide +kernel)), by
     unfold State.ready State.takes State.noRep
     exact ⟨by decide +kernel, by decide +kernel, by decide +kernel, flt FKind.store, by decide +kernel, by decide +kernel, Or.inl (by decide +kernel)⟩⟩,
   ⟨ws0, (CoreId.seq 0), (Option.get (ws0.view (CoreId.seq 0)) (by decide +kernel)), by unfold State.still State.ready State.noRep State.takes; decide +kernel⟩,
   ⟨(run [] rs), CoreId.moth, (Option.get ((run [] rs).view CoreId.moth) (by decide +kernel)), by unfold State.still State.ready State.noRep State.takes; decide +kernel⟩,
   ⟨(run [] rs), (CoreId.seq 0), (Option.get ((run [] rs).view (CoreId.seq 0)) (by decide +kernel)), by unfold State.still State.ready State.noRep State.takes; decide +kernel⟩,
   ⟨ws6, CoreId.sup, (Option.get (ws6.view CoreId.sup) (by decide +kernel)), (Option.get ((ws6.core CoreId.sup).rsv) (by decide +kernel)), (Option.get (ws6.liveKey CoreId.sup) (by decide +kernel)), by unfold State.still State.ready State.noRep State.takes; decide +kernel⟩,
   ⟨ws7, (CoreId.seq 0), (Option.get (ws7.view (CoreId.seq 0)) (by decide +kernel)), (Option.get (ws7.ownWatch (CoreId.seq 0)) (by decide +kernel)), (Option.get (ws7.liveKey (CoreId.seq 0)) (by decide +kernel)), by unfold State.still State.ready State.noRep State.takes; decide +kernel⟩⟩

end LoopAndRepeatCounts

namespace HandlerReturns

def saved (lvl : BitVec 4) : SaveSet := { r := { pc := 0x105, fl := ⟨true,false,true,false⟩, rc := 3, lc := 4, ls := 5, le := 6 }, level := lvl, bank := 1, cpl := 0, base := 1, rbase := 1, valid := true, caps := caps8 [capOf 16 8 3, capOf 32 8 3, { capOf 48 8 3 with tag := false }], cset := 2 }
def hret (c : CoreId) (n lvl : BitVec 4) (l : List Word) : State := withCore c (fun k => { k with sv := [(levelSet n, saved lvl)], niw := some 4 }) (handler c n l [3,4] 2)
def gate (sel valid : Nat) (niwb : Nat) (entry : Nat) : BitVec 128 := BitVec.ofNat 128 (entry % 65536 + (entry / 65536 + sel * 256 + valid * 2^15) * 65536 + niwb * 2^32)
def gtcUp (c : CoreId) (sel valid niwb entry : Nat) (n : Nat) (l : List Word) : State :=
  let s := withCore c (fun k => { k with gtc := capOf (0x10000000) 4096 0x15 }) (run l [1])
  let s := if c = .sup then withCore c (fun k => k) (s.setCtxAt 0x4001 { s.ctxAt 0x4001 with bank := bank l [1] }) else s
  let s := s.setFld (SEQ_EXC_CFG_NIW_MAX (corePage c)) 100
  let s := s.setScr (scrGranOfWord (0x10000000 + 16*n + 8)) (gate sel valid niwb entry) 0xFFFF false
  s.setScr (scrGranOfWord (0x10000000 + 16*n)) (capOf 0x10000100 64 3).bits 0xFFFF true
def pendEvt (e : Nat) (tgt prio : Nat) (s : State) : State :=
  let s := { s with evc := { s.evc with src := [(e, { s.source e with pend := true, count := 1, cfg := BitVec.ofNat 32 (1 + prio * 2 + tgt * 16) })] } }
  s
def faulted (f : FaultRec) (c : CoreId) (s : State) : State := withCore c (fun k => { k with fault := some f }) s

def ws0 : State := hret (CoreId.seq 0) 3 0 [5, 6, 7]
def ws1 : State := hret (CoreId.seq 0) 7 2 [5]
def ws2 : State := hret (CoreId.seq 0) 8 0 [5, 6]
def ws3 : State := gtcUp (CoreId.seq 0) 0 0 50 74565 0 [7, 8, 9]
def ws4 : State := gtcUp (CoreId.seq 0) 0 1 50 74565 0 [7, 8, 9]
def ws5 : State := faulted { cls := 7, cause := 4, addr := 3 } (CoreId.seq 0) (run [1, 2])
def ws6 : State := faulted { cls := 1, cause := 0, addr := 78187493520 } (CoreId.seq 0) (run [1, 2])
def ws7 : State := withCore (CoreId.seq 0) (fun k ↦ { k with niw := some 0 }) up

/-- States and operands that meet the hypotheses of the clauses of `HandlerReturns`. -/
theorem witness_HandlerReturns :
    (∃ (s : State) (c : CoreId) (v : View) (j : Nat), s.still c v ∧ (s.core c).level ∈ [1, 2, 3, 4, 5, 6, 7, 9, 10] ∧ v.bank.opd ≤ v.ocap ∧ v.bank.rtd ≤ v.rcap ∧ j ≠ coreKey c) ∧
    (∃ (s : State) (c : CoreId) (v : View), s.still c v ∧ (s.core c).level ∈ [1, 2, 3, 4, 5, 6, 7, 9, 10] ∧ v.bank.opd ≤ v.ocap ∧ v.bank.rtd ≤ v.rcap ∧ ((s.core c).saveSet (levelSet (s.core c).level)).level ≠ 0) ∧
    (∃ (s : State) (c : CoreId) (v : View) (m : Nat) (j : Nat), s.still c v ∧ (s.core c).level ∈ [1, 2, 3, 4, 5, 6, 7, 9, 10] ∧ v.bank.opd ≤ v.ocap ∧ v.bank.rtd ≤ v.rcap ∧ c = CoreId.seq m ∧ s.lsOfSeq m = some j ∧ (s.core c).level.toNat ≤ 7) ∧
    (∃ (s : State) (c : CoreId) (v : View) (j : Nat), s.still c v ∧ (s.core c).level = 8 ∧ s.takes c v 2 0 0 0 ∧ j ≠ coreKey c) ∧
    (∃ (s : State) (c : CoreId) (v : View) (r : Nat), s.still c v ∧ r < 8 ∧ (s.core c).level ∈ [1, 2, 3, 4, 5, 6, 7, 9, 10] ∧ v.bank.opd ≤ v.ocap ∧ v.bank.rtd ≤ v.rcap ∧ 1 ≤ ((s.core c).saveSet (levelSet (s.core c).level)).level.toNat ∧ ((s.core c).saveSet (levelSet (s.core c).level)).level.toNat ≤ 10) ∧
    (∃ (x : SaveSet) (i : Nat) (w : Reg), 6 ≤ i ∧ i < 38) :=
  ⟨⟨ws0, (CoreId.seq 0), (Option.get (ws0.view (CoreId.seq 0)) (by decide +kernel)), 16386, by unfold State.still State.ready State.noRep; decide +kernel⟩,
   ⟨ws1, (CoreId.seq 0), (Option.get (ws1.view (CoreId.seq 0)) (by decide +kernel)), by unfold State.still State.ready State.noRep; decide +kernel⟩,
   ⟨ws0, (CoreId.seq 0), (Option.get (ws0.view (CoreId.seq 0)) (by decide +kernel)), 0, (Option.get (ws0.lsOfSeq 0) (by decide +kernel)), by unfold State.still State.ready State.noRep; decide +kernel⟩,
   ⟨ws2, (CoreId.seq 0), (Option.get (ws2.view (CoreId.seq 0)) (by decide +kernel)), 16386, by unfold State.still State.ready State.noRep State.takes; decide +kernel⟩,
   ⟨ws1, (CoreId.seq 0), (Option.get (ws1.view (CoreId.seq 0)) (by decide +kernel)), 7, by unfold State.still State.ready State.noRep; decide +kernel⟩,
   ⟨(saved 0), 33, 12576#32, by decide +kernel⟩⟩

/-- States and operands that meet the hypotheses of the clauses of `TrapsAndHandlerEntries`. -/
theorem witness_TrapsAndHandlerEntries :
    (∃ (s : State) (c : CoreId) (v : View) (n : BitVec 8) (us : List Upset), s.still c v ∧ s.takes c v 2 0 0 0 ∧ (s.core c).level = 0 ∧ s.check c (s.core c).gtc (16 * n.toNat) { perms := [0, 2, 4], st := false, n := 16, align := 8 } true false = none ∧ s.region c ((s.core c).gtc.base + 16 * n.toNat) = Region.scratch ∧ (¬(BitVec.toNat (granWord (s.scrData (scrGranOfWord ((s.core c).gtc.base + 16 * n.toNat + 8))) 1) / 2 ^ 15 % 2 = 1 ∧ BitVec.toNat (granWord (s.scrData (scrGranOfWord ((s.core c).gtc.base + 16 * n.toNat + 8))) 1) / 256 % 16 ≤ 5))) ∧
    (∃ (s : State) (c : CoreId) (v : View) (n : BitVec 8) (us : List Upset) (j : Nat), s.still c v ∧ s.takes c v 2 0 0 0 ∧ (s.core c).level = 0 ∧ s.check c (s.core c).gtc (16 * n.toNat) { perms := [0, 2, 4], st := false, n := 16, align := 8 } true false = none ∧ s.region c ((s.core c).gtc.base + 16 * n.toNat) = Region.scratch ∧ BitVec.toNat (granWord (s.scrData (scrGranOfWord ((s.core c).gtc.base + 16 * n.toNat + 8))) 1) / 2 ^ 15 % 2 = 1 ∧ BitVec.toNat (granWord (s.scrData (scrGranOfWord ((s.core c).gtc.base + 16 * n.toNat + 8))) 1) / 256 % 16 ≤ 5 ∧ j ≠ coreKey c) ∧
    (∃ (s : State) (c : CoreId) (v : View) (j : Nat) (p : Nat) (i : Nat), coreBuilt s.build c = true ∧ s.coreOff c = false ∧ s.canRecognise c = true ∧ s.view c = some v ∧ (s.core c).flight = [] ∧ ((s.core c).orderFault = false ∨ c ≠ CoreId.sup) ∧ s.targetOf c = some j ∧ s.rp j = p ∧ (s.core c).cpl.toNat < p ∧ p ≤ 7 ∧ i ≠ coreKey c) ∧
    (∃ (s : State) (c : CoreId) (v : View) (f : FaultRec), coreBuilt s.build c = true ∧ s.coreOff c = false ∧ s.view c = some v ∧ (s.core c).released = true ∧ (s.core c).dstate = 0 ∧ (s.core c).flight = [] ∧ (s.core c).fault = some f ∧ (s.core c).level.toNat ≤ 8 ∧ ((s.core c).level ≠ 0 ∨ f.cls ≠ 4 ∨ isSeq c = false) ∧ (s.core c).sbh.opd + 4 ≤ 32 ∧ f.cls = 7 ∧ f.cause = 4) ∧
    (∃ (s : State) (c : CoreId) (v : View) (f : FaultRec) (j : Nat), coreBuilt s.build c = true ∧ s.coreOff c = false ∧ s.view c = some v ∧ (s.core c).released = true ∧ (s.core c).dstate = 0 ∧ (s.core c).flight = [] ∧ (s.core c).fault = some f ∧ (s.core c).level.toNat ≤ 8 ∧ ((s.core c).level ≠ 0 ∨ f.cls ≠ 4 ∨ isSeq c = false) ∧ (s.core c).sbh.opd + 4 ≤ 32 ∧ j ≠ coreKey c) ∧
    (∃ (s : State) (c : CoreId) (j : Nat), coreBuilt s.build c = true ∧ s.coreOff c = false ∧ (s.core c).niw = some 0 ∧ j ≠ coreKey c) :=
  ⟨⟨ws3, (CoreId.seq 0), (Option.get (ws3.view (CoreId.seq 0)) (by decide +kernel)), 85, [], by unfold State.still State.ready State.noRep State.takes; decide +kernel⟩,
   ⟨ws4, (CoreId.seq 0), (Option.get (ws4.view (CoreId.seq 0)) (by decide +kernel)), 0, [], 37, by unfold State.still State.ready State.noRep State.takes; decide +kernel⟩,
   ⟨(pendEvt 10 0 1 up), (CoreId.seq 0), (Option.get ((pendEvt 10 0 1 up).view (CoreId.seq 0)) (by decide +kernel)), (Option.get ((pendEvt 10 0 1 up).targetOf (CoreId.seq 0)) (by decide +kernel)), 1, 37, by decide +kernel⟩,
   ⟨ws5, (CoreId.seq 0), (Option.get (ws5.view (CoreId.seq 0)) (by decide +kernel)), (Option.get ((ws5.core (CoreId.seq 0)).fault) (by decide +kernel)), by decide +kernel⟩,
   ⟨ws6, (CoreId.seq 0), (Option.get (ws6.view (CoreId.seq 0)) (by decide +kernel)), (Option.get ((ws6.core (CoreId.seq 0)).fault) (by decide +kernel)), 37, by decide +kernel⟩,
   ⟨ws7, (CoreId.seq 0), 37, by decide +kernel⟩⟩

end HandlerReturns

namespace LoadAndStoreForms

def cl : List Cap := [capOf 0x10000000 64 0x1F, capOf 0x20 0x100 0x1F 2 5, { capOf 0x10000000 64 0x1F with tag := false }, capOf 0x10000001 64 0x23F, capOf 0x100000000 16 3, capOf 0x8000000000 64 3,
  capOf 0x10000000 2 0, capOf 0x20 0x100 0x1F 1 5]
def mem1 (l : List Word) : State := withCtx (fun x => { x with caps := caps8 cl }) (run l [])
def flt (tok : Nat) (k : FKind) : Flight := { tok := tok, kind := k, addr := 0x10000009, cap := capOf 0x10000000 64 3, regs := { Regs.init with pc := 0xFE }, bank := bank [1,2] [], fail := none, done := false, got := none, young := 0, since := 0 }
def opn (s : State) (k : Flight) : State := withCore (.seq 0) (fun c => { c with flight := [k], tok := 7 }) s

def ws0 : State := mem1 [9, 8, 7, 6, 4, 0]
def ws1 : State := mem1 [9, 8, 7, 0, 32769]
def ws2 : State := mem1 [1, 2, 3, 4, 32, 1]
def ws3 : State := mem1 [9, 8, 7, 6, 5, 16]
def ws4 : State := mem1 [9, 8, 7, 6, 3, 0]
def ws5 : State := opn (run [1, 2, 3]) (flt 5 (FKind.load 1 2))
def ws6 : State := opn (run [1, 2, 3]) (flt 5 (FKind.cldc 3))

/-- States and operands that meet the hypotheses of the clauses of `LoadAndStoreForms`. -/
theorem witness_LoadAndStoreForms :
    (∃ (r : BitVec 3) (d : BitVec 6) (s : State) (c : CoreId) (v : View) (f : FaultRec), s.ready c v ∧ s.takes c v 0 1 0 0 ∧ s.repCounts c v ∧ s.checkAccess c (s.capReg c r.toNat) d.toNat 1 false = some f) ∧
    (∃ (r : BitVec 3) (d : BitVec 6) (s : State) (c : CoreId) (v : View), s.ready c v ∧ s.takes c v 0 1 0 0 ∧ s.repCounts c v ∧ s.checkAccess c (s.capReg c r.toNat) d.toNat 1 false = none ∧ s.queued c ((s.capReg c r.toNat).base + d.toNat) ∧ (s.core c).storePending ((s.capReg c r.toNat).base + d.toNat) = false ∧ (s.core c).storePending ((s.capReg c r.toNat).base + d.toNat + 1 - 1) = false ∧ (s.core c).loads < 8) ∧
    (∃ (r : BitVec 3) (d : BitVec 6) (s : State) (c : CoreId) (v : View) (f : FaultRec), s.ready c v ∧ s.takes c v 0 2 0 0 ∧ s.repCounts c v ∧ s.checkAccess c (s.capReg c r.toNat) d.toNat 2 false = some f) ∧
    (∃ (r : BitVec 3) (d : BitVec 6) (s : State) (c : CoreId) (v : View), s.ready c v ∧ s.takes c v 0 2 0 0 ∧ s.repCounts c v ∧ s.checkAccess c (s.capReg c r.toNat) d.toNat 2 false = none ∧ s.queued c ((s.capReg c r.toNat).base + d.toNat) ∧ (s.core c).storePending ((s.capReg c r.toNat).base + d.toNat) = false ∧ (s.core c).storePending ((s.capReg c r.toNat).base + d.toNat + 2 - 1) = false ∧ (s.core c).loads < 8) ∧
    (∃ (r : BitVec 3) (d : BitVec 6) (s : State) (c : CoreId) (v : View) (f : FaultRec), s.ready c v ∧ s.takes c v 1 1 0 0 ∧ s.repCounts c v ∧ s.checkAccess c (s.capReg c r.toNat) (d.toNat + BitVec.toNat (v.cell 0)) 1 false = some f) ∧
    (∃ (r : BitVec 3) (d : BitVec 6) (s : State) (c : CoreId) (v : View), s.ready c v ∧ s.takes c v 1 1 0 0 ∧ s.repCounts c v ∧ s.checkAccess c (s.capReg c r.toNat) (d.toNat + BitVec.toNat (v.cell 0)) 1 false = none ∧ s.queued c ((s.capReg c r.toNat).base + (d.toNat + BitVec.toNat (v.cell 0))) ∧ (s.core c).storePending ((s.capReg c r.toNat).base + (d.toNat + BitVec.toNat (v.cell 0))) = false ∧ (s.core c).storePending ((s.capReg c r.toNat).base + (d.toNat + BitVec.toNat (v.cell 0)) + 1 - 1) = false ∧ (s.core c).loads < 8) ∧
    (∃ (r : BitVec 3) (d : BitVec 6) (s : State) (c : CoreId) (v : View) (f : FaultRec), s.ready c v ∧ s.takes c v 1 2 0 0 ∧ s.repCounts c v ∧ s.checkAccess c (s.capReg c r.toNat) (d.toNat + BitVec.toNat (v.cell 0)) 2 false = some f) ∧
    (∃ (r : BitVec 3) (d : BitVec 6) (s : State) (c : CoreId) (v : View), s.ready c v ∧ s.takes c v 1 2 0 0 ∧ s.repCounts c v ∧ s.checkAccess c (s.capReg c r.toNat) (d.toNat + BitVec.toNat (v.cell 0)) 2 false = none ∧ s.queued c ((s.capReg c r.toNat).base + (d.toNat + BitVec.toNat (v.cell 0))) ∧ (s.core c).storePending ((s.capReg c r.toNat).base + (d.toNat + BitVec.toNat (v.cell 0))) = false ∧ (s.core c).storePending ((s.capReg c r.toNat).base + (d.toNat + BitVec.toNat (v.cell 0)) + 2 - 1) = false ∧ (s.core c).loads < 8) ∧
    (∃ (r : BitVec 3) (s : State) (c : CoreId) (v : View) (f : FaultRec), s.ready c v ∧ s.takes c v 2 1 0 0 ∧ s.repCounts c v ∧ s.checkAccess c (s.capReg c r.toNat) (BitVec.toNat (v.cell 1) + 65536 * BitVec.toNat (v.cell 0)) 1 false = some f) ∧
    (∃ (r : BitVec 3) (s : State) (c : CoreId) (v : View), s.ready c v ∧ s.takes c v 2 1 0 0 ∧ s.repCounts c v ∧ s.checkAccess c (s.capReg c r.toNat) (BitVec.toNat (v.cell 1) + 65536 * BitVec.toNat (v.cell 0)) 1 false = none ∧ s.queued c ((s.capReg c r.toNat).base + (BitVec.toNat (v.cell 1) + 65536 * BitVec.toNat (v.cell 0))) ∧ (s.core c).storePending ((s.capReg c r.toNat).base + (BitVec.toNat (v.cell 1) + 65536 * BitVec.toNat (v.cell 0))) = false ∧ (s.core c).storePending ((s.capReg c r.toNat).base + (BitVec.toNat (v.cell 1) + 65536 * BitVec.toNat (v.cell 0)) + 1 - 1) = false ∧ (s.core c).loads < 8) ∧
    (∃ (r : BitVec 3) (s : State) (c : CoreId) (v : View) (f : FaultRec), s.ready c v ∧ s.takes c v 2 2 0 0 ∧ s.repCounts c v ∧ s.checkAccess c (s.capReg c r.toNat) (BitVec.toNat (v.cell 1) + 65536 * BitVec.toNat (v.cell 0)) 2 false = some f) ∧
    (∃ (r : BitVec 3) (s : State) (c : CoreId) (v : View), s.ready c v ∧ s.takes c v 2 2 0 0 ∧ s.repCounts c v ∧ s.checkAccess c (s.capReg c r.toNat) (BitVec.toNat (v.cell 1) + 65536 * BitVec.toNat (v.cell 0)) 2 false = none ∧ s.queued c ((s.capReg c r.toNat).base + (BitVec.toNat (v.cell 1) + 65536 * BitVec.toNat (v.cell 0))) ∧ (s.core c).storePending ((s.capReg c r.toNat).base + (BitVec.toNat (v.cell 1) + 65536 * BitVec.toNat (v.cell 0))) = false ∧ (s.core c).storePending ((s.capReg c r.toNat).base + (BitVec.toNat (v.cell 1) + 65536 * BitVec.toNat (v.cell 0)) + 2 - 1) = false ∧ (s.core c).loads < 8) ∧
    (∃ (r : BitVec 3) (d : BitVec 6) (s : State) (c : CoreId) (v : View) (f : FaultRec), s.ready c v ∧ s.takes c v 1 0 0 0 ∧ s.repCounts c v ∧ (s.core c).flight = [] ∧ s.checkAccess c (s.capReg c r.toNat) d.toNat [v.cell 0].length true = some f) ∧
    (∃ (r : BitVec 3) (d : BitVec 6) (s : State) (c : CoreId) (v : View), s.ready c v ∧ s.takes c v 1 0 0 0 ∧ s.repCounts c v ∧ (s.core c).flight = [] ∧ s.checkAccess c (s.capReg c r.toNat) d.toNat [v.cell 0].length true = none ∧ s.queued c ((s.capReg c r.toNat).base + d.toNat) ∧ ¬s.splits c (s.capReg c r.toNat) ((s.capReg c r.toNat).base + d.toNat) [v.cell 0].length = true) ∧
    (∃ (r : BitVec 3) (d : BitVec 6) (s : State) (c : CoreId) (v : View) (f : FaultRec), s.ready c v ∧ s.takes c v 2 0 0 0 ∧ s.repCounts c v ∧ (s.core c).flight = [] ∧ s.checkAccess c (s.capReg c r.toNat) d.toNat [v.cell 1, v.cell 0].length true = some f) ∧
    (∃ (r : BitVec 3) (d : BitVec 6) (s : State) (c : CoreId) (v : View), s.ready c v ∧ s.takes c v 2 0 0 0 ∧ s.repCounts c v ∧ (s.core c).flight = [] ∧ s.checkAccess c (s.capReg c r.toNat) d.toNat [v.cell 1, v.cell 0].length true = none ∧ s.queued c ((s.capReg c r.toNat).base + d.toNat) ∧ ¬s.splits c (s.capReg c r.toNat) ((s.capReg c r.toNat).base + d.toNat) [v.cell 1, v.cell 0].length = true) ∧
    (∃ (r : BitVec 3) (d : BitVec 6) (s : State) (c : CoreId) (v : View) (f : FaultRec), s.ready c v ∧ s.takes c v 2 0 0 0 ∧ s.repCounts c v ∧ (s.core c).flight = [] ∧ s.checkAccess c (s.capReg c r.toNat) (d.toNat + BitVec.toNat (v.cell 0)) [v.cell 1].length true = some f) ∧
    (∃ (r : BitVec 3) (d : BitVec 6) (s : State) (c : CoreId) (v : View), s.ready c v ∧ s.takes c v 2 0 0 0 ∧ s.repCounts c v ∧ (s.core c).flight = [] ∧ s.checkAccess c (s.capReg c r.toNat) (d.toNat + BitVec.toNat (v.cell 0)) [v.cell 1].length true = none ∧ s.queued c ((s.capReg c r.toNat).base + (d.toNat + BitVec.toNat (v.cell 0))) ∧ ¬s.splits c (s.capReg c r.toNat) ((s.capReg c r.toNat).base + (d.toNat + BitVec.toNat (v.cell 0))) [v.cell 1].length = true) ∧
    (∃ (r : BitVec 3) (d : BitVec 6) (s : State) (c : CoreId) (v : View) (f : FaultRec), s.ready c v ∧ s.takes c v 3 0 0 0 ∧ s.repCounts c v ∧ (s.core c).flight = [] ∧ s.checkAccess c (s.capReg c r.toNat) (d.toNat + BitVec.toNat (v.cell 0)) [v.cell 2, v.cell 1].length true = some f) ∧
    (∃ (r : BitVec 3) (d : BitVec 6) (s : State) (c : CoreId) (v : View), s.ready c v ∧ s.takes c v 3 0 0 0 ∧ s.repCounts c v ∧ (s.core c).flight = [] ∧ s.checkAccess c (s.capReg c r.toNat) (d.toNat + BitVec.toNat (v.cell 0)) [v.cell 2, v.cell 1].length true = none ∧ s.queued c ((s.capReg c r.toNat).base + (d.toNat + BitVec.toNat (v.cell 0))) ∧ ¬s.splits c (s.capReg c r.toNat) ((s.capReg c r.toNat).base + (d.toNat + BitVec.toNat (v.cell 0))) [v.cell 2, v.cell 1].length = true) ∧
    (∃ (r : BitVec 3) (s : State) (c : CoreId) (v : View) (f : FaultRec), s.ready c v ∧ s.takes c v 3 0 0 0 ∧ s.repCounts c v ∧ (s.core c).flight = [] ∧ s.checkAccess c (s.capReg c r.toNat) (BitVec.toNat (v.cell 1) + 65536 * BitVec.toNat (v.cell 0)) [v.cell 2].length true = some f) ∧
    (∃ (r : BitVec 3) (s : State) (c : CoreId) (v : View), s.ready c v ∧ s.takes c v 3 0 0 0 ∧ s.repCounts c v ∧ (s.core c).flight = [] ∧ s.checkAccess c (s.capReg c r.toNat) (BitVec.toNat (v.cell 1) + 65536 * BitVec.toNat (v.cell 0)) [v.cell 2].length true = none ∧ s.queued c ((s.capReg c r.toNat).base + (BitVec.toNat (v.cell 1) + 65536 * BitVec.toNat (v.cell 0))) ∧ ¬s.splits c (s.capReg c r.toNat) ((s.capReg c r.toNat).base + (BitVec.toNat (v.cell 1) + 65536 * BitVec.toNat (v.cell 0))) [v.cell 2].length = true) ∧
    (∃ (r : BitVec 3) (s : State) (c : CoreId) (v : View) (f : FaultRec), s.ready c v ∧ s.takes c v 4 0 0 0 ∧ s.repCounts c v ∧ (s.core c).flight = [] ∧ s.checkAccess c (s.capReg c r.toNat) (BitVec.toNat (v.cell 1) + 65536 * BitVec.toNat (v.cell 0)) [v.cell 3, v.cell 2].length true = some f) ∧
    (∃ (r : BitVec 3) (s : State) (c : CoreId) (v : View), s.ready c v ∧ s.takes c v 4 0 0 0 ∧ s.repCounts c v ∧ (s.core c).flight = [] ∧ s.checkAccess c (s.capReg c r.toNat) (BitVec.toNat (v.cell 1) + 65536 * BitVec.toNat (v.cell 0)) [v.cell 3, v.cell 2].length true = none ∧ s.queued c ((s.capReg c r.toNat).base + (BitVec.toNat (v.cell 1) + 65536 * BitVec.toNat (v.cell 0))) ∧ ¬s.splits c (s.capReg c r.toNat) ((s.capReg c r.toNat).base + (BitVec.toNat (v.cell 1) + 65536 * BitVec.toNat (v.cell 0))) [v.cell 3, v.cell 2].length = true) :=
  ⟨⟨6#3, 63, ws0, (CoreId.seq 0), (Option.get (ws0.view (CoreId.seq 0)) (by decide +kernel)), (Option.get (ws0.checkAccess (CoreId.seq 0) (ws0.capReg (CoreId.seq 0) (6#3).toNat) ((fun x ↦ 63) (Option.get (ws0.view (CoreId.seq 0)) (by decide +kernel))) 1 false) (by decide +kernel)), by unfold State.ready State.takes State.repCounts; decide +kernel⟩,
   ⟨7#3, 63, ws0, (CoreId.seq 0), (Option.get (ws0.view (CoreId.seq 0)) (by decide +kernel)), by unfold State.ready State.takes State.repCounts State.queued; decide +kernel⟩,
   ⟨7#3, 63, ws0, (CoreId.seq 0), (Option.get (ws0.view (CoreId.seq 0)) (by decide +kernel)), (Option.get (ws0.checkAccess (CoreId.seq 0) (ws0.capReg (CoreId.seq 0) (7#3).toNat) ((fun x ↦ 63) (Option.get (ws0.view (CoreId.seq 0)) (by decide +kernel))) 2 false) (by decide +kernel)), by unfold State.ready State.takes State.repCounts; decide +kernel⟩,
   ⟨7#3, 8, ws0, (CoreId.seq 0), (Option.get (ws0.view (CoreId.seq 0)) (by decide +kernel)), by unfold State.ready State.takes State.repCounts State.queued; decide +kernel⟩,
   ⟨7#3, 63, ws1, (CoreId.seq 0), (Option.get (ws1.view (CoreId.seq 0)) (by decide +kernel)), (Option.get (ws1.checkAccess (CoreId.seq 0) (ws1.capReg (CoreId.seq 0) (7#3).toNat) ((fun _ ↦ 63 + BitVec.toNat ((Option.get (ws1.view (CoreId.seq 0)) (by decide +kernel)).cell 0)) (Option.get (ws1.view (CoreId.seq 0)) (by decide +kernel))) 1 false) (by decide +kernel)), by unfold State.ready State.takes State.repCounts; decide +kernel⟩,
   ⟨7#3, 63, ws0, (CoreId.seq 0), (Option.get (ws0.view (CoreId.seq 0)) (by decide +kernel)), by unfold State.ready State.takes State.repCounts State.queued; decide +kernel⟩,
   ⟨7#3, 63, ws0, (CoreId.seq 0), (Option.get (ws0.view (CoreId.seq 0)) (by decide +kernel)), (Option.get (ws0.checkAccess (CoreId.seq 0) (ws0.capReg (CoreId.seq 0) (7#3).toNat) ((fun _ ↦ 63 + BitVec.toNat ((Option.get (ws0.view (CoreId.seq 0)) (by decide +kernel)).cell 0)) (Option.get (ws0.view (CoreId.seq 0)) (by decide +kernel))) 2 false) (by decide +kernel)), by unfold State.ready State.takes State.repCounts; decide +kernel⟩,
   ⟨7#3, 63, ws2, (CoreId.seq 0), (Option.get (ws2.view (CoreId.seq 0)) (by decide +kernel)), by unfold State.ready State.takes State.repCounts State.queued; decide +kernel⟩,
   ⟨7#3, ws3, (CoreId.seq 0), (Option.get (ws3.view (CoreId.seq 0)) (by decide +kernel)), (Option.get (ws3.checkAccess (CoreId.seq 0) (ws3.capReg (CoreId.seq 0) (7#3).toNat) ((fun _ ↦ BitVec.toNat ((Option.get (ws3.view (CoreId.seq 0)) (by decide +kernel)).cell 1) + 65536 * BitVec.toNat ((Option.get (ws3.view (CoreId.seq 0)) (by decide +kernel)).cell 0)) (Option.get (ws3.view (CoreId.seq 0)) (by decide +kernel))) 1 false) (by decide +kernel)), by unfold State.ready State.takes State.repCounts; decide +kernel⟩,
   ⟨7#3, ws0, (CoreId.seq 0), (Option.get (ws0.view (CoreId.seq 0)) (by decide +kernel)), by unfold State.ready State.takes State.repCounts State.queued; decide +kernel⟩,
   ⟨7#3, ws4, (CoreId.seq 0), (Option.get (ws4.view (CoreId.seq 0)) (by decide +kernel)), (Option.get (ws4.checkAccess (CoreId.seq 0) (ws4.capReg (CoreId.seq 0) (7#3).toNat) ((fun _ ↦ BitVec.toNat ((Option.get (ws4.view (CoreId.seq 0)) (by decide +kernel)).cell 1) + 65536 * BitVec.toNat ((Option.get (ws4.view (CoreId.seq 0)) (by decide +kernel)).cell 0)) (Option.get (ws4.view (CoreId.seq 0)) (by decide +kernel))) 2 false) (by decide +kernel)), by unfold State.ready State.takes State.repCounts; decide +kernel⟩,
   ⟨7#3, ws0, (CoreId.seq 0), (Option.get (ws0.view (CoreId.seq 0)) (by decide +kernel)), by unfold State.ready State.takes State.repCounts State.queued; decide +kernel⟩,
   ⟨7#3, 63, ws0, (CoreId.seq 0), (Option.get (ws0.view (CoreId.seq 0)) (by decide +kernel)), (Option.get (ws0.checkAccess (CoreId.seq 0) (ws0.capReg (CoreId.seq 0) (7#3).toNat) ((fun x ↦ 63) (Option.get (ws0.view (CoreId.seq 0)) (by decide +kernel))) ((fun _ ↦ [(Option.get (ws0.view (CoreId.seq 0)) (by decide +kernel)).cell 0]) (Option.get (ws0.view (CoreId.seq 0)) (by decide +kernel))).length true) (by decide +kernel)), by unfold State.ready State.takes State.repCounts; decide +kernel⟩,
   ⟨3#3, 63, ws0, (CoreId.seq 0), (Option.get (ws0.view (CoreId.seq 0)) (by decide +kernel)), by unfold State.ready State.takes State.repCounts State.queued; decide +kernel⟩,
   ⟨7#3, 63, ws0, (CoreId.seq 0), (Option.get (ws0.view (CoreId.seq 0)) (by decide +kernel)), (Option.get (ws0.checkAccess (CoreId.seq 0) (ws0.capReg (CoreId.seq 0) (7#3).toNat) ((fun x ↦ 63) (Option.get (ws0.view (CoreId.seq 0)) (by decide +kernel))) ((fun _ ↦ [(Option.get (ws0.view (CoreId.seq 0)) (by decide +kernel)).cell 1, (Option.get (ws0.view (CoreId.seq 0)) (by decide +kernel)).cell 0]) (Option.get (ws0.view (CoreId.seq 0)) (by decide +kernel))).length true) (by decide +kernel)), by unfold State.ready State.takes State.repCounts; decide +kernel⟩,
   ⟨3#3, 3, ws0, (CoreId.seq 0), (Option.get (ws0.view (CoreId.seq 0)) (by decide +kernel)), by unfold State.ready State.takes State.repCounts State.queued; decide +kernel⟩,
   ⟨7#3, 63, ws0, (CoreId.seq 0), (Option.get (ws0.view (CoreId.seq 0)) (by decide +kernel)), (Option.get (ws0.checkAccess (CoreId.seq 0) (ws0.capReg (CoreId.seq 0) (7#3).toNat) ((fun _ ↦ 63 + BitVec.toNat ((Option.get (ws0.view (CoreId.seq 0)) (by decide +kernel)).cell 0)) (Option.get (ws0.view (CoreId.seq 0)) (by decide +kernel))) ((fun _ ↦ [(Option.get (ws0.view (CoreId.seq 0)) (by decide +kernel)).cell 1]) (Option.get (ws0.view (CoreId.seq 0)) (by decide +kernel))).length true) (by decide +kernel)), by unfold State.ready State.takes State.repCounts; decide +kernel⟩,
   ⟨3#3, 63, ws0, (CoreId.seq 0), (Option.get (ws0.view (CoreId.seq 0)) (by decide +kernel)), by unfold State.ready State.takes State.repCounts State.queued; decide +kernel⟩,
   ⟨7#3, 63, ws0, (CoreId.seq 0), (Option.get (ws0.view (CoreId.seq 0)) (by decide +kernel)), (Option.get (ws0.checkAccess (CoreId.seq 0) (ws0.capReg (CoreId.seq 0) (7#3).toNat) ((fun _ ↦ 63 + BitVec.toNat ((Option.get (ws0.view (CoreId.seq 0)) (by decide +kernel)).cell 0)) (Option.get (ws0.view (CoreId.seq 0)) (by decide +kernel))) ((fun _ ↦ [(Option.get (ws0.view (CoreId.seq 0)) (by decide +kernel)).cell 2, (Option.get (ws0.view (CoreId.seq 0)) (by decide +kernel)).cell 1]) (Option.get (ws0.view (CoreId.seq 0)) (by decide +kernel))).length true) (by decide +kernel)), by unfold State.ready State.takes State.repCounts; decide +kernel⟩,
   ⟨3#3, 8, ws2, (CoreId.seq 0), (Option.get (ws2.view (CoreId.seq 0)) (by decide +kernel)), by unfold State.ready State.takes State.repCounts State.queued; decide +kernel⟩,
   ⟨7#3, ws0, (CoreId.seq 0), (Option.get (ws0.view (CoreId.seq 0)) (by decide +kernel)), (Option.get (ws0.checkAccess (CoreId.seq 0) (ws0.capReg (CoreId.seq 0) (7#3).toNat) ((fun _ ↦ BitVec.toNat ((Option.get (ws0.view (CoreId.seq 0)) (by decide +kernel)).cell 1) + 65536 * BitVec.toNat ((Option.get (ws0.view (CoreId.seq 0)) (by decide +kernel)).cell 0)) (Option.get (ws0.view (CoreId.seq 0)) (by decide +kernel))) ((fun _ ↦ [(Option.get (ws0.view (CoreId.seq 0)) (by decide +kernel)).cell 2]) (Option.get (ws0.view (CoreId.seq 0)) (by decide +kernel))).length true) (by decide +kernel)), by unfold State.ready State.takes State.repCounts; decide +kernel⟩,
   ⟨3#3, ws0, (CoreId.seq 0), (Option.get (ws0.view (CoreId.seq 0)) (by decide +kernel)), by unfold State.ready State.takes State.repCounts State.queued; decide +kernel⟩,
   ⟨7#3, ws0, (CoreId.seq 0), (Option.get (ws0.view (CoreId.seq 0)) (by decide +kernel)), (Option.get (ws0.checkAccess (CoreId.seq 0) (ws0.capReg (CoreId.seq 0) (7#3).toNat) ((fun _ ↦ BitVec.toNat ((Option.get (ws0.view (CoreId.seq 0)) (by decide +kernel)).cell 1) + 65536 * BitVec.toNat ((Option.get (ws0.view (CoreId.seq 0)) (by decide +kernel)).cell 0)) (Option.get (ws0.view (CoreId.seq 0)) (by decide +kernel))) ((fun _ ↦ [(Option.get (ws0.view (CoreId.seq 0)) (by decide +kernel)).cell 3, (Option.get (ws0.view (CoreId.seq 0)) (by decide +kernel)).cell 2]) (Option.get (ws0.view (CoreId.seq 0)) (by decide +kernel))).length true) (by decide +kernel)), by unfold State.ready State.takes State.repCounts; decide +kernel⟩,
   ⟨3#3, ws4, (CoreId.seq 0), (Option.get (ws4.view (CoreId.seq 0)) (by decide +kernel)), by unfold State.ready State.takes State.repCounts State.queued; decide +kernel⟩⟩

/-- States and operands that meet the hypotheses of the clauses of `AccessChecksAndCompletion`. -/
theorem witness_AccessChecksAndCompletion :
    (∃ (s : State) (c : CoreId) (cap : Cap) (off : Nat) (k : Need195) (single : Bool) (atomic : Bool), (¬(cap.tag = true ∧ cap.owner / 512 < s.build.lss))) ∧
    (∃ (s : State) (c : CoreId) (cap : Cap) (off : Nat) (k : Need195) (single : Bool) (atomic : Bool), cap.tag = true ∧ cap.owner / 512 < s.build.lss ∧ cap.otype ≠ 0) ∧
    (∃ (s : State) (c : CoreId) (cap : Cap) (off : Nat) (k : Need195) (single : Bool) (atomic : Bool), cap.tag = true ∧ cap.owner / 512 < s.build.lss ∧ cap.otype = 0 ∧ (¬((∀ (b : Nat), b ∈ k.perms → cap.perm / 2 ^ b % 2 = 1) ∧ (s.region c (cap.base + off) = Region.stream → cap.view ≠ 3 ∧ (k.st = true → cap.view ≠ 1))))) ∧
    (∃ (s : State) (c : CoreId) (cap : Cap) (off : Nat) (k : Need195) (single : Bool) (atomic : Bool), cap.tag = true ∧ cap.owner / 512 < s.build.lss ∧ cap.otype = 0 ∧ ((∀ (b : Nat), b ∈ k.perms → cap.perm / 2 ^ b % 2 = 1) ∧ (s.region c (cap.base + off) = Region.stream → cap.view ≠ 3 ∧ (k.st = true → cap.view ≠ 1))) ∧ cap.length < off + k.n) ∧
    (∃ (s : State) (c : CoreId) (cap : Cap) (off : Nat) (k : Need195) (single : Bool) (atomic : Bool), cap.tag = true ∧ cap.owner / 512 < s.build.lss ∧ cap.otype = 0 ∧ ((∀ (b : Nat), b ∈ k.perms → cap.perm / 2 ^ b % 2 = 1) ∧ (s.region c (cap.base + off) = Region.stream → cap.view ≠ 3 ∧ (k.st = true → cap.view ≠ 1))) ∧ off + k.n ≤ cap.length ∧ (cap.base + off) % k.align ≠ 0) ∧
    (∃ (s : State) (c : CoreId) (cap : Cap) (off : Nat) (k : Need195) (single : Bool) (atomic : Bool), cap.tag = true ∧ cap.owner / 512 < s.build.lss ∧ cap.otype = 0 ∧ ((∀ (b : Nat), b ∈ k.perms → cap.perm / 2 ^ b % 2 = 1) ∧ (s.region c (cap.base + off) = Region.stream → cap.view ≠ 3 ∧ (k.st = true → cap.view ≠ 1))) ∧ off + k.n ≤ cap.length ∧ (cap.base + off) % k.align = 0 ∧ ((∃ i, i < k.n ∧ s.region c (cap.base + off + i) ≠ s.region c (cap.base + off)) ∨ s.region c (cap.base + off) = Region.none ∨ s.region c (cap.base + off) = Region.regs ∧ (single = true ∨ regHole (2 * (cap.base + off - 4294967296)) = true) ∨ s.region c (cap.base + off) = Region.bulk ∧ (atomic = true ∨ s.bulkOk (cap.base + off) = false))) ∧
    (∃ (s : State) (c : CoreId) (v : View) (f : Flight) (p : Nat) (n : Nat) (d : Gran) (tag : Bool) (j : Nat), s.view c = some v ∧ (s.core c).flight = [f] ∧ f.fail = none ∧ f.done = false ∧ f.kind = FKind.load p n ∧ p + n ≤ v.bank.opd ∧ j < n) ∧
    (∃ (s : State) (c : CoreId) (v : View) (f : Flight) (p : Nat) (n : Nat) (d : Gran) (tag : Bool) (j : Nat), s.view c = some v ∧ (s.core c).flight = [f] ∧ f.fail = none ∧ f.done = false ∧ f.kind = FKind.load p n ∧ p + n ≤ v.bank.opd ∧ (j < p ∨ p + n ≤ j)) ∧
    (∃ (s : State) (c : CoreId) (v : View) (f : Flight) (p : Nat) (n : Nat), s.view c = some v ∧ (s.core c).flight = [f] ∧ f.fail = none ∧ f.done = false ∧ f.kind = FKind.load p n) ∧
    (∃ (s : State) (c : CoreId) (v : View) (f : Flight) (r : BitVec 3) (d : Gran) (tag : Bool), s.view c = some v ∧ (s.core c).flight = [f] ∧ f.fail = none ∧ f.done = false ∧ f.kind = FKind.cldc r ∧ (s.liveKey c).isSome = true) ∧
    (∃ (s : State) (c : CoreId) (v : View) (f : Flight) (tok : Nat) (m : MemRes), s.view c = some v ∧ (s.core c).flight = [f] ∧ f.fail = none ∧ f.done = false ∧ tok ≠ f.tok) :=
  ⟨⟨up, (CoreId.seq 0), ({ bits := (capOf 268435456 64 31).bits, tag := false }), 32505856, ({ perms := [], st := true, n := 1, align := 1 }), false, false, by decide +kernel⟩,
   ⟨up, (CoreId.seq 0), ({ bits := capBits 268435456 64 3 5 2 9 3 0, tag := (capOf 268435456 64 31 3).tag }), 32505856, ({ perms := [], st := true, n := 1, align := 1 }), false, false, by decide +kernel⟩,
   ⟨up, (CoreId.seq 0), (capOf 4294967296 16 3), 32505856, ({ perms := [1, 3], st := true, n := 1, align := 1 }), false, false, by decide +kernel⟩,
   ⟨up, (CoreId.seq 0), (capOf 268435456 64 31), 32505856, ({ perms := [], st := true, n := 1, align := 1 }), false, false, by decide +kernel⟩,
   ⟨up, (CoreId.seq 0), (capOf 268435456 64 31), 9, ({ perms := [], st := true, n := 2, align := 2 }), false, false, by decide +kernel⟩,
   ⟨up, (CoreId.seq 0), (capOf 4294967296 16 3), 9, ({ perms := [], st := true, n := 1, align := 1 }), true, false, by decide +kernel⟩,
   ⟨ws5, (CoreId.seq 0), (Option.get (ws5.view (CoreId.seq 0)) (by decide +kernel)), (flt 5 (FKind.load 1 2)), 1, 2, 24197857203266734881846307747534221840#128, false, 1, by decide +kernel⟩,
   ⟨ws5, (CoreId.seq 0), (Option.get (ws5.view (CoreId.seq 0)) (by decide +kernel)), (flt 5 (FKind.load 1 2)), 1, 2, 24197857203266734881846307747534221840#128, false, 32505856, by decide +kernel⟩,
   ⟨ws5, (CoreId.seq 0), (Option.get (ws5.view (CoreId.seq 0)) (by decide +kernel)), (flt 5 (FKind.load 1 2)), 1, 2, by decide +kernel⟩,
   ⟨ws6, (CoreId.seq 0), (Option.get (ws6.view (CoreId.seq 0)) (by decide +kernel)), (flt 5 (FKind.cldc 3)), 3, 24197857203266734881846307747534221840#128, false, by decide +kernel⟩,
   ⟨ws5, (CoreId.seq 0), (Option.get (ws5.view (CoreId.seq 0)) (by decide +kernel)), (flt 5 (FKind.load 1 2)), 32505856, MemRes.ue, by decide +kernel⟩⟩

end LoadAndStoreForms

namespace AtomicAndCapabilityAccesses

def cl : List Cap := [capOf 0x10000000 64 0x1F, capOf 0x20 0x100 0x1F 2 5, { capOf 0x10000000 64 0x1F with tag := false }, capOf 0x10000001 64 0x23F, capOf 0x100000000 16 3, capOf 0x8000000000 64 3,
  capOf 0x10000000 2 0, capOf 0x20 0x100 0x1F 1 5]
def mem1 (l : List Word) : State := withCtx (fun x => { x with caps := caps8 cl }) (run l [])

def ws0 : State := mem1 [9, 8, 7, 6, 4, 0]
def ws1 : State := mem1 [9, 8, 7, 6, 40, 0]
def ws2 : State := mem1 [9, 8, 7, 6, 5, 16]

/-- States and operands that meet the hypotheses of the clauses of `AtomicAndCapabilityAccesses`. -/
theorem witness_AtomicAndCapabilityAccesses :
    (∃ (s : State) (c : CoreId) (v : View) (r : BitVec 3) (a : BitVec 3), s.still c v ∧ v.bank.opd ≤ v.ocap ∧ v.bank.rtd ≤ v.rcap ∧ 1 ≤ v.depth ∧ s.check c (s.capReg c r.toNat) (BitVec.toNat (v.cell 0)) { perms := [0, 1], st := true, n := 1, align := 1 } true true = none ∧ s.queued c ((s.capReg c r.toNat).base + BitVec.toNat (v.cell 0))) ∧
    (∃ (s : State) (c : CoreId) (v : View) (r : BitVec 3) (a : BitVec 3), s.still c v ∧ v.bank.opd ≤ v.ocap ∧ v.bank.rtd ≤ v.rcap ∧ 1 ≤ v.depth ∧ c ≠ CoreId.moth ∧ s.check c (s.capReg c r.toNat) (BitVec.toNat (v.cell 0)) { perms := [0, 1], st := true, n := 8, align := 8 } true true = none ∧ s.queued c ((s.capReg c r.toNat).base + BitVec.toNat (v.cell 0))) ∧
    (∃ (s : State) (c : CoreId) (v : View) (r : BitVec 3) (a : BitVec 3), s.still c v ∧ v.bank.opd ≤ v.ocap ∧ v.bank.rtd ≤ v.rcap ∧ 2 ≤ v.depth ∧ c ≠ CoreId.moth ∧ s.check c (s.capReg c r.toNat) (BitVec.toNat (v.cell 0)) { perms := [0, 1], st := true, n := 1, align := 8 } true true = none ∧ s.queued c ((s.capReg c r.toNat).base + BitVec.toNat (v.cell 0))) ∧
    (∃ (s : State) (c : CoreId) (v : View) (r : BitVec 3) (a : BitVec 3), s.still c v ∧ v.bank.opd ≤ v.ocap ∧ v.bank.rtd ≤ v.rcap ∧ 2 ≤ v.depth ∧ s.check c (s.capReg c r.toNat) (BitVec.toNat (v.cell 1) + 65536 * BitVec.toNat (v.cell 0)) { perms := [0, 2], st := false, n := 8, align := 8 } true false = none ∧ s.queued c ((s.capReg c r.toNat).base + BitVec.toNat (v.cell 1) + 65536 * BitVec.toNat (v.cell 0))) ∧
    (∃ (s : State) (c : CoreId) (v : View) (r : BitVec 3) (a : BitVec 3), s.still c v ∧ v.bank.opd ≤ v.ocap ∧ v.bank.rtd ≤ v.rcap ∧ 2 ≤ v.depth ∧ s.check c (s.capReg c r.toNat) (BitVec.toNat (v.cell 1) + 65536 * BitVec.toNat (v.cell 0)) { perms := [1, 3], st := true, n := 8, align := 8 } true false = none ∧ s.queued c ((s.capReg c r.toNat).base + BitVec.toNat (v.cell 1) + 65536 * BitVec.toNat (v.cell 0))) ∧
    (∃ (s : State) (c : CoreId) (v : View) (r : BitVec 3) (a : BitVec 3), s.still c v ∧ v.bank.opd ≤ v.ocap ∧ v.bank.rtd ≤ v.rcap ∧ 2 ≤ v.depth ∧ v.cell 0 = 0) ∧
    (∃ (s : State) (c : CoreId) (v : View) (r : BitVec 3) (a : BitVec 3) (j : Nat), s.still c v ∧ v.bank.opd ≤ v.ocap ∧ v.bank.rtd ≤ v.rcap ∧ 2 ≤ v.depth ∧ v.bank.opd + 1 ≤ v.ocap ∧ BitVec.getLsbD (v.cell 0) j = true ∧ (∀ (i : Nat), j < i → BitVec.getLsbD (v.cell 0) i = false) ∧ s.check c (s.capReg c r.toNat) (BitVec.toNat (v.cell 1) + j) { perms := [0], st := false, n := 1, align := 1 } true false = none ∧ s.queued c ((s.capReg c r.toNat).base + (BitVec.toNat (v.cell 1) + j))) ∧
    (∃ (s : State) (c : CoreId) (v : View) (r : BitVec 3) (a : BitVec 3) (j : Nat), s.still c v ∧ v.bank.opd ≤ v.ocap ∧ v.bank.rtd ≤ v.rcap ∧ 3 ≤ v.depth ∧ BitVec.getLsbD (v.cell 0) j = true ∧ (∀ (i : Nat), i < j → BitVec.getLsbD (v.cell 0) i = false) ∧ s.check c (s.capReg c r.toNat) (BitVec.toNat (v.cell 1) + j) { perms := [1], st := true, n := 1, align := 1 } true false = none ∧ s.queued c ((s.capReg c r.toNat).base + (BitVec.toNat (v.cell 1) + j))) :=
  ⟨⟨ws0, (CoreId.seq 0), (Option.get (ws0.view (CoreId.seq 0)) (by decide +kernel)), 3#3, 7#3, by unfold State.still State.ready State.noRep State.queued; decide +kernel⟩,
   ⟨ws0, (CoreId.seq 0), (Option.get (ws0.view (CoreId.seq 0)) (by decide +kernel)), 1#3, 7#3, by unfold State.still State.ready State.noRep State.queued; decide +kernel⟩,
   ⟨ws0, (CoreId.seq 0), (Option.get (ws0.view (CoreId.seq 0)) (by decide +kernel)), 1#3, 7#3, by unfold State.still State.ready State.noRep State.queued; decide +kernel⟩,
   ⟨ws1, (CoreId.seq 0), (Option.get (ws1.view (CoreId.seq 0)) (by decide +kernel)), 7#3, 7#3, by unfold State.still State.ready State.noRep State.queued; decide +kernel⟩,
   ⟨ws1, (CoreId.seq 0), (Option.get (ws1.view (CoreId.seq 0)) (by decide +kernel)), 1#3, 7#3, by unfold State.still State.ready State.noRep State.queued; decide +kernel⟩,
   ⟨ws0, (CoreId.seq 0), (Option.get (ws0.view (CoreId.seq 0)) (by decide +kernel)), 7#3, 7#3, by unfold State.still State.ready State.noRep; decide +kernel⟩,
   ⟨ws2, (CoreId.seq 0), (Option.get (ws2.view (CoreId.seq 0)) (by decide +kernel)), 7#3, 7#3, 4, by
     unfold State.still State.ready State.noRep State.queued
     and_intros <;> try decide +kernel
     intro i h
     rcases Nat.lt_or_ge i 16 with h' | h'
     · exact (show ∀ i, i < 16 → 4 < i → BitVec.getLsbD (((Option.get (ws2.view (CoreId.seq 0)) (by decide +kernel)) : View).cell 0) i = false
         by decide +kernel) i h' h
     · exact BitVec.getLsbD_of_ge _ _ h'⟩,
   ⟨ws2, (CoreId.seq 0), (Option.get (ws2.view (CoreId.seq 0)) (by decide +kernel)), 3#3, 7#3, 4, by unfold State.still State.ready State.noRep State.queued; decide +kernel⟩⟩

end AtomicAndCapabilityAccesses

namespace WritesAndFlips

def acc (k : Kind) (p : Nat) (g : Nat) (v : BitVec 2 := 1) : Access := { dest := .core (.seq 0) 5, port := p, gran := g, view := v, group := 1, owner := 3, kind := k }
def g0 := granOf State.reset.build 0 5 1
def withW : State := (writeGranule (acc .read 40 g0 2) 0x1234 0xFFFF true up).2
def s1 : State := enqueue (acc .read 40 g0) (enqueue (acc .read 41 g0 2) (enqueue (acc .read 2 g0 0) withW))
def s4 : State := withW.setGroup 1 { withW.group 1 with sweep := true }
def s5 : State := takeLease 0 1 withW
def rd : State := { s1 with arb := { s1.arb with granted := [⟨7, .core (.seq 0) 5, g0, .ok 0x55556666 true⟩] } }
def flt (tok : Nat) (k : FKind) : Flight := { tok := tok, kind := k, addr := 0x10000009, cap := capOf 0x10000000 64 3, regs := { Regs.init with pc := 0xFE }, bank := bank [1,2] [], fail := none, done := false, got := none, young := 0, since := 0 }
def opn (s : State) (k : Flight) : State := withCore (.seq 0) (fun c => { c with flight := [k], tok := 7 }) s
def rd1 : State := opn (withCtx (fun x => { x with bank := bank [1,2,3] [] }) rd) (flt 5 (.load 1 2))
def scr1 : State := let s := opn up (flt 5 .store); { s with scr := { s.scr with reqs := [⟨9, .seq 0, 5, 17, .write 0xABCDEF0123456789 0x0F3C true⟩] } }
def stW : State := opn (enqueue (acc (.write 0xABCDEF0123456789 0xFFFF true) 2 g0 0) up) (flt 5 .store)
def scrL : State := let s := opn (run [1,2,3]) (flt 5 (.load 1 2)); { s with scr := { s.scr with reqs := [⟨9, .seq 0, 5, 17, .read⟩] } }
def eccs : State := (up.setFld SMEM_CFG_SCRUB_EN 1).setFld SMEM_CFG_SCRUB_SHIFT 3
def e1 : State := { eccs with mem := { eccs.mem with scrubIn := 0, scrubRow := 7, ecc := [(4608*3+7, some .single)], tags := [(4608*3+7, true)], bytes := [(16*(4608*3+7), 8)] } }
def e2 : State := { withW.setFld SMEM_CFG_INIT 1 with mem := { e1.mem with init := some 0 } }

def ws0 : State := withW.setFld EPC_STAT_FROZEN 1

/-- States and operands that meet the hypotheses of the clauses of `WritesAndFlips`. -/
theorem witness_WritesAndFlips :
    (∃ (s : State) (g : Nat) (e : Entry), (s.group g).opens = 0 ∧ (s.group g).sweep = false ∧ (s.group g).deferred = false ∧ s.leased g = false ∧ e.group.toNat = g ∧ s.estate e = EState.work) ∧
    (∃ (s : State) (g : Nat) (j : Nat), (s.group g).opens = 0 ∧ (s.group g).sweep = false ∧ (s.group g).deferred = false ∧ s.leased g = false ∧ j ≠ g) ∧
    (∃ (s : State) (g : Nat), (s.group g).opens = 0 ∧ (s.group g).sweep = false ∧ (s.group g).deferred = false ∧ s.leased g = true) ∧
    (∃ (s : State) (g : Nat), ((s.group g).opens ≠ 0 ∨ (s.group g).sweep = true)) :=
  ⟨⟨up, 1, (withW.entry (512 * 5)), by decide +kernel⟩,
   ⟨up, 300, 80, by decide +kernel⟩,
   ⟨s5, 1, by decide +kernel⟩,
   ⟨s4, 1, by decide +kernel⟩⟩

/-- States and operands that meet the hypotheses of the clauses of `ArbiterGrants`. -/
theorem witness_ArbiterGrants :
    (∃ (s : State) (b : Nat) (us : List Upset), b < 127 * s.build.slices ∧ s.islandOn (17 + b / 127) = true ∧ s.mem.init = none ∧ s.winner b = none) ∧
    (∃ (s : State) (b : Nat) (w : Req), b < 127 * s.build.slices ∧ s.islandOn (17 + b / 127) = true ∧ s.mem.init = none ∧ s.winner b = some w ∧ bankOf s.build w.acc.gran = b ∧ w.acc.kind = Kind.read ∧ w.pre = none ∧ ((∃ c tok, w.acc.dest = Dest.core c tok) ∨ (∃ t i j, w.acc.dest = Dest.npxRd t i j) ∨ ∃ p e i, w.acc.dest = Dest.podLd p e i) ∧ s.rowEcc (s.rowKey b (s.readRowOf w.acc.view w.acc.group.toNat b (homeOf s.build w.acc.gran))) = none ∧ Tbl.get none (s.rowKey b (s.readRowOf w.acc.view w.acc.group.toNat b (homeOf s.build w.acc.gran))) s.mem.odd = none) ∧
    (∃ (s : State) (b : Nat) (w : Req) (c : CoreId) (tok : Nat) (d : Gran) (tag : Bool) (f : Flight) (us : List Upset) (k : Nat), b < 127 * s.build.slices ∧ s.islandOn (17 + b / 127) = true ∧ s.mem.init = none ∧ s.winner b = some w ∧ bankOf s.build w.acc.gran = b ∧ w.acc.kind = Kind.write d 65535 tag ∧ w.acc.view = 0 ∧ w.acc.dest = Dest.core c tok ∧ s.on EPC_STAT_FROZEN = false ∧ s.entryFor b (homeOf s.build w.acc.gran) = none ∧ (s.core c).flight = [f] ∧ f.tok = tok ∧ f.kind = FKind.store ∧ f.fail = none ∧ f.done = false ∧ k ≠ s.rowKey b (s.homeRow b (homeOf s.build w.acc.gran))) ∧
    (∃ (s : State) (g : Granted) (c : CoreId) (tok : Nat) (p : Nat) (n : Nat) (f : Flight) (d : Gran) (tag : Bool) (v : View) (j : Nat), s.crp.live = true ∧ s.fld CRP_PWR_STAT_STATE = 1 ∧ List.find? (fun x ↦ decide (x.id = g.id)) s.arb.granted = some g ∧ g.dest = Dest.core c tok ∧ g.res = MemRes.ok d tag ∧ s.view c = some v ∧ (s.core c).flight = [f] ∧ f.tok = tok ∧ f.kind = FKind.load p n ∧ f.fail = none ∧ f.done = false ∧ j < n) ∧
    (∃ (s : State) (r : ScrReq) (f : Flight) (v : View) (us : List Upset) (d : Gran) (be : BitVec 16) (tag : Bool), s.crp.live = true ∧ s.coreOff r.core = false ∧ List.find? (fun x ↦ decide (x.id = r.id)) s.scr.reqs = some r ∧ (∀ (x : ScrReq), x ∈ s.scr.reqs → x.id < r.id → x.core = r.core → x.gran ≠ r.gran) ∧ s.view r.core = some v ∧ (s.core r.core).flight = [f] ∧ f.tok = r.tok ∧ f.fail = none ∧ f.done = false ∧ r.kind = Kind.write d be tag ∧ f.kind = FKind.store) ∧
    (∃ (s : State) (r : ScrReq) (f : Flight) (v : View) (us : List Upset) (p : Nat) (n : Nat) (j : Nat), s.crp.live = true ∧ s.coreOff r.core = false ∧ List.find? (fun x ↦ decide (x.id = r.id)) s.scr.reqs = some r ∧ (∀ (x : ScrReq), x ∈ s.scr.reqs → x.id < r.id → x.core = r.core → x.gran ≠ r.gran) ∧ s.view r.core = some v ∧ (s.core r.core).flight = [f] ∧ f.tok = r.tok ∧ f.fail = none ∧ f.done = false ∧ r.kind = Kind.read ∧ f.kind = FKind.load p n ∧ j < n) ∧
    (∃ (s : State) (r : ScrReq) (f : Flight) (v : View) (us : List Upset) (p : Nat) (n : Nat) (j : Nat), s.crp.live = true ∧ s.coreOff r.core = false ∧ List.find? (fun x ↦ decide (x.id = r.id)) s.scr.reqs = some r ∧ (∀ (x : ScrReq), x ∈ s.scr.reqs → x.id < r.id → x.core = r.core → x.gran ≠ r.gran) ∧ s.view r.core = some v ∧ (s.core r.core).flight = [f] ∧ f.tok = r.tok ∧ f.fail = none ∧ f.done = false ∧ r.kind = Kind.read ∧ f.kind = FKind.load p n ∧ (j < p ∨ p + n ≤ j)) :=
  ⟨⟨up, 300, [], by decide +kernel⟩,
   ⟨s1, 5, (Option.get (s1.winner 5) (by decide +kernel)), by
     and_intros <;> first | decide +kernel | exact Or.inl ⟨CoreId.seq 0, 5, by decide +kernel⟩⟩,
   ⟨stW, 5, (Option.get (stW.winner 5) (by decide +kernel)), (CoreId.seq 0), 5, 12379813738877118345, true, (flt 5 FKind.store), [], 300, by decide +kernel⟩,
   ⟨rd1, ({ id := 7, dest := Dest.core (CoreId.seq 0) 5, gran := g0, res := MemRes.ok 1431660134 true }), (CoreId.seq 0), 5, 1, 2, (flt 5 (FKind.load 1 2)), 1431660134, true, (Option.get (rd1.view (CoreId.seq 0)) (by decide +kernel)), 1, by decide +kernel⟩,
   ⟨scr1, ({ id := 9, core := CoreId.seq 0, tok := 5, addr := 17, kind := Kind.write 12379813738877118345 3900 true }), (flt 5 FKind.store), (Option.get (scr1.view ({ id := 9, core := CoreId.seq 0, tok := 5, addr := 17, kind := Kind.write 12379813738877118345 3900 true } : ScrReq).core) (by decide +kernel)), [], 12379813738877118345, 3900, true, by decide +kernel⟩,
   ⟨scrL, ({ id := 9, core := CoreId.seq 0, tok := 5, addr := 17, kind := Kind.read }), (flt 5 (FKind.load 1 2)), (Option.get (scrL.view ({ id := 9, core := CoreId.seq 0, tok := 5, addr := 17, kind := Kind.read } : ScrReq).core) (by decide +kernel)), [], 1, 2, 1, by decide +kernel⟩,
   ⟨scrL, ({ id := 9, core := CoreId.seq 0, tok := 5, addr := 17, kind := Kind.read }), (flt 5 (FKind.load 1 2)), (Option.get (scrL.view ({ id := 9, core := CoreId.seq 0, tok := 5, addr := 17, kind := Kind.read } : ScrReq).core) (by decide +kernel)), [], 1, 2, 300, by decide +kernel⟩⟩

/-- States and operands that meet the hypotheses of the clauses of `ScrubAndInitialise`. -/
theorem witness_ScrubAndInitialise :
    (∃ (s : State) (us : List Upset), s.crp.live = true ∧ s.fld CRP_PWR_STAT_STATE = 1 ∧ s.on SMEM_CFG_SCRUB_EN = true ∧ s.mem.scrubIn = 0 ∧ s.mem.init = none) ∧
    (∃ (s : State) (k : Nat), s.crp.live = true ∧ s.fld CRP_PWR_STAT_STATE = 1 ∧ s.on SMEM_CFG_SCRUB_EN = true ∧ s.mem.scrubIn = 0 ∧ s.mem.init = none ∧ s.arb.reqs = [] ∧ s.mem.odd = [] ∧ s.mem.ecc = [(k, some Ecc.single)] ∧ k % 4608 = s.mem.scrubRow) ∧
    (∃ (s : State) (o : Nat), s.crp.live = true ∧ s.fld CRP_PWR_STAT_STATE = 1 ∧ s.mem.init.isSome = true ∧ o ≠ SMEM_CFG) ∧
    (∃ (s : State) (a : Agent), s.writes a SMEM_CFG ∧ s.mem.init = none ∧ s.on EPC_STAT_FROZEN = false) ∧
    (∃ (s : State) (a : Agent), s.writes a SMEM_CFG ∧ s.mem.init = none ∧ s.on EPC_STAT_FROZEN = true) :=
  ⟨⟨e1, [], by decide +kernel⟩,
   ⟨e1, (4608 * 3 + 7), by decide +kernel⟩,
   ⟨e2, 7, by decide +kernel⟩,
   ⟨up, (Agent.core (CoreId.seq 0)), by and_intros <;> first | decide +kernel | (unfold State.allows; decide +kernel) | (intro c h; cases h <;> decide +kernel)⟩,
   ⟨ws0, (Agent.core (CoreId.seq 0)), by and_intros <;> first | decide +kernel | (unfold State.allows; decide +kernel) | (intro c h; cases h <;> decide +kernel)⟩⟩

end WritesAndFlips

namespace CapabilityRegisters

def sk (perm : Nat) (k : Nat) (o : Nat := 3) (ot : Nat := 0) : Cap := { bits := BitVec.ofNat 128 ((capBits 0x1000 64 perm 5 2 ot o 0).toNat + k * 2^118), tag := true }
def cl : List Cap := [sk 0xFF 9, sk 0xC3 9 3 9, { sk 0xFF 9 with tag := false }, sk 3 0, sk 0xFF 0, sk 0xFF 9 (600*512), { bits := capBits 0x1000 64 0x43 5 1 0 3 0, tag := true }, sk 0xC3 7]
def st (l : List Word) : State := withCtx (fun x => { x with caps := caps8 cl }) (run l [])


/-- States and operands that meet the hypotheses of the clauses of `CapabilityRegisters`. -/
theorem witness_CapabilityRegisters :
    (∃ (s : State) (c : CoreId) (v : View) (a : BitVec 3) (b : BitVec 3), s.still c v ∧ v.bounded ∧ ((s.core c).level = 12 → (s.liveKey c).isSome = true) ∧ s.takes c v 5 0 0 0 ∧ (¬((s.capReg c b.toNat).tag = true ∧ (s.capReg c b.toNat).owner / 512 < s.build.lss))) ∧
    (∃ (s : State) (c : CoreId) (v : View) (a : BitVec 3) (b : BitVec 3), s.still c v ∧ v.bounded ∧ ((s.core c).level = 12 → (s.liveKey c).isSome = true) ∧ s.takes c v 5 0 0 0 ∧ (s.capReg c b.toNat).tag = true ∧ (s.capReg c b.toNat).owner / 512 < s.build.lss ∧ (s.capReg c b.toNat).otype ≠ 0) ∧
    (∃ (s : State) (c : CoreId) (v : View) (a : BitVec 3) (b : BitVec 3), s.still c v ∧ v.bounded ∧ ((s.core c).level = 12 → (s.liveKey c).isSome = true) ∧ s.takes c v 5 0 0 0 ∧ (s.capReg c b.toNat).tag = true ∧ (s.capReg c b.toNat).owner / 512 < s.build.lss ∧ (s.capReg c b.toNat).otype = 0 ∧ (s.capReg c b.toNat).perm / 64 % 2 = 0) ∧
    (∃ (s : State) (c : CoreId) (v : View) (a : BitVec 3) (b : BitVec 3), s.still c v ∧ v.bounded ∧ ((s.core c).level = 12 → (s.liveKey c).isSome = true) ∧ s.takes c v 5 0 0 0 ∧ (s.capReg c b.toNat).tag = true ∧ (s.capReg c b.toNat).owner / 512 < s.build.lss ∧ (s.capReg c b.toNat).otype = 0 ∧ (s.capReg c b.toNat).perm / 64 % 2 = 1 ∧ (s.capReg c b.toNat).length < BitVec.toNat (v.cell 4) + 65536 * BitVec.toNat (v.cell 3) + (BitVec.toNat (v.cell 2) + 65536 * BitVec.toNat (v.cell 1))) ∧
    (∃ (s : State) (c : CoreId) (v : View) (a : BitVec 3) (b : BitVec 3), s.still c v ∧ v.bounded ∧ ((s.core c).level = 12 → (s.liveKey c).isSome = true) ∧ s.takes c v 5 0 0 0 ∧ (s.capReg c b.toNat).tag = true ∧ (s.capReg c b.toNat).owner / 512 < s.build.lss ∧ (s.capReg c b.toNat).otype = 0 ∧ (s.capReg c b.toNat).perm / 64 % 2 = 1 ∧ BitVec.toNat (v.cell 4) + 65536 * BitVec.toNat (v.cell 3) + (BitVec.toNat (v.cell 2) + 65536 * BitVec.toNat (v.cell 1)) ≤ (s.capReg c b.toNat).length ∧ ∃ k, (BitVec.toNat (v.cell 0)).testBit k = true ∧ (s.capReg c b.toNat).perm.testBit k = false) ∧
    (∃ (s : State) (c : CoreId) (v : View) (a : BitVec 3) (b : BitVec 3), s.still c v ∧ v.bounded ∧ ((s.core c).level = 12 → (s.liveKey c).isSome = true) ∧ s.takes c v 5 0 0 0 ∧ (s.capReg c b.toNat).tag = true ∧ (s.capReg c b.toNat).owner / 512 < s.build.lss ∧ (s.capReg c b.toNat).otype = 0 ∧ (s.capReg c b.toNat).perm / 64 % 2 = 1 ∧ BitVec.toNat (v.cell 4) + 65536 * BitVec.toNat (v.cell 3) + (BitVec.toNat (v.cell 2) + 65536 * BitVec.toNat (v.cell 1)) ≤ (s.capReg c b.toNat).length ∧ (∀ (k : Nat), (BitVec.toNat (v.cell 0)).testBit k = true → (s.capReg c b.toNat).perm.testBit k = true)) ∧
    (∃ (s : State) (c : CoreId) (v : View) (a : BitVec 3) (b : BitVec 3), s.still c v ∧ v.bounded ∧ ((s.core c).level = 12 → (s.liveKey c).isSome = true) ∧ (¬((s.capReg c b.toNat).tag = true ∧ (s.capReg c b.toNat).owner / 512 < s.build.lss))) ∧
    (∃ (s : State) (c : CoreId) (v : View) (a : BitVec 3) (b : BitVec 3), s.still c v ∧ v.bounded ∧ ((s.core c).level = 12 → (s.liveKey c).isSome = true) ∧ (s.capReg c b.toNat).tag = true ∧ (s.capReg c b.toNat).owner / 512 < s.build.lss ∧ (s.capReg c b.toNat).otype ≠ 0) ∧
    (∃ (s : State) (c : CoreId) (v : View) (a : BitVec 3) (b : BitVec 3), s.still c v ∧ v.bounded ∧ ((s.core c).level = 12 → (s.liveKey c).isSome = true) ∧ (s.capReg c b.toNat).tag = true ∧ (s.capReg c b.toNat).owner / 512 < s.build.lss ∧ (s.capReg c b.toNat).otype = 0 ∧ ((s.capReg c b.toNat).perm.testBit 7 = false ∨ (s.capReg c b.toNat).skey = 0)) ∧
    (∃ (s : State) (c : CoreId) (v : View) (a : BitVec 3) (b : BitVec 3), s.still c v ∧ v.bounded ∧ ((s.core c).level = 12 → (s.liveKey c).isSome = true) ∧ ((s.capReg c b.toNat).tag = true ∧ (s.capReg c b.toNat).owner / 512 < s.build.lss) ∧ (s.capReg c b.toNat).otype = 0 ∧ (s.capReg c b.toNat).perm.testBit 7 = true ∧ (s.capReg c b.toNat).skey ≠ 0 ∧ (¬((s.capReg c a.toNat).tag = true ∧ (s.capReg c a.toNat).owner / 512 < s.build.lss))) ∧
    (∃ (s : State) (c : CoreId) (v : View) (a : BitVec 3) (b : BitVec 3), s.still c v ∧ v.bounded ∧ ((s.core c).level = 12 → (s.liveKey c).isSome = true) ∧ ((s.capReg c b.toNat).tag = true ∧ (s.capReg c b.toNat).owner / 512 < s.build.lss) ∧ (s.capReg c b.toNat).otype = 0 ∧ (s.capReg c b.toNat).perm.testBit 7 = true ∧ (s.capReg c b.toNat).skey ≠ 0 ∧ (s.capReg c a.toNat).tag = true ∧ (s.capReg c a.toNat).owner / 512 < s.build.lss ∧ (s.capReg c a.toNat).otype ≠ 0) ∧
    (∃ (s : State) (c : CoreId) (v : View) (a : BitVec 3) (b : BitVec 3), s.still c v ∧ v.bounded ∧ ((s.core c).level = 12 → (s.liveKey c).isSome = true) ∧ ((s.capReg c b.toNat).tag = true ∧ (s.capReg c b.toNat).owner / 512 < s.build.lss) ∧ (s.capReg c b.toNat).otype = 0 ∧ (s.capReg c b.toNat).perm.testBit 7 = true ∧ (s.capReg c b.toNat).skey ≠ 0 ∧ (s.capReg c a.toNat).tag = true ∧ (s.capReg c a.toNat).owner / 512 < s.build.lss ∧ (s.capReg c a.toNat).otype = 0) ∧
    (∃ (s : State) (c : CoreId) (v : View) (a : BitVec 3) (b : BitVec 3), s.still c v ∧ v.bounded ∧ ((s.core c).level = 12 → (s.liveKey c).isSome = true) ∧ ((s.capReg c b.toNat).tag = true ∧ (s.capReg c b.toNat).owner / 512 < s.build.lss) ∧ (s.capReg c b.toNat).otype = 0 ∧ (s.capReg c b.toNat).perm.testBit 7 = true ∧ (s.capReg c b.toNat).skey ≠ 0 ∧ (s.capReg c a.toNat).tag = true ∧ (s.capReg c a.toNat).owner / 512 < s.build.lss ∧ ((s.capReg c a.toNat).otype = 0 ∨ (s.capReg c a.toNat).otype ≠ (s.capReg c b.toNat).skey)) ∧
    (∃ (s : State) (c : CoreId) (v : View) (a : BitVec 3) (b : BitVec 3), s.still c v ∧ v.bounded ∧ ((s.core c).level = 12 → (s.liveKey c).isSome = true) ∧ ((s.capReg c b.toNat).tag = true ∧ (s.capReg c b.toNat).owner / 512 < s.build.lss) ∧ (s.capReg c b.toNat).otype = 0 ∧ (s.capReg c b.toNat).perm.testBit 7 = true ∧ (s.capReg c b.toNat).skey ≠ 0 ∧ (s.capReg c a.toNat).tag = true ∧ (s.capReg c a.toNat).owner / 512 < s.build.lss ∧ (s.capReg c a.toNat).otype = (s.capReg c b.toNat).skey) ∧
    (∃ (s : State) (c : CoreId) (v : View) (a : BitVec 3) (b : BitVec 3), s.still c v ∧ v.bounded ∧ ((s.core c).level = 12 → (s.liveKey c).isSome = true) ∧ (¬((s.capReg c a.toNat).tag = true ∧ (s.capReg c a.toNat).owner / 512 < s.build.lss))) ∧
    (∃ (s : State) (c : CoreId) (v : View) (a : BitVec 3) (b : BitVec 3), s.still c v ∧ v.bounded ∧ ((s.core c).level = 12 → (s.liveKey c).isSome = true) ∧ (s.capReg c a.toNat).tag = true ∧ (s.capReg c a.toNat).owner / 512 < s.build.lss ∧ (s.capReg c a.toNat).otype ≠ 0) ∧
    (∃ (s : State) (c : CoreId) (v : View) (a : BitVec 3) (b : BitVec 3), s.still c v ∧ v.bounded ∧ ((s.core c).level = 12 → (s.liveKey c).isSome = true) ∧ (s.capReg c a.toNat).tag = true ∧ (s.capReg c a.toNat).owner / 512 < s.build.lss ∧ (s.capReg c a.toNat).otype = 0 ∧ (s.capReg c a.toNat).view ≠ 2) ∧
    (∃ (s : State) (c : CoreId) (v : View) (a : BitVec 3) (b : BitVec 3), s.still c v ∧ v.bounded ∧ ((s.core c).level = 12 → (s.liveKey c).isSome = true) ∧ (s.capReg c a.toNat).tag = true ∧ (s.capReg c a.toNat).owner / 512 < s.build.lss ∧ (s.capReg c a.toNat).otype = 0 ∧ (s.capReg c a.toNat).view = 2) ∧
    (∃ (s : State) (c : CoreId) (v : View) (r : BitVec 3), s.ready c v ∧ s.noRep c v ∧ s.takes c v 0 3 0 0) ∧
    (∃ (s : State) (c : CoreId) (v : View) (r : BitVec 3), s.ready c v ∧ s.noRep c v ∧ s.takes c v 0 2 0 0) ∧
    (∃ (s : State) (c : CoreId) (v : View) (r : BitVec 3), s.ready c v ∧ s.noRep c v ∧ s.takes c v 0 1 0 0) :=
  ⟨⟨(st [1, 2, 0, 3, 0, 8]), (CoreId.seq 0), (Option.get ((st [1, 2, 0, 3, 0, 8]).view (CoreId.seq 0)) (by decide +kernel)), 7, 2, by unfold State.still State.ready State.noRep View.bounded State.takes; decide +kernel⟩,
   ⟨(st [1, 2, 0, 3, 0, 8]), (CoreId.seq 0), (Option.get ((st [1, 2, 0, 3, 0, 8]).view (CoreId.seq 0)) (by decide +kernel)), 7, 1, by unfold State.still State.ready State.noRep View.bounded State.takes; decide +kernel⟩,
   ⟨(st [1, 2, 0, 3, 0, 8]), (CoreId.seq 0), (Option.get ((st [1, 2, 0, 3, 0, 8]).view (CoreId.seq 0)) (by decide +kernel)), 7, 3, by unfold State.still State.ready State.noRep View.bounded State.takes; decide +kernel⟩,
   ⟨(st [1, 2, 0, 63, 0, 3]), (CoreId.seq 0), (Option.get ((st [1, 2, 0, 63, 0, 3]).view (CoreId.seq 0)) (by decide +kernel)), 7, 7, by unfold State.still State.ready State.noRep View.bounded State.takes; decide +kernel⟩,
   ⟨(st [1, 2, 0, 3, 0, 8]), (CoreId.seq 0), (Option.get ((st [1, 2, 0, 3, 0, 8]).view (CoreId.seq 0)) (by decide +kernel)), 7, 7, by
     unfold State.still State.ready State.noRep View.bounded State.takes
     and_intros <;> first | decide +kernel | exact ⟨3, by decide +kernel, by decide +kernel⟩⟩,
   ⟨(st [1, 2, 0, 3, 0, 8]), (CoreId.seq 0), (Option.get ((st [1, 2, 0, 3, 0, 8]).view (CoreId.seq 0)) (by decide +kernel)), 7, 5, by
     unfold State.still State.ready State.noRep View.bounded State.takes
     and_intros <;> try decide +kernel
     intro k h
     rw [BitVec.testBit_toNat] at h
     rcases Nat.lt_or_ge k 16 with h' | h'
     · exact (show ∀ k, k < 16 → BitVec.getLsbD (((Option.get ((st [1, 2, 0, 3, 0, 8]).view (CoreId.seq 0)) (by decide +kernel)) : View).cell 0) k =
         true → ((st [1, 2, 0, 3, 0, 8]).capReg (CoreId.seq 0) (5 : BitVec 3).toNat).perm.testBit k = true by decide +kernel) k h' h
     · rw [BitVec.getLsbD_of_ge _ _ h'] at h; cases h⟩,
   ⟨(st [1, 2, 0, 3, 0, 8]), (CoreId.seq 0), (Option.get ((st [1, 2, 0, 3, 0, 8]).view (CoreId.seq 0)) (by decide +kernel)), 7, 2, by unfold State.still State.ready State.noRep View.bounded; decide +kernel⟩,
   ⟨(st [1, 2, 0, 3, 0, 8]), (CoreId.seq 0), (Option.get ((st [1, 2, 0, 3, 0, 8]).view (CoreId.seq 0)) (by decide +kernel)), 7, 1, by unfold State.still State.ready State.noRep View.bounded; decide +kernel⟩,
   ⟨(st [1, 2, 0, 3, 0, 8]), (CoreId.seq 0), (Option.get ((st [1, 2, 0, 3, 0, 8]).view (CoreId.seq 0)) (by decide +kernel)), 7, 6, by unfold State.still State.ready State.noRep View.bounded; decide +kernel⟩,
   ⟨(st [1, 2, 0, 3, 0, 8]), (CoreId.seq 0), (Option.get ((st [1, 2, 0, 3, 0, 8]).view (CoreId.seq 0)) (by decide +kernel)), 2, 7, by unfold State.still State.ready State.noRep View.bounded; decide +kernel⟩,
   ⟨(st [1, 2, 0, 3, 0, 8]), (CoreId.seq 0), (Option.get ((st [1, 2, 0, 3, 0, 8]).view (CoreId.seq 0)) (by decide +kernel)), 1, 7, by unfold State.still State.ready State.noRep View.bounded; decide +kernel⟩,
   ⟨(st [1, 2, 0, 3, 0, 8]), (CoreId.seq 0), (Option.get ((st [1, 2, 0, 3, 0, 8]).view (CoreId.seq 0)) (by decide +kernel)), 7, 7, by unfold State.still State.ready State.noRep View.bounded; decide +kernel⟩,
   ⟨(st [1, 2, 0, 3, 0, 8]), (CoreId.seq 0), (Option.get ((st [1, 2, 0, 3, 0, 8]).view (CoreId.seq 0)) (by decide +kernel)), 7, 7, by unfold State.still State.ready State.noRep View.bounded; decide +kernel⟩,
   ⟨(st [1, 2, 0, 3, 0, 8]), (CoreId.seq 0), (Option.get ((st [1, 2, 0, 3, 0, 8]).view (CoreId.seq 0)) (by decide +kernel)), 1, 5, by unfold State.still State.ready State.noRep View.bounded; decide +kernel⟩,
   ⟨(st [1, 2, 0, 3, 0, 8]), (CoreId.seq 0), (Option.get ((st [1, 2, 0, 3, 0, 8]).view (CoreId.seq 0)) (by decide +kernel)), 2, 7, by unfold State.still State.ready State.noRep View.bounded; decide +kernel⟩,
   ⟨(st [1, 2, 0, 3, 0, 8]), (CoreId.seq 0), (Option.get ((st [1, 2, 0, 3, 0, 8]).view (CoreId.seq 0)) (by decide +kernel)), 1, 7, by unfold State.still State.ready State.noRep View.bounded; decide +kernel⟩,
   ⟨(st [1, 2, 0, 3, 0, 8]), (CoreId.seq 0), (Option.get ((st [1, 2, 0, 3, 0, 8]).view (CoreId.seq 0)) (by decide +kernel)), 6, 7, by unfold State.still State.ready State.noRep View.bounded; decide +kernel⟩,
   ⟨(st [1, 2, 0, 3, 0, 8]), (CoreId.seq 0), (Option.get ((st [1, 2, 0, 3, 0, 8]).view (CoreId.seq 0)) (by decide +kernel)), 7, 7, by unfold State.still State.ready State.noRep View.bounded; decide +kernel⟩,
   ⟨(st [1, 2, 0, 3, 0, 8]), (CoreId.seq 0), (Option.get ((st [1, 2, 0, 3, 0, 8]).view (CoreId.seq 0)) (by decide +kernel)), 7, by unfold State.ready State.noRep State.takes; decide +kernel⟩,
   ⟨(st [1, 2, 0, 3, 0, 8]), (CoreId.seq 0), (Option.get ((st [1, 2, 0, 3, 0, 8]).view (CoreId.seq 0)) (by decide +kernel)), 7, by unfold State.ready State.noRep State.takes; decide +kernel⟩,
   ⟨(st [1, 2, 0, 3, 0, 8]), (CoreId.seq 0), (Option.get ((st [1, 2, 0, 3, 0, 8]).view (CoreId.seq 0)) (by decide +kernel)), 7, by unfold State.ready State.noRep State.takes; decide +kernel⟩⟩

end CapabilityRegisters

namespace VectorAndSpillInstructions

def tk (st : TicketState) (w : Word) : Ticket := { st := st, status := w, prog := 0xFFFFFFFFFFFFFFFFFFFFFFFFFFFFFFFF0000000 }
def tks (s : State) : State := { s with alloc := { s.alloc with tickets := [(5, some (tk .queued 0)), (6, some (tk .running 0)), (7, some (tk .ended 0x0005)), (8, some (tk .ended 0x0085)), (9, some (tk .ended 0x0105))] } }
def vst (l : List Word) : State := tks (withCtx (fun x => { x with vpr := 0x123456789ABCDEF0123456789ABCDEF0123456789ABCDEF }) (run l []))
def hv (l : List Word) : State := tks (handler (.seq 0) 3 l)
def segCap (len : Nat) (perm : Nat := 0xF) : Cap := capOf 0x10000010 len perm
def scrFill (s : State) : State := s
def sp (need : Need) (l : List Word) (r : List PC) (osc rsc len : Nat) (s0 : State := up) : State :=
  withCore (.seq 0) (fun k => { k with need := some need }) (scrFill (s0.setCtxAt 3 { s0.ctxAt 3 with bank := bank l r, osc := BitVec.ofNat 16 osc, rsc := BitVec.ofNat 16 rsc, caps := Tbl.set Cap.null 7 (segCap len) (s0.ctxAt 3).caps }))
def bigl : List Word := (List.range 32).map (fun i => BitVec.ofNat 16 (i*7+1))
def bigr : List PC := (List.range 32).map (fun i => BitVec.ofNat 22 (i*70001+1))
def big (s : State) : State := (List.range 12).foldl (fun s i => s.setScr (scrGranOfWord 0x10000000 + i) (BitVec.ofNat 128 (0x00410001003F00020040000300030004+i)) 0xFFFF true) s

def ws0 : State := up.setCtxAt 16385 { (up.ctxAt 16385) with bank := bank [7, 8, 9] [] }
def ws1 : State := big (sp Need.fillRets [1] [9] 0 1 64)
def ws2 : State := sp Need.spillOps bigl [] 0 0 64
def ws3 : State := sp Need.spillRets [] bigr 8 0 16
def ws4 : State := sp Need.fillOps [5, 6] [1] 4 0 40
def ws5 : State := sp Need.fillRets [1] [9] 0 3 64
def ws6 : State := sp Need.spillOps bigl [1] 8 4 22
def ws7 : State := sp Need.spillRets [] bigr 10 0 16

/-- States and operands that meet the hypotheses of the clauses of `VectorAndSpillInstructions`. -/
theorem witness_VectorAndSpillInstructions :
    (∃ (s : State) (c : CoreId) (v : View) (r : BitVec 3), s.still c v ∧ v.bounded ∧ c ≠ CoreId.moth ∧ s.takes c v 2 1 0 0 ∧ s.vecKey c = none) ∧
    (∃ (s : State) (c : CoreId) (v : View) (r : BitVec 3) (k : Nat), s.still c v ∧ v.bounded ∧ c ≠ CoreId.moth ∧ s.takes c v 2 1 0 0 ∧ s.vecKey c = some k) ∧
    (∃ (s : State) (c : CoreId) (v : View), s.still c v ∧ v.bounded ∧ c ≠ CoreId.moth ∧ s.takes c v 0 1 0 0 ∧ s.vecKey c = none) ∧
    (∃ (s : State) (c : CoreId) (v : View) (k : Nat), s.still c v ∧ v.bounded ∧ c ≠ CoreId.moth ∧ s.takes c v 0 1 0 0 ∧ s.vecKey c = some k) ∧
    (∃ (s : State) (c : CoreId) (v : View), s.still c v ∧ v.bounded ∧ c ≠ CoreId.moth ∧ s.takes c v 1 1 0 0 ∧ s.vecKey c = none) ∧
    (∃ (s : State) (c : CoreId) (v : View), s.still c v ∧ v.bounded ∧ c ≠ CoreId.moth ∧ s.takes c v 2 0 0 0 ∧ s.vecKey c = none) ∧
    (∃ (s : State) (c : CoreId) (v : View) (k : Nat) (n : Nat) (ls : Nat), s.still c v ∧ v.bounded ∧ c ≠ CoreId.moth ∧ s.vecKey c = some k ∧ c = CoreId.seq n ∧ s.lsOfSeq n = some ls ∧ s.takes c v 1 1 0 0 ∧ ((if v.cell 0 = 0 ∨ 255 < BitVec.toNat (v.cell 0) then none else s.ticket ls (BitVec.toNat (v.cell 0))) = none)) ∧
    (∃ (s : State) (c : CoreId) (v : View) (k : Nat) (n : Nat) (ls : Nat) (x : Ticket), s.still c v ∧ v.bounded ∧ c ≠ CoreId.moth ∧ s.vecKey c = some k ∧ c = CoreId.seq n ∧ s.lsOfSeq n = some ls ∧ s.takes c v 1 1 0 0 ∧ ((if v.cell 0 = 0 ∨ 255 < BitVec.toNat (v.cell 0) then none else s.ticket ls (BitVec.toNat (v.cell 0))) = some x)) ∧
    (∃ (s : State) (c : CoreId) (v : View) (k : Nat) (n : Nat) (ls : Nat) (x : Ticket), s.still c v ∧ v.bounded ∧ c ≠ CoreId.moth ∧ s.vecKey c = some k ∧ c = CoreId.seq n ∧ s.lsOfSeq n = some ls ∧ s.takes c v 1 1 0 0 ∧ ((if v.cell 0 = 0 ∨ 255 < BitVec.toNat (v.cell 0) then none else s.ticket ls (BitVec.toNat (v.cell 0))) = some x) ∧ x.st = TicketState.ended ∧ BitVec.getLsbD x.status 8 = false) ∧
    (∃ (s : State) (c : CoreId) (v : View) (k : Nat) (n : Nat) (ls : Nat) (x : Ticket), s.still c v ∧ v.bounded ∧ c ≠ CoreId.moth ∧ s.vecKey c = some k ∧ c = CoreId.seq n ∧ s.lsOfSeq n = some ls ∧ s.takes c v 1 1 0 0 ∧ ((if v.cell 0 = 0 ∨ 255 < BitVec.toNat (v.cell 0) then none else s.ticket ls (BitVec.toNat (v.cell 0))) = some x) ∧ x.st ≠ TicketState.ended ∧ (s.core c).level = 0 ∧ (s.ctxAt k).parkRq = false) ∧
    (∃ (s : State) (c : CoreId) (v : View) (k : Nat) (n : Nat) (ls : Nat) (x : Ticket), s.still c v ∧ v.bounded ∧ c ≠ CoreId.moth ∧ s.vecKey c = some k ∧ c = CoreId.seq n ∧ s.lsOfSeq n = some ls ∧ s.takes c v 1 1 0 0 ∧ ((if v.cell 0 = 0 ∨ 255 < BitVec.toNat (v.cell 0) then none else s.ticket ls (BitVec.toNat (v.cell 0))) = some x) ∧ x.st ≠ TicketState.ended ∧ (s.core c).level ≠ 0) ∧
    (∃ (s : State) (c : CoreId) (v : View) (k : Nat) (n : Nat) (ls : Nat), s.still c v ∧ v.bounded ∧ c ≠ CoreId.moth ∧ s.vecKey c = some k ∧ c = CoreId.seq n ∧ s.lsOfSeq n = some ls ∧ s.takes c v 2 0 0 0) ∧
    (∃ (s : State) (c : CoreId) (key : Nat) (us : List Upset) (k : Nat), s.runs ∧ coreBuilt s.build c = true ∧ s.liveKey c = some key ∧ (s.ctxAt key).state = CtxState.running ∧ (Tbl.get Cap.null 7 (s.ctxAt key).caps).tag = true ∧ (Tbl.get Cap.null 7 (s.ctxAt key).caps).owner / 512 < s.build.lss ∧ (Tbl.get Cap.null 7 (s.ctxAt key).caps).otype = 0 ∧ (Tbl.get Cap.null 7 (s.ctxAt key).caps).perm % 4 = 3 ∧ c ≠ CoreId.moth ∧ 0 < (Tbl.get Cap.null 7 (s.ctxAt key).caps).length ∧ 268435456 ≤ (Tbl.get Cap.null 7 (s.ctxAt key).caps).base ∧ (Tbl.get Cap.null 7 (s.ctxAt key).caps).base + (Tbl.get Cap.null 7 (s.ctxAt key).caps).length ≤ 268435456 + s.build.lss * 65536 ∧ (Tbl.get Cap.null 7 (s.ctxAt key).caps).base % 2 = 0 ∧ (Tbl.get Cap.null 7 (s.ctxAt key).caps).length % 2 = 0 ∧ BitVec.toNat (s.ctxAt key).osc % 2 = 0 ∧ (s.core c).level = 0 ∧ s.capReg c 7 = Tbl.get Cap.null 7 (s.ctxAt key).caps ∧ (s.core c).sb0 = Bank.init ∧ (s.core c).need = some Need.spillOps ∧ BitVec.toNat (s.ctxAt key).osc + 8 + 2 * BitVec.toNat (s.ctxAt key).rsc ≤ (Tbl.get Cap.null 7 (s.ctxAt key).caps).length ∧ k ≠ key ∧ (s.ctxAt k).state ≠ CtxState.wait) ∧
    (∃ (s : State) (c : CoreId) (key : Nat) (us : List Upset) (i : Nat), s.runs ∧ coreBuilt s.build c = true ∧ s.liveKey c = some key ∧ (s.ctxAt key).state = CtxState.running ∧ (Tbl.get Cap.null 7 (s.ctxAt key).caps).tag = true ∧ (Tbl.get Cap.null 7 (s.ctxAt key).caps).owner / 512 < s.build.lss ∧ (Tbl.get Cap.null 7 (s.ctxAt key).caps).otype = 0 ∧ (Tbl.get Cap.null 7 (s.ctxAt key).caps).perm % 4 = 3 ∧ c ≠ CoreId.moth ∧ 0 < (Tbl.get Cap.null 7 (s.ctxAt key).caps).length ∧ 268435456 ≤ (Tbl.get Cap.null 7 (s.ctxAt key).caps).base ∧ (Tbl.get Cap.null 7 (s.ctxAt key).caps).base + (Tbl.get Cap.null 7 (s.ctxAt key).caps).length ≤ 268435456 + s.build.lss * 65536 ∧ (Tbl.get Cap.null 7 (s.ctxAt key).caps).base % 2 = 0 ∧ (Tbl.get Cap.null 7 (s.ctxAt key).caps).length % 2 = 0 ∧ BitVec.toNat (s.ctxAt key).osc % 2 = 0 ∧ (s.core c).level = 0 ∧ s.capReg c 7 = Tbl.get Cap.null 7 (s.ctxAt key).caps ∧ (s.core c).sb0 = Bank.init ∧ (s.core c).need = some Need.spillOps ∧ BitVec.toNat (s.ctxAt key).osc + 8 + 2 * BitVec.toNat (s.ctxAt key).rsc ≤ (Tbl.get Cap.null 7 (s.ctxAt key).caps).length ∧ i < 8) ∧
    (∃ (s : State) (c : CoreId) (key : Nat) (us : List Upset) (w : Nat), s.runs ∧ coreBuilt s.build c = true ∧ s.liveKey c = some key ∧ (s.ctxAt key).state = CtxState.running ∧ (Tbl.get Cap.null 7 (s.ctxAt key).caps).tag = true ∧ (Tbl.get Cap.null 7 (s.ctxAt key).caps).owner / 512 < s.build.lss ∧ (Tbl.get Cap.null 7 (s.ctxAt key).caps).otype = 0 ∧ (Tbl.get Cap.null 7 (s.ctxAt key).caps).perm % 4 = 3 ∧ c ≠ CoreId.moth ∧ 0 < (Tbl.get Cap.null 7 (s.ctxAt key).caps).length ∧ 268435456 ≤ (Tbl.get Cap.null 7 (s.ctxAt key).caps).base ∧ (Tbl.get Cap.null 7 (s.ctxAt key).caps).base + (Tbl.get Cap.null 7 (s.ctxAt key).caps).length ≤ 268435456 + s.build.lss * 65536 ∧ (Tbl.get Cap.null 7 (s.ctxAt key).caps).base % 2 = 0 ∧ (Tbl.get Cap.null 7 (s.ctxAt key).caps).length % 2 = 0 ∧ BitVec.toNat (s.ctxAt key).osc % 2 = 0 ∧ (s.core c).level = 0 ∧ s.capReg c 7 = Tbl.get Cap.null 7 (s.ctxAt key).caps ∧ (s.core c).sb0 = Bank.init ∧ (s.core c).need = some Need.spillOps ∧ BitVec.toNat (s.ctxAt key).osc + 8 + 2 * BitVec.toNat (s.ctxAt key).rsc ≤ (Tbl.get Cap.null 7 (s.ctxAt key).caps).length ∧ 268435456 ≤ w ∧ (w < (Tbl.get Cap.null 7 (s.ctxAt key).caps).base + BitVec.toNat (s.ctxAt key).osc ∨ (Tbl.get Cap.null 7 (s.ctxAt key).caps).base + BitVec.toNat (s.ctxAt key).osc + 8 ≤ w)) ∧
    (∃ (s : State) (c : CoreId) (key : Nat) (us : List Upset) (k : Nat), s.runs ∧ coreBuilt s.build c = true ∧ s.liveKey c = some key ∧ (s.ctxAt key).state = CtxState.running ∧ (Tbl.get Cap.null 7 (s.ctxAt key).caps).tag = true ∧ (Tbl.get Cap.null 7 (s.ctxAt key).caps).owner / 512 < s.build.lss ∧ (Tbl.get Cap.null 7 (s.ctxAt key).caps).otype = 0 ∧ (Tbl.get Cap.null 7 (s.ctxAt key).caps).perm % 4 = 3 ∧ c ≠ CoreId.moth ∧ 0 < (Tbl.get Cap.null 7 (s.ctxAt key).caps).length ∧ 268435456 ≤ (Tbl.get Cap.null 7 (s.ctxAt key).caps).base ∧ (Tbl.get Cap.null 7 (s.ctxAt key).caps).base + (Tbl.get Cap.null 7 (s.ctxAt key).caps).length ≤ 268435456 + s.build.lss * 65536 ∧ (Tbl.get Cap.null 7 (s.ctxAt key).caps).base % 2 = 0 ∧ (Tbl.get Cap.null 7 (s.ctxAt key).caps).length % 2 = 0 ∧ BitVec.toNat (s.ctxAt key).osc % 2 = 0 ∧ (s.core c).level = 0 ∧ s.capReg c 7 = Tbl.get Cap.null 7 (s.ctxAt key).caps ∧ (s.core c).sb0 = Bank.init ∧ (s.core c).need = some Need.spillRets ∧ BitVec.toNat (s.ctxAt key).osc + 2 * (BitVec.toNat (s.ctxAt key).rsc + 4) ≤ (Tbl.get Cap.null 7 (s.ctxAt key).caps).length ∧ k ≠ key ∧ (s.ctxAt k).state ≠ CtxState.wait) ∧
    (∃ (s : State) (c : CoreId) (key : Nat) (us : List Upset) (i : Nat), s.runs ∧ coreBuilt s.build c = true ∧ s.liveKey c = some key ∧ (s.ctxAt key).state = CtxState.running ∧ (Tbl.get Cap.null 7 (s.ctxAt key).caps).tag = true ∧ (Tbl.get Cap.null 7 (s.ctxAt key).caps).owner / 512 < s.build.lss ∧ (Tbl.get Cap.null 7 (s.ctxAt key).caps).otype = 0 ∧ (Tbl.get Cap.null 7 (s.ctxAt key).caps).perm % 4 = 3 ∧ c ≠ CoreId.moth ∧ 0 < (Tbl.get Cap.null 7 (s.ctxAt key).caps).length ∧ 268435456 ≤ (Tbl.get Cap.null 7 (s.ctxAt key).caps).base ∧ (Tbl.get Cap.null 7 (s.ctxAt key).caps).base + (Tbl.get Cap.null 7 (s.ctxAt key).caps).length ≤ 268435456 + s.build.lss * 65536 ∧ (Tbl.get Cap.null 7 (s.ctxAt key).caps).base % 2 = 0 ∧ (Tbl.get Cap.null 7 (s.ctxAt key).caps).length % 2 = 0 ∧ BitVec.toNat (s.ctxAt key).osc % 2 = 0 ∧ (s.core c).level = 0 ∧ s.capReg c 7 = Tbl.get Cap.null 7 (s.ctxAt key).caps ∧ (s.core c).sb0 = Bank.init ∧ (s.core c).need = some Need.spillRets ∧ BitVec.toNat (s.ctxAt key).osc + 2 * (BitVec.toNat (s.ctxAt key).rsc + 4) ≤ (Tbl.get Cap.null 7 (s.ctxAt key).caps).length ∧ i < 4) ∧
    (∃ (s : State) (c : CoreId) (key : Nat) (us : List Upset) (k : Nat), s.runs ∧ coreBuilt s.build c = true ∧ s.liveKey c = some key ∧ (s.ctxAt key).state = CtxState.running ∧ (Tbl.get Cap.null 7 (s.ctxAt key).caps).tag = true ∧ (Tbl.get Cap.null 7 (s.ctxAt key).caps).owner / 512 < s.build.lss ∧ (Tbl.get Cap.null 7 (s.ctxAt key).caps).otype = 0 ∧ (Tbl.get Cap.null 7 (s.ctxAt key).caps).perm % 4 = 3 ∧ c ≠ CoreId.moth ∧ 0 < (Tbl.get Cap.null 7 (s.ctxAt key).caps).length ∧ 268435456 ≤ (Tbl.get Cap.null 7 (s.ctxAt key).caps).base ∧ (Tbl.get Cap.null 7 (s.ctxAt key).caps).base + (Tbl.get Cap.null 7 (s.ctxAt key).caps).length ≤ 268435456 + s.build.lss * 65536 ∧ (Tbl.get Cap.null 7 (s.ctxAt key).caps).base % 2 = 0 ∧ (Tbl.get Cap.null 7 (s.ctxAt key).caps).length % 2 = 0 ∧ BitVec.toNat (s.ctxAt key).osc % 2 = 0 ∧ (s.core c).level = 0 ∧ s.capReg c 7 = Tbl.get Cap.null 7 (s.ctxAt key).caps ∧ (s.core c).sb0 = Bank.init ∧ (s.core c).need = some Need.fillOps ∧ 0 < BitVec.toNat (s.ctxAt key).osc ∧ BitVec.toNat (s.ctxAt key).osc ≤ (Tbl.get Cap.null 7 (s.ctxAt key).caps).length ∧ k ≠ key ∧ (s.ctxAt k).state ≠ CtxState.wait) ∧
    (∃ (s : State) (c : CoreId) (key : Nat) (us : List Upset) (i : Nat), s.runs ∧ coreBuilt s.build c = true ∧ s.liveKey c = some key ∧ (s.ctxAt key).state = CtxState.running ∧ (Tbl.get Cap.null 7 (s.ctxAt key).caps).tag = true ∧ (Tbl.get Cap.null 7 (s.ctxAt key).caps).owner / 512 < s.build.lss ∧ (Tbl.get Cap.null 7 (s.ctxAt key).caps).otype = 0 ∧ (Tbl.get Cap.null 7 (s.ctxAt key).caps).perm % 4 = 3 ∧ c ≠ CoreId.moth ∧ 0 < (Tbl.get Cap.null 7 (s.ctxAt key).caps).length ∧ 268435456 ≤ (Tbl.get Cap.null 7 (s.ctxAt key).caps).base ∧ (Tbl.get Cap.null 7 (s.ctxAt key).caps).base + (Tbl.get Cap.null 7 (s.ctxAt key).caps).length ≤ 268435456 + s.build.lss * 65536 ∧ (Tbl.get Cap.null 7 (s.ctxAt key).caps).base % 2 = 0 ∧ (Tbl.get Cap.null 7 (s.ctxAt key).caps).length % 2 = 0 ∧ BitVec.toNat (s.ctxAt key).osc % 2 = 0 ∧ (s.core c).level = 0 ∧ s.capReg c 7 = Tbl.get Cap.null 7 (s.ctxAt key).caps ∧ (s.core c).sb0 = Bank.init ∧ (s.core c).need = some Need.fillOps ∧ 0 < BitVec.toNat (s.ctxAt key).osc ∧ BitVec.toNat (s.ctxAt key).osc ≤ (Tbl.get Cap.null 7 (s.ctxAt key).caps).length ∧ i < min 8 (BitVec.toNat (s.ctxAt key).osc)) ∧
    (∃ (s : State) (c : CoreId) (key : Nat) (us : List Upset) (i : Nat), s.runs ∧ coreBuilt s.build c = true ∧ s.liveKey c = some key ∧ (s.ctxAt key).state = CtxState.running ∧ (Tbl.get Cap.null 7 (s.ctxAt key).caps).tag = true ∧ (Tbl.get Cap.null 7 (s.ctxAt key).caps).owner / 512 < s.build.lss ∧ (Tbl.get Cap.null 7 (s.ctxAt key).caps).otype = 0 ∧ (Tbl.get Cap.null 7 (s.ctxAt key).caps).perm % 4 = 3 ∧ c ≠ CoreId.moth ∧ 0 < (Tbl.get Cap.null 7 (s.ctxAt key).caps).length ∧ 268435456 ≤ (Tbl.get Cap.null 7 (s.ctxAt key).caps).base ∧ (Tbl.get Cap.null 7 (s.ctxAt key).caps).base + (Tbl.get Cap.null 7 (s.ctxAt key).caps).length ≤ 268435456 + s.build.lss * 65536 ∧ (Tbl.get Cap.null 7 (s.ctxAt key).caps).base % 2 = 0 ∧ (Tbl.get Cap.null 7 (s.ctxAt key).caps).length % 2 = 0 ∧ BitVec.toNat (s.ctxAt key).osc % 2 = 0 ∧ (s.core c).level = 0 ∧ s.capReg c 7 = Tbl.get Cap.null 7 (s.ctxAt key).caps ∧ (s.core c).sb0 = Bank.init ∧ (s.core c).need = some Need.fillOps ∧ 0 < BitVec.toNat (s.ctxAt key).osc ∧ BitVec.toNat (s.ctxAt key).osc ≤ (Tbl.get Cap.null 7 (s.ctxAt key).caps).length ∧ min 8 (BitVec.toNat (s.ctxAt key).osc) ≤ i) ∧
    (∃ (s : State) (c : CoreId) (key : Nat) (us : List Upset) (k : Nat), s.runs ∧ coreBuilt s.build c = true ∧ s.liveKey c = some key ∧ (s.ctxAt key).state = CtxState.running ∧ (Tbl.get Cap.null 7 (s.ctxAt key).caps).tag = true ∧ (Tbl.get Cap.null 7 (s.ctxAt key).caps).owner / 512 < s.build.lss ∧ (Tbl.get Cap.null 7 (s.ctxAt key).caps).otype = 0 ∧ (Tbl.get Cap.null 7 (s.ctxAt key).caps).perm % 4 = 3 ∧ c ≠ CoreId.moth ∧ 0 < (Tbl.get Cap.null 7 (s.ctxAt key).caps).length ∧ 268435456 ≤ (Tbl.get Cap.null 7 (s.ctxAt key).caps).base ∧ (Tbl.get Cap.null 7 (s.ctxAt key).caps).base + (Tbl.get Cap.null 7 (s.ctxAt key).caps).length ≤ 268435456 + s.build.lss * 65536 ∧ (Tbl.get Cap.null 7 (s.ctxAt key).caps).base % 2 = 0 ∧ (Tbl.get Cap.null 7 (s.ctxAt key).caps).length % 2 = 0 ∧ BitVec.toNat (s.ctxAt key).osc % 2 = 0 ∧ (s.core c).level = 0 ∧ s.capReg c 7 = Tbl.get Cap.null 7 (s.ctxAt key).caps ∧ (s.core c).sb0 = Bank.init ∧ (s.core c).need = some Need.fillRets ∧ 0 < BitVec.toNat (s.ctxAt key).rsc ∧ 2 * BitVec.toNat (s.ctxAt key).rsc ≤ (Tbl.get Cap.null 7 (s.ctxAt key).caps).length ∧ (∀ (i : Nat), i < min 4 (BitVec.toNat (s.ctxAt key).rsc) → BitVec.toNat (granWord (s.scrData (scrGranOfWord ((Tbl.get Cap.null 7 (s.ctxAt key).caps).base + (Tbl.get Cap.null 7 (s.ctxAt key).caps).length - 2 * (BitVec.toNat (s.ctxAt key).rsc - min 4 (BitVec.toNat (s.ctxAt key).rsc) + i + 1) + 1))) ((Tbl.get Cap.null 7 (s.ctxAt key).caps).base + (Tbl.get Cap.null 7 (s.ctxAt key).caps).length - 2 * (BitVec.toNat (s.ctxAt key).rsc - min 4 (BitVec.toNat (s.ctxAt key).rsc) + i + 1) + 1)) < 64) ∧ k ≠ key ∧ (s.ctxAt k).state ≠ CtxState.wait) ∧
    (∃ (s : State) (c : CoreId) (key : Nat) (us : List Upset) (i : Nat), s.runs ∧ coreBuilt s.build c = true ∧ s.liveKey c = some key ∧ (s.ctxAt key).state = CtxState.running ∧ (Tbl.get Cap.null 7 (s.ctxAt key).caps).tag = true ∧ (Tbl.get Cap.null 7 (s.ctxAt key).caps).owner / 512 < s.build.lss ∧ (Tbl.get Cap.null 7 (s.ctxAt key).caps).otype = 0 ∧ (Tbl.get Cap.null 7 (s.ctxAt key).caps).perm % 4 = 3 ∧ c ≠ CoreId.moth ∧ 0 < (Tbl.get Cap.null 7 (s.ctxAt key).caps).length ∧ 268435456 ≤ (Tbl.get Cap.null 7 (s.ctxAt key).caps).base ∧ (Tbl.get Cap.null 7 (s.ctxAt key).caps).base + (Tbl.get Cap.null 7 (s.ctxAt key).caps).length ≤ 268435456 + s.build.lss * 65536 ∧ (Tbl.get Cap.null 7 (s.ctxAt key).caps).base % 2 = 0 ∧ (Tbl.get Cap.null 7 (s.ctxAt key).caps).length % 2 = 0 ∧ BitVec.toNat (s.ctxAt key).osc % 2 = 0 ∧ (s.core c).level = 0 ∧ s.capReg c 7 = Tbl.get Cap.null 7 (s.ctxAt key).caps ∧ (s.core c).sb0 = Bank.init ∧ (s.core c).need = some Need.fillRets ∧ 0 < BitVec.toNat (s.ctxAt key).rsc ∧ 2 * BitVec.toNat (s.ctxAt key).rsc ≤ (Tbl.get Cap.null 7 (s.ctxAt key).caps).length ∧ (∀ (i : Nat), i < min 4 (BitVec.toNat (s.ctxAt key).rsc) → BitVec.toNat (granWord (s.scrData (scrGranOfWord ((Tbl.get Cap.null 7 (s.ctxAt key).caps).base + (Tbl.get Cap.null 7 (s.ctxAt key).caps).length - 2 * (BitVec.toNat (s.ctxAt key).rsc - min 4 (BitVec.toNat (s.ctxAt key).rsc) + i + 1) + 1))) ((Tbl.get Cap.null 7 (s.ctxAt key).caps).base + (Tbl.get Cap.null 7 (s.ctxAt key).caps).length - 2 * (BitVec.toNat (s.ctxAt key).rsc - min 4 (BitVec.toNat (s.ctxAt key).rsc) + i + 1) + 1)) < 64) ∧ i < min 4 (BitVec.toNat (s.ctxAt key).rsc)) ∧
    (∃ (s : State) (c : CoreId) (key : Nat) (us : List Upset) (i : Nat), s.runs ∧ coreBuilt s.build c = true ∧ s.liveKey c = some key ∧ (s.ctxAt key).state = CtxState.running ∧ (Tbl.get Cap.null 7 (s.ctxAt key).caps).tag = true ∧ (Tbl.get Cap.null 7 (s.ctxAt key).caps).owner / 512 < s.build.lss ∧ (Tbl.get Cap.null 7 (s.ctxAt key).caps).otype = 0 ∧ (Tbl.get Cap.null 7 (s.ctxAt key).caps).perm % 4 = 3 ∧ c ≠ CoreId.moth ∧ 0 < (Tbl.get Cap.null 7 (s.ctxAt key).caps).length ∧ 268435456 ≤ (Tbl.get Cap.null 7 (s.ctxAt key).caps).base ∧ (Tbl.get Cap.null 7 (s.ctxAt key).caps).base + (Tbl.get Cap.null 7 (s.ctxAt key).caps).length ≤ 268435456 + s.build.lss * 65536 ∧ (Tbl.get Cap.null 7 (s.ctxAt key).caps).base % 2 = 0 ∧ (Tbl.get Cap.null 7 (s.ctxAt key).caps).length % 2 = 0 ∧ BitVec.toNat (s.ctxAt key).osc % 2 = 0 ∧ (s.core c).level = 0 ∧ s.capReg c 7 = Tbl.get Cap.null 7 (s.ctxAt key).caps ∧ (s.core c).sb0 = Bank.init ∧ (s.core c).need = some Need.fillRets ∧ 0 < BitVec.toNat (s.ctxAt key).rsc ∧ 2 * BitVec.toNat (s.ctxAt key).rsc ≤ (Tbl.get Cap.null 7 (s.ctxAt key).caps).length ∧ (∀ (i : Nat), i < min 4 (BitVec.toNat (s.ctxAt key).rsc) → BitVec.toNat (granWord (s.scrData (scrGranOfWord ((Tbl.get Cap.null 7 (s.ctxAt key).caps).base + (Tbl.get Cap.null 7 (s.ctxAt key).caps).length - 2 * (BitVec.toNat (s.ctxAt key).rsc - min 4 (BitVec.toNat (s.ctxAt key).rsc) + i + 1) + 1))) ((Tbl.get Cap.null 7 (s.ctxAt key).caps).base + (Tbl.get Cap.null 7 (s.ctxAt key).caps).length - 2 * (BitVec.toNat (s.ctxAt key).rsc - min 4 (BitVec.toNat (s.ctxAt key).rsc) + i + 1) + 1)) < 64) ∧ min 4 (BitVec.toNat (s.ctxAt key).rsc) ≤ i) ∧
    (∃ (s : State) (c : CoreId) (key : Nat) (us : List Upset) (k : Nat), s.runs ∧ coreBuilt s.build c = true ∧ s.liveKey c = some key ∧ (s.ctxAt key).state = CtxState.running ∧ (Tbl.get Cap.null 7 (s.ctxAt key).caps).tag = true ∧ (Tbl.get Cap.null 7 (s.ctxAt key).caps).owner / 512 < s.build.lss ∧ (Tbl.get Cap.null 7 (s.ctxAt key).caps).otype = 0 ∧ (Tbl.get Cap.null 7 (s.ctxAt key).caps).perm % 4 = 3 ∧ c ≠ CoreId.moth ∧ 0 < (Tbl.get Cap.null 7 (s.ctxAt key).caps).length ∧ 268435456 ≤ (Tbl.get Cap.null 7 (s.ctxAt key).caps).base ∧ (Tbl.get Cap.null 7 (s.ctxAt key).caps).base + (Tbl.get Cap.null 7 (s.ctxAt key).caps).length ≤ 268435456 + s.build.lss * 65536 ∧ (Tbl.get Cap.null 7 (s.ctxAt key).caps).base % 2 = 0 ∧ (Tbl.get Cap.null 7 (s.ctxAt key).caps).length % 2 = 0 ∧ BitVec.toNat (s.ctxAt key).osc % 2 = 0 ∧ (s.core c).level = 0 ∧ s.capReg c 7 = Tbl.get Cap.null 7 (s.ctxAt key).caps ∧ (s.core c).sb0 = Bank.init ∧ (s.core c).need = some Need.fillRets ∧ 0 < BitVec.toNat (s.ctxAt key).rsc ∧ 2 * BitVec.toNat (s.ctxAt key).rsc ≤ (Tbl.get Cap.null 7 (s.ctxAt key).caps).length ∧ ∃ i, i < min 4 (BitVec.toNat (s.ctxAt key).rsc) ∧ 64 ≤ BitVec.toNat (granWord (s.scrData (scrGranOfWord ((Tbl.get Cap.null 7 (s.ctxAt key).caps).base + (Tbl.get Cap.null 7 (s.ctxAt key).caps).length - 2 * (BitVec.toNat (s.ctxAt key).rsc - min 4 (BitVec.toNat (s.ctxAt key).rsc) + i + 1) + 1))) ((Tbl.get Cap.null 7 (s.ctxAt key).caps).base + (Tbl.get Cap.null 7 (s.ctxAt key).caps).length - 2 * (BitVec.toNat (s.ctxAt key).rsc - min 4 (BitVec.toNat (s.ctxAt key).rsc) + i + 1) + 1)) ∧ k ≠ key ∧ (s.ctxAt k).state ≠ CtxState.wait) ∧
    (∃ (s : State) (c : CoreId) (key : Nat) (us : List Upset) (k : Nat), s.runs ∧ coreBuilt s.build c = true ∧ s.liveKey c = some key ∧ (s.ctxAt key).state = CtxState.running ∧ (Tbl.get Cap.null 7 (s.ctxAt key).caps).tag = true ∧ (Tbl.get Cap.null 7 (s.ctxAt key).caps).owner / 512 < s.build.lss ∧ (Tbl.get Cap.null 7 (s.ctxAt key).caps).otype = 0 ∧ (Tbl.get Cap.null 7 (s.ctxAt key).caps).perm % 4 = 3 ∧ c ≠ CoreId.moth ∧ 0 < (Tbl.get Cap.null 7 (s.ctxAt key).caps).length ∧ 268435456 ≤ (Tbl.get Cap.null 7 (s.ctxAt key).caps).base ∧ (Tbl.get Cap.null 7 (s.ctxAt key).caps).base + (Tbl.get Cap.null 7 (s.ctxAt key).caps).length ≤ 268435456 + s.build.lss * 65536 ∧ (Tbl.get Cap.null 7 (s.ctxAt key).caps).base % 2 = 0 ∧ (Tbl.get Cap.null 7 (s.ctxAt key).caps).length % 2 = 0 ∧ BitVec.toNat (s.ctxAt key).osc % 2 = 0 ∧ (s.core c).level = 0 ∧ s.capReg c 7 = Tbl.get Cap.null 7 (s.ctxAt key).caps ∧ (s.core c).sb0 = Bank.init ∧ (s.core c).need = some Need.spillOps ∧ (Tbl.get Cap.null 7 (s.ctxAt key).caps).length < BitVec.toNat (s.ctxAt key).osc + 8 + 2 * BitVec.toNat (s.ctxAt key).rsc ∧ k ≠ key ∧ (s.ctxAt k).state ≠ CtxState.wait) ∧
    (∃ (s : State) (c : CoreId) (key : Nat) (us : List Upset) (k : Nat), s.runs ∧ coreBuilt s.build c = true ∧ s.liveKey c = some key ∧ (s.ctxAt key).state = CtxState.running ∧ (Tbl.get Cap.null 7 (s.ctxAt key).caps).tag = true ∧ (Tbl.get Cap.null 7 (s.ctxAt key).caps).owner / 512 < s.build.lss ∧ (Tbl.get Cap.null 7 (s.ctxAt key).caps).otype = 0 ∧ (Tbl.get Cap.null 7 (s.ctxAt key).caps).perm % 4 = 3 ∧ c ≠ CoreId.moth ∧ 0 < (Tbl.get Cap.null 7 (s.ctxAt key).caps).length ∧ 268435456 ≤ (Tbl.get Cap.null 7 (s.ctxAt key).caps).base ∧ (Tbl.get Cap.null 7 (s.ctxAt key).caps).base + (Tbl.get Cap.null 7 (s.ctxAt key).caps).length ≤ 268435456 + s.build.lss * 65536 ∧ (Tbl.get Cap.null 7 (s.ctxAt key).caps).base % 2 = 0 ∧ (Tbl.get Cap.null 7 (s.ctxAt key).caps).length % 2 = 0 ∧ BitVec.toNat (s.ctxAt key).osc % 2 = 0 ∧ (s.core c).level = 0 ∧ s.capReg c 7 = Tbl.get Cap.null 7 (s.ctxAt key).caps ∧ (s.core c).sb0 = Bank.init ∧ (s.core c).need = some Need.spillRets ∧ (Tbl.get Cap.null 7 (s.ctxAt key).caps).length < BitVec.toNat (s.ctxAt key).osc + 2 * (BitVec.toNat (s.ctxAt key).rsc + 4) ∧ k ≠ key ∧ (s.ctxAt k).state ≠ CtxState.wait) :=
  ⟨⟨ws0, CoreId.sup, (Option.get (ws0.view CoreId.sup) (by decide +kernel)), 7#3, by unfold State.still State.ready State.noRep View.bounded State.takes; decide +kernel⟩,
   ⟨(vst [1, 0]), (CoreId.seq 0), (Option.get ((vst [1, 0]).view (CoreId.seq 0)) (by decide +kernel)), 7#3, (Option.get ((vst [1, 0]).vecKey (CoreId.seq 0)) (by decide +kernel)), by unfold State.still State.ready State.noRep View.bounded State.takes; decide +kernel⟩,
   ⟨ws1, CoreId.sup, (Option.get (ws1.view CoreId.sup) (by decide +kernel)), by unfold State.still State.ready State.noRep View.bounded State.takes; decide +kernel⟩,
   ⟨ws0, (CoreId.seq 0), (Option.get (ws0.view (CoreId.seq 0)) (by decide +kernel)), (Option.get (ws0.vecKey (CoreId.seq 0)) (by decide +kernel)), by unfold State.still State.ready State.noRep View.bounded State.takes; decide +kernel⟩,
   ⟨ws0, CoreId.sup, (Option.get (ws0.view CoreId.sup) (by decide +kernel)), by unfold State.still State.ready State.noRep View.bounded State.takes; decide +kernel⟩,
   ⟨ws0, CoreId.sup, (Option.get (ws0.view CoreId.sup) (by decide +kernel)), by unfold State.still State.ready State.noRep View.bounded State.takes; decide +kernel⟩,
   ⟨(vst [1, 0]), (CoreId.seq 0), (Option.get ((vst [1, 0]).view (CoreId.seq 0)) (by decide +kernel)), (Option.get ((vst [1, 0]).vecKey (CoreId.seq 0)) (by decide +kernel)), 0, (Option.get ((vst [1, 0]).lsOfSeq 0) (by decide +kernel)), by unfold State.still State.ready State.noRep View.bounded State.takes; decide +kernel⟩,
   ⟨(vst [1, 5]), (CoreId.seq 0), (Option.get ((vst [1, 5]).view (CoreId.seq 0)) (by decide +kernel)), (Option.get ((vst [1, 5]).vecKey (CoreId.seq 0)) (by decide +kernel)), 0, (Option.get ((vst [1, 5]).lsOfSeq 0) (by decide +kernel)), (Option.get (if (Option.get ((vst [1, 5]).view (CoreId.seq 0)) (by decide +kernel)).cell 0 = 0 ∨ 255 < BitVec.toNat ((Option.get ((vst [1, 5]).view (CoreId.seq 0)) (by decide +kernel)).cell 0) then none else (vst [1, 5]).ticket (Option.get ((vst [1, 5]).lsOfSeq 0) (by decide +kernel)) (BitVec.toNat ((Option.get ((vst [1, 5]).view (CoreId.seq 0)) (by decide +kernel)).cell 0))) (by decide +kernel)), by unfold State.still State.ready State.noRep View.bounded State.takes; decide +kernel⟩,
   ⟨(vst [1, 7]), (CoreId.seq 0), (Option.get ((vst [1, 7]).view (CoreId.seq 0)) (by decide +kernel)), (Option.get ((vst [1, 7]).vecKey (CoreId.seq 0)) (by decide +kernel)), 0, (Option.get ((vst [1, 7]).lsOfSeq 0) (by decide +kernel)), (Option.get (if (Option.get ((vst [1, 7]).view (CoreId.seq 0)) (by decide +kernel)).cell 0 = 0 ∨ 255 < BitVec.toNat ((Option.get ((vst [1, 7]).view (CoreId.seq 0)) (by decide +kernel)).cell 0) then none else (vst [1, 7]).ticket (Option.get ((vst [1, 7]).lsOfSeq 0) (by decide +kernel)) (BitVec.toNat ((Option.get ((vst [1, 7]).view (CoreId.seq 0)) (by decide +kernel)).cell 0))) (by decide +kernel)), by unfold State.still State.ready State.noRep View.bounded State.takes; decide +kernel⟩,
   ⟨(vst [1, 5]), (CoreId.seq 0), (Option.get ((vst [1, 5]).view (CoreId.seq 0)) (by decide +kernel)), (Option.get ((vst [1, 5]).vecKey (CoreId.seq 0)) (by decide +kernel)), 0, (Option.get ((vst [1, 5]).lsOfSeq 0) (by decide +kernel)), (Option.get (if (Option.get ((vst [1, 5]).view (CoreId.seq 0)) (by decide +kernel)).cell 0 = 0 ∨ 255 < BitVec.toNat ((Option.get ((vst [1, 5]).view (CoreId.seq 0)) (by decide +kernel)).cell 0) then none else (vst [1, 5]).ticket (Option.get ((vst [1, 5]).lsOfSeq 0) (by decide +kernel)) (BitVec.toNat ((Option.get ((vst [1, 5]).view (CoreId.seq 0)) (by decide +kernel)).cell 0))) (by decide +kernel)), by unfold State.still State.ready State.noRep View.bounded State.takes; decide +kernel⟩,
   ⟨(hv [1, 5]), (CoreId.seq 0), (Option.get ((hv [1, 5]).view (CoreId.seq 0)) (by decide +kernel)), (Option.get ((hv [1, 5]).vecKey (CoreId.seq 0)) (by decide +kernel)), 0, (Option.get ((hv [1, 5]).lsOfSeq 0) (by decide +kernel)), (Option.get (if (Option.get ((hv [1, 5]).view (CoreId.seq 0)) (by decide +kernel)).cell 0 = 0 ∨ 255 < BitVec.toNat ((Option.get ((hv [1, 5]).view (CoreId.seq 0)) (by decide +kernel)).cell 0) then none else (hv [1, 5]).ticket (Option.get ((hv [1, 5]).lsOfSeq 0) (by decide +kernel)) (BitVec.toNat ((Option.get ((hv [1, 5]).view (CoreId.seq 0)) (by decide +kernel)).cell 0))) (by decide +kernel)), by unfold State.still State.ready State.noRep View.bounded State.takes; decide +kernel⟩,
   ⟨(vst [1, 0]), (CoreId.seq 0), (Option.get ((vst [1, 0]).view (CoreId.seq 0)) (by decide +kernel)), (Option.get ((vst [1, 0]).vecKey (CoreId.seq 0)) (by decide +kernel)), 0, (Option.get ((vst [1, 0]).lsOfSeq 0) (by decide +kernel)), by unfold State.still State.ready State.noRep View.bounded State.takes; decide +kernel⟩,
   ⟨ws2, (CoreId.seq 0), (Option.get (ws2.liveKey (CoreId.seq 0)) (by decide +kernel)), [], 268500992, by unfold State.runs; decide +kernel⟩,
   ⟨ws2, (CoreId.seq 0), (Option.get (ws2.liveKey (CoreId.seq 0)) (by decide +kernel)), [], 7, by unfold State.runs; decide +kernel⟩,
   ⟨ws2, (CoreId.seq 0), (Option.get (ws2.liveKey (CoreId.seq 0)) (by decide +kernel)), [], 268500992, by unfold State.runs; decide +kernel⟩,
   ⟨ws3, (CoreId.seq 0), (Option.get (ws3.liveKey (CoreId.seq 0)) (by decide +kernel)), [], 268500992, by unfold State.runs; decide +kernel⟩,
   ⟨ws3, (CoreId.seq 0), (Option.get (ws3.liveKey (CoreId.seq 0)) (by decide +kernel)), [], 3, by unfold State.runs; decide +kernel⟩,
   ⟨ws4, (CoreId.seq 0), (Option.get (ws4.liveKey (CoreId.seq 0)) (by decide +kernel)), [], 268500992, by unfold State.runs; decide +kernel⟩,
   ⟨ws4, (CoreId.seq 0), (Option.get (ws4.liveKey (CoreId.seq 0)) (by decide +kernel)), [], 3, by unfold State.runs; decide +kernel⟩,
   ⟨ws4, (CoreId.seq 0), (Option.get (ws4.liveKey (CoreId.seq 0)) (by decide +kernel)), [], 268500992, by unfold State.runs; decide +kernel⟩,
   ⟨ws5, (CoreId.seq 0), (Option.get (ws5.liveKey (CoreId.seq 0)) (by decide +kernel)), [], 268500992, by unfold State.runs; decide +kernel⟩,
   ⟨ws5, (CoreId.seq 0), (Option.get (ws5.liveKey (CoreId.seq 0)) (by decide +kernel)), [], 2, by unfold State.runs; decide +kernel⟩,
   ⟨ws5, (CoreId.seq 0), (Option.get (ws5.liveKey (CoreId.seq 0)) (by decide +kernel)), [], 268500992, by unfold State.runs; decide +kernel⟩,
   ⟨ws1, (CoreId.seq 0), (Option.get (ws1.liveKey (CoreId.seq 0)) (by decide +kernel)), [], 268500992, by unfold State.runs; decide +kernel⟩,
   ⟨ws6, (CoreId.seq 0), (Option.get (ws6.liveKey (CoreId.seq 0)) (by decide +kernel)), [], 268500992, by unfold State.runs; decide +kernel⟩,
   ⟨ws7, (CoreId.seq 0), (Option.get (ws7.liveKey (CoreId.seq 0)) (by decide +kernel)), [], 268500992, by unfold State.runs; decide +kernel⟩⟩

end VectorAndSpillInstructions

namespace RegisterReads

def offs : List Nat := [POD_ALLOC_WAIT, SEQ_DET_CNT (corePage (.seq 0)), SEQ_DET_STAT (corePage (.seq 0)), SEQ_EXC_CNT (corePage (.seq 0)), SEQ_DET_CNT (corePage .sup), SEQ_DET_STAT (corePage .sup), SEQ_EXC_CNT (corePage .sup), SEQ_EXC_CNT (corePage .moth), WIAN_LINK_CNT 0, WIAN_LINK_CNT 3, TBU_CMP_STAT 0, TBU_CMP_STAT 7, TBU_TICK_STAT, PMU_RL_CNT, PMU_BW_MAX 0, PMU_BW_MAX 7, SEC_REFUSE, PMU_CNT 0, PMU_CNT 2, PMU_CNT 3, PMU_CNT 1, PMU_CNT 31, MOTH_RAIL_DATA, TBU_CAP_STAT 0, TBU_CAP_STAT 5, TBU_CAP_RISE_HI 0, TBU_CAP_FALL_HI 0, TBU_CAP_WIDTH 5, EPC_POOL_CNT1, PMU_CHI, PMU_CHI_PAIR]
def fill (s : State) : State := offs.foldl (fun s o => s.setReg o (BitVec.ofNat 32 (lcg o))) s
where lcg (x : Nat) : Nat := ((x + 12345) * 6364136223846793005 + 1442695040888963407) / 2^20
def f1 : State := let s := fill up; { s with mem := { s.mem with ceCnt := [(0, 9), (3, 4)] }, hlt := { s.hlt with minSet := true, temp := [(0, some 50), (2, some 9)], hot := [(0, some 70), (2, some 20)] } }
def f2 : State := ((f1.setFld SMEM_CE_SEL_PBANK 3).setFld HLT_THERM_SEL_SENSOR 2).setFld EPC_POOL_SEL_LBANK 5
def chain (s : State) : State := (s.setFld ⟨PMU_CFG 3, 0, 32⟩ 0xFFFFFFFF)
def vt (s : State) : State := { s with dbg := { s.dbg with rx := [(0, [1,2,3]), (1, [])], tx := [(0, [9,8]), (2, [7])] } }
def pend (es : List (Nat × Nat × Nat)) (s : State) : State := { s with evc := { s.evc with src := es.map (fun (e, tgt, prio) => (e, { s.source e with pend := true, count := BitVec.ofNat 16 (e+3), cfg := BitVec.ofNat 32 (1 + prio * 2 + tgt * 16), ts := 77 })) } }
def ev1 : State := pend [(10, 32, 3), (11, 32, 5), (12, 33, 2), (13, 32, 5)] up
def ev2 : State := let s := ev1; { s with evc := { s.evc with tgt := [(0, { s.target 0 with claim := 0x55 }), (32, { s.target 32 with stack := [5] })] } }

def ws0 : State := (vt up).setFld DBG_AUTH_STAT_GRANTED 1

/-- States and operands that meet the hypotheses of the clauses of `RegisterReads`. -/
theorem witness_RegisterReads :
    (∃ (s : State) (a : Agent), s.reads a POD_ALLOC_WAIT) ∧
    (∃ (s : State) (a : Agent) (c : CoreId), coreBuilt s.build c = true ∧ c ≠ CoreId.moth ∧ s.reads a (SEQ_DET_CNT (corePage c))) ∧
    (∃ (s : State) (a : Agent) (c : CoreId), coreBuilt s.build c = true ∧ c ≠ CoreId.moth ∧ s.reads a (SEQ_DET_STAT (corePage c))) ∧
    (∃ (s : State) (a : Agent) (c : CoreId), coreBuilt s.build c = true ∧ s.reads a (SEQ_EXC_CNT (corePage c))) ∧
    (∃ (s : State) (a : Agent) (l : Nat), l < 4 ∧ s.reads a (WIAN_LINK_CNT l)) ∧
    (∃ (s : State) (a : Agent) (k : Nat), k < 32 ∧ s.reads a (TBU_CMP_STAT k)) ∧
    (∃ (s : State) (a : Agent), s.reads a TBU_TICK_STAT) ∧
    (∃ (s : State) (a : Agent), s.reads a PMU_RL_CNT) ∧
    (∃ (s : State) (a : Agent) (p : Nat), p < 20 ∧ s.reads a (PMU_BW_MAX p)) ∧
    (∃ (s : State) (a : Agent), s.reads a SEC_REFUSE) ∧
    (∃ (s : State) (a : Agent) (j : Nat), s.reads a SMEM_CE_CNT ∧ j ≠ s.fld SMEM_CE_SEL_SLICE * 128 + s.fld SMEM_CE_SEL_PBANK) ∧
    (∃ (s : State) (a : Agent), s.reads a EPC_POOL_CNT0) ∧
    (∃ (s : State) (a : Agent) (k : Nat), k < 256 ∧ s.reads a (PMU_CNT k) ∧ k % 2 = 0 ∧ s.chained (k + 1) = true) ∧
    (∃ (s : State) (a : Agent) (k : Nat), k < 256 ∧ s.reads a (PMU_CNT k) ∧ (¬(k % 2 = 0 ∧ s.chained (k + 1) = true))) ∧
    (∃ (s : State) (a : Agent), s.reads a MOTH_RAIL_DATA) ∧
    (∃ (s : State) (a : Agent) (j : Nat), s.reads a HLT_THERM_DATA ∧ j ≠ s.fld HLT_THERM_SEL_SENSOR) ∧
    (∃ (s : State) (a : Agent) (j : Nat) (f : Fld), j < 16 ∧ s.reads a (TBU_CAP_RISE_HI j) ∧ f.off = TBU_CAP_STAT j ∧ f.lo ≠ (TBU_CAP_STAT_RV j).lo ∧ f.w = 1 ∧ f.lo < 32) ∧
    (∃ (s : State) (a : Agent) (j : Nat) (f : Fld), j < 16 ∧ s.reads a (TBU_CAP_FALL_HI j) ∧ f.off = TBU_CAP_STAT j ∧ f.lo ≠ (TBU_CAP_STAT_FV j).lo ∧ f.w = 1 ∧ f.lo < 32) ∧
    (∃ (s : State) (a : Agent) (j : Nat) (f : Fld), j < 16 ∧ s.reads a (TBU_CAP_WIDTH j) ∧ f.off = TBU_CAP_STAT j ∧ f.lo ≠ (TBU_CAP_STAT_WV j).lo ∧ f.w = 1 ∧ f.lo < 32) ∧
    (∃ (s : State) (a : Agent) (ch : Nat) (k : Nat), ch < 4 ∧ s.reads a (DBG_VT_CDATA ch) ∧ k ≠ ch) ∧
    (∃ (s : State) (a : Agent) (ch : Nat) (k : Nat), ch < 4 ∧ s.crp.live = true ∧ s.on DBG_AUTH_STAT_GRANTED = true ∧ k ≠ ch) ∧
    (∃ (s : State) (a : Agent) (ch : Nat), ch < 4 ∧ s.crp.live = true ∧ s.on DBG_AUTH_STAT_GRANTED = false) ∧
    (∃ (s : State) (a : Agent) (n : Nat), n < s.build.lss ∧ s.reads a (EVC_TGT_CLAIM n)) ∧
    (∃ (s : State) (a : Agent) (n : Nat), (n = 32 ∨ n = 33) ∧ s.reads a (EVC_TGT_CLAIM n) ∧ s.claimable n = none) ∧
    (∃ (s : State) (a : Agent) (n : Nat) (e : Nat) (x : Nat), (n = 32 ∨ n = 33) ∧ s.reads a (EVC_TGT_CLAIM n) ∧ s.claimable n = some e ∧ x ≠ e) ∧
    (∃ (s : State) (a : Agent) (n : Nat) (e : Nat) (x : Nat), (n = 32 ∨ n = 33) ∧ s.reads a (EVC_TGT_CLAIM n) ∧ s.claimable n = some e ∧ x ≠ n) :=
  ⟨⟨up, (Agent.core (CoreId.seq 0)), by unfold State.reads State.allows; decide +kernel⟩,
   ⟨up, (Agent.core (CoreId.seq 0)), (CoreId.seq 0), by unfold State.reads State.allows; decide +kernel⟩,
   ⟨up, (Agent.core (CoreId.seq 0)), (CoreId.seq 0), by unfold State.reads State.allows; decide +kernel⟩,
   ⟨up, (Agent.core (CoreId.seq 0)), (CoreId.seq 0), by unfold State.reads State.allows; decide +kernel⟩,
   ⟨up, (Agent.core (CoreId.seq 0)), 3, by unfold State.reads State.allows; decide +kernel⟩,
   ⟨up, (Agent.core (CoreId.seq 0)), 13, by unfold State.reads State.allows; decide +kernel⟩,
   ⟨up, (Agent.core (CoreId.seq 0)), by unfold State.reads State.allows; decide +kernel⟩,
   ⟨up, (Agent.core (CoreId.seq 0)), by unfold State.reads State.allows; decide +kernel⟩,
   ⟨up, (Agent.core (CoreId.seq 0)), 13, by unfold State.reads State.allows; decide +kernel⟩,
   ⟨up, (Agent.core (CoreId.seq 0)), by unfold State.reads State.allows; decide +kernel⟩,
   ⟨up, (Agent.core (CoreId.seq 0)), 13, by unfold State.reads State.allows; decide +kernel⟩,
   ⟨up, (Agent.core (CoreId.seq 0)), by unfold State.reads State.allows; decide +kernel⟩,
   ⟨(chain f2), (Agent.core (CoreId.seq 0)), 2, by unfold State.reads State.allows; decide +kernel⟩,
   ⟨up, (Agent.core (CoreId.seq 0)), 13, by unfold State.reads State.allows; decide +kernel⟩,
   ⟨up, (Agent.core (CoreId.seq 0)), by unfold State.reads State.allows; decide +kernel⟩,
   ⟨up, (Agent.core (CoreId.seq 0)), 13, by unfold State.reads State.allows; decide +kernel⟩,
   ⟨up, (Agent.core (CoreId.seq 0)), 7, ({ off := TBU_CAP_STAT 7, lo := 1, w := 1 }), by unfold State.reads State.allows; decide +kernel⟩,
   ⟨up, (Agent.core (CoreId.seq 0)), 7, ({ off := TBU_CAP_STAT 7, lo := 0, w := 1 }), by unfold State.reads State.allows; decide +kernel⟩,
   ⟨up, (Agent.core (CoreId.seq 0)), 7, ({ off := TBU_CAP_STAT 7, lo := 0, w := 1 }), by unfold State.reads State.allows; decide +kernel⟩,
   ⟨up, (Agent.core (CoreId.seq 0)), 3, 13, by unfold State.reads State.allows; decide +kernel⟩,
   ⟨ws0, (Agent.core (CoreId.seq 0)), 3, 13, by decide +kernel⟩,
   ⟨up, (Agent.core (CoreId.seq 0)), 3, by decide +kernel⟩,
   ⟨up, (Agent.core (CoreId.seq 0)), 13, by unfold State.reads State.allows; decide +kernel⟩,
   ⟨up, (Agent.core (CoreId.seq 0)), 33, by unfold State.reads State.allows; decide +kernel⟩,
   ⟨ev2, (Agent.core (CoreId.seq 0)), 32, (Option.get (ev2.claimable 32) (by decide +kernel)), 13, by unfold State.reads State.allows; decide +kernel⟩,
   ⟨ev2, (Agent.core (CoreId.seq 0)), 32, (Option.get (ev2.claimable 32) (by decide +kernel)), 13, by unfold State.reads State.allows; decide +kernel⟩⟩

end RegisterReads

namespace RegisterWrites

def fill (s : State) : State := [SMEM_ERR_STAT, SMEM_CE_SEL, EPC_GSEL, MOTH_WATCH, PMU_BW_CFG, SEQ_SCHED_CFG (corePage (.seq 0)), SEC_REFUSE].foldl (fun s o => s.setReg o 0x0A0B0C0F) s
def sel : State := (((fill up).setReg (HIF_BCAST_SEQ 0) 0x3).setReg (HIF_BCAST_SEQ 1) 0xFFFFFFFF).setFld DBG_AUTH_STAT_GRANTED 1
def sw (n : Nat) : State := let s := sel; { s with epc := { s.epc with flip := some { set := 1, freeze := false, swaps := true, tb := 0 } } }.setFld ⟨HLT_SWAP_STAT, 0, 3⟩ n


/-- States and operands that meet the hypotheses of the clauses of `RegisterWrites`. -/
theorem witness_RegisterWrites :
    (∃ (s : State) (a : Agent) (v : Reg) (m : Reg) (off : Nat), s.writes a off ∧ (off, m) ∈ [(SMEM_CE_SEL, 2047), (EPC_GSEL, 63), (EVC_SRC_SEL, 511), (TBU_TB_SET_LO, 4294967295), (TBU_GRP_PER, 4294967295), (MOTH_WATCH, 4294967295), (HLT_CE_CFG, 2097151), (WIAN_RT_IDX, 4095), (HIF_POST 0, 4294967295), (CRP_PWR_CFG, 1)]) ∧
    (∃ (s : State) (a : Agent) (v : Reg), s.writes a PMU_BW_CFG) ∧
    (∃ (s : State) (a : Agent) (v : Reg), s.writes a SMEM_ERR_STAT) ∧
    (∃ (s : State) (a : Agent) (off : Nat) (v : Reg), agentBuilt s.build a = true ∧ s.agentOn a = true ∧ s.gate a true off = Gate.error ∧ s.mirrorDead a off = false) ∧
    (∃ (s : State) (a : Agent) (off : Nat) (v : Reg) (k : Nat), agentBuilt s.build a = true ∧ s.agentOn a = true ∧ s.gate a true off = Gate.refused k ∧ s.evcOn = true) ∧
    (∃ (s : State) (a : Agent) (o : BitVec 22) (v : Reg), s.writes a (8388608 + o.toNat) ∧ o.toNat % 1048576 = 96 ∧ 1 ≤ bitsOf (BitVec.toNat v) 8 4 ∧ bitsOf (BitVec.toNat v) 8 4 ≤ 8 ∧ s.castWaits = true) ∧
    (∃ (s : State) (a : Agent) (o : BitVec 22) (v : Reg) (n : Nat), s.writes a (8388608 + o.toNat) ∧ o.toNat % 1048576 = 96 ∧ 1 ≤ bitsOf (BitVec.toNat v) 8 4 ∧ bitsOf (BitVec.toNat v) 8 4 ≤ 8 ∧ s.castWaits = false ∧ n < s.build.lss ∧ BitVec.getLsbD (s.reg (HIF_BCAST_SEQ (o.toNat / 1048576))) n = true) ∧
    (∃ (s : State) (a : Agent) (o : BitVec 22) (v : Reg) (x : Nat), s.writes a (8388608 + o.toNat) ∧ o.toNat % 1048576 = 96 ∧ 1 ≤ bitsOf (BitVec.toNat v) 8 4 ∧ bitsOf (BitVec.toNat v) 8 4 ≤ 8 ∧ s.castWaits = false ∧ (∀ (n : Nat), n < s.build.lss ∧ BitVec.getLsbD (s.reg (HIF_BCAST_SEQ (o.toNat / 1048576))) n = true → x ≠ SEQ_SCHED_CFG (corePage (s.lsCore n)))) :=
  ⟨⟨up, (Agent.core (CoreId.seq 0)), 305419896, 4294967295, (HIF_POST 0), by and_intros <;> first | decide +kernel | (unfold State.allows; decide +kernel) | (intro c h; cases h <;> decide +kernel)⟩,
   ⟨up, (Agent.core (CoreId.seq 0)), 305419896, by and_intros <;> first | decide +kernel | (unfold State.allows; decide +kernel) | (intro c h; cases h <;> decide +kernel)⟩,
   ⟨up, (Agent.core (CoreId.seq 0)), 305419896, by and_intros <;> first | decide +kernel | (unfold State.allows; decide +kernel) | (intro c h; cases h <;> decide +kernel)⟩,
   ⟨up, (Agent.core CoreId.moth), DBG_AUTH_STAT, 305419896, by decide +kernel⟩,
   ⟨up, Agent.host, SEC_NARROW, 305419896, 0, by decide +kernel⟩,
   ⟨(sw 0), (Agent.core (CoreId.seq 0)), 2097248, 305419896, by and_intros <;> first | decide +kernel | (unfold State.allows; decide +kernel) | (intro c h; cases h <;> decide +kernel)⟩,
   ⟨up, (Agent.core (CoreId.seq 0)), 96, 305419896, 3, by and_intros <;> first | decide +kernel | (unfold State.allows; decide +kernel) | (intro c h; cases h <;> decide +kernel)⟩,
   ⟨up, (Agent.core (CoreId.seq 0)), 2097248, 305419896, DBG_AUTH_STAT, by
     and_intros <;> first | decide +kernel | (unfold State.allows; decide +kernel) | (intro c h; cases h <;> decide +kernel) |
       exact fun n h => (show ∀ n, n < 32 → DBG_AUTH_STAT ≠ SEQ_SCHED_CFG (corePage (up.lsCore n)) by decide +kernel) n h.1⟩⟩

end RegisterWrites

namespace ContextSwitches

def c0 (st : CtxState) (prio age : Nat := 0) (u : Option Nat := none) : Ctx := { ctxOf [1,2] [3] with state := st, prio := BitVec.ofNat 3 prio, age := BitVec.ofNat 4 age, urgent := u }
def w (l : List (Nat × Ctx)) (s : State) : State := l.foldl (fun s e => s.setCtxAt e.1 e.2) s
def idle0 (s : State) : State := withCore (.seq 0) (fun k => { k with live := none }) (w [(3, c0 .parked)] s)
def bud : State := withCtx (fun x => { x with budEn := true, budget := 0 }) up
def qn : State := withCore (.seq 0) (fun k => { k with quantum := 130 }) (w [(2, c0 .ready 3 4)] (up.setFld (SEQ_SCHED_CFG_QUANTUM (corePage (.seq 0))) 2))
def d1 : State := w [(1, c0 .ready 2 14), (2, c0 .ready 3 4), (4, c0 .ready 3 15)] (idle0 up)
def d2 : State := w [(1, c0 .ready 2 14 (some 5)), (2, c0 .ready 3 4 (some 5)), (4, c0 .ready 3 15)] (idle0 up)
def d3 : State := w [(1, { c0 .ready 2 14 (some 5) with pflt := true, vpr := 0xFEDCBA987654 }), (2, c0 .ready 3 4 (some 6))] (idle0 up)
def sup0 (l : List Nat) : State := (l.foldl (fun s b => s.setCtxAt (0x4000 + b) { s.ctxAt (0x4000+b) with state := .wait }) (([1,2,3,4] : List Nat).foldl (fun s b => s.setCtxAt (0x4000 + b) { s.ctxAt (0x4000+b) with state := .running }) up))
def det (s : State) : State := withCore (.seq 0) (fun k => { k with det := true }) s
def res (l : List (Nat × Option Nat)) : State → State := withCore (.seq 0) (fun k => { k with resident := l })

def ws0 : State := det (w [(2, c0 CtxState.ready)] up)

/-- Context `x` of LSl is the one that sequencer `p` dispatches (R330). -/
def IsFirst (s : State) (p l x : Nat) : Prop :=
  let at_ := fun (z : Nat) => s.ctxAt (l * 512 + z)
  let rank := fun (z : Nat) => (at_ z).prio.toNat + (at_ z).age.toNat / s.fld (SEQ_SCHED_CFG_AGE_STEP (corePage (CoreId.seq p)))
  (x < 512 ∧ (at_ x).state = CtxState.ready) ∧
    ((∃ i, (at_ x).urgent = some i ∧ ∀ (z j : Nat), z < 512 ∧ (at_ z).state = CtxState.ready → z ≠ x → (at_ z).urgent = some j →
        i < j ∨ i = j ∧ x < z) ∨
      (∀ (z : Nat), z < 512 ∧ (at_ z).state = CtxState.ready → (at_ z).urgent = none) ∧
      ∀ (z : Nat), z < 512 ∧ (at_ z).state = CtxState.ready → z ≠ x → rank z < rank x ∨
        rank z = rank x ∧ ((at_ z).age.toNat < (at_ x).age.toNat ∨ (at_ z).age = (at_ x).age ∧ x < z))

theorem first_d1 : IsFirst (res [(2, some 4)] d1) 0 0 4 := by
  refine ⟨by decide +kernel, Or.inr ⟨?_, ?_⟩⟩
  · intro z h; obtain ⟨h1, h2⟩ := h; revert h2; revert h1; revert z; decide +kernel
  · intro z h h3; obtain ⟨h1, h2⟩ := h; revert h3; revert h2; revert h1; revert z; decide +kernel

theorem first_d2 : IsFirst (res [(2, some 4)] d2) 0 0 1 := by
  refine ⟨by decide +kernel, Or.inl ⟨5, by decide +kernel, ?_⟩⟩
  intro z j h hne hj
  exact (show ∀ z, z < 512 → ((res [(2, some 4)] d2).ctxAt (0 * 512 + z)).state = CtxState.ready → z ≠ 1 →
    ∀ j ∈ ((res [(2, some 4)] d2).ctxAt (0 * 512 + z)).urgent, 5 < j ∨ 5 = j ∧ 1 < z by decide +kernel) z h.1 h.2 hne j hj

/-- States and operands that meet the hypotheses of the clauses of `ContextSwitches`. -/
theorem witness_ContextSwitches :
    (∃ (s : State) (p : Nat) (l : Nat) (x : Nat) (k : Nat), coreBuilt s.build (CoreId.seq p) = true ∧ s.coreOff (CoreId.seq p) = false ∧ s.lsOfSeq p = some l ∧ (s.core (CoreId.seq p)).live = some x ∧ (s.core (CoreId.seq p)).level = 0 ∧ s.atRest (CoreId.seq p) = true ∧ (s.core (CoreId.seq p)).need = none ∧ (s.core (CoreId.seq p)).flight = [] ∧ (s.ctxAt (l * 512 + x)).budEn = true ∧ (s.ctxAt (l * 512 + x)).budget = 0 ∧ k ≠ l * 512 + x) ∧
    (∃ (s : State) (p : Nat) (l : Nat) (x : Nat) (k : Nat), coreBuilt s.build (CoreId.seq p) = true ∧ s.coreOff (CoreId.seq p) = false ∧ s.lsOfSeq p = some l ∧ (s.core (CoreId.seq p)).live = some x ∧ (s.core (CoreId.seq p)).level = 0 ∧ s.atRest (CoreId.seq p) = true ∧ (s.core (CoreId.seq p)).need = none ∧ (s.core (CoreId.seq p)).flight = [] ∧ (s.ctxAt (l * 512 + x)).budEn = true ∧ (s.ctxAt (l * 512 + x)).budget = 0 ∧ k ≠ coreKey (CoreId.seq p)) ∧
    (∃ (s : State) (p : Nat) (l : Nat) (x : Nat) (k : Nat), coreBuilt s.build (CoreId.seq p) = true ∧ s.coreOff (CoreId.seq p) = false ∧ s.lsOfSeq p = some l ∧ (s.core (CoreId.seq p)).live = some x ∧ (s.core (CoreId.seq p)).level = 0 ∧ s.atRest (CoreId.seq p) = true ∧ (s.core (CoreId.seq p)).need = none ∧ (s.core (CoreId.seq p)).flight = [] ∧ 0 < s.fld (SEQ_SCHED_CFG_QUANTUM (corePage (CoreId.seq p))) ∧ s.fld (SEQ_SCHED_CFG_QUANTUM (corePage (CoreId.seq p))) * 64 ≤ (s.core (CoreId.seq p)).quantum ∧ ∃ z, z < 512 ∧ z ≠ x ∧ (s.ctxAt (l * 512 + z)).state = CtxState.ready ∧ k ≠ l * 512 + x) ∧
    (∃ (s : State) (p : Nat) (l : Nat) (x : Nat) (k : Nat), coreBuilt s.build (CoreId.seq p) = true ∧ s.coreOff (CoreId.seq p) = false ∧ s.lsOfSeq p = some l ∧ (s.core (CoreId.seq p)).live = some x ∧ (s.core (CoreId.seq p)).level = 0 ∧ s.atRest (CoreId.seq p) = true ∧ (s.core (CoreId.seq p)).need = none ∧ (s.core (CoreId.seq p)).flight = [] ∧ 0 < s.fld (SEQ_SCHED_CFG_QUANTUM (corePage (CoreId.seq p))) ∧ s.fld (SEQ_SCHED_CFG_QUANTUM (corePage (CoreId.seq p))) * 64 ≤ (s.core (CoreId.seq p)).quantum ∧ ∃ z, z < 512 ∧ z ≠ x ∧ (s.ctxAt (l * 512 + z)).state = CtxState.ready ∧ k ≠ coreKey (CoreId.seq p)) ∧
    (∃ (s : State) (p : Nat) (l : Nat) (x : Nat) (z : Nat), coreBuilt s.build (CoreId.seq p) = true ∧ s.coreOff (CoreId.seq p) = false ∧ s.lsOfSeq p = some l ∧ (s.core (CoreId.seq p)).live = none ∧ (s.core (CoreId.seq p)).level = 0 ∧ s.atRest (CoreId.seq p) = true ∧ x < 512 ∧ IsFirst s p l x ∧ z < 512 ∧ (s.ctxAt (l * 512 + z)).state = CtxState.ready ∧ z ≠ x) ∧
    (∃ (s : State) (p : Nat) (l : Nat) (x : Nat) (z : Nat), coreBuilt s.build (CoreId.seq p) = true ∧ s.coreOff (CoreId.seq p) = false ∧ s.lsOfSeq p = some l ∧ (s.core (CoreId.seq p)).live = none ∧ (s.core (CoreId.seq p)).level = 0 ∧ s.atRest (CoreId.seq p) = true ∧ x < 512 ∧ IsFirst s p l x ∧ z < 512 ∧ (s.ctxAt (l * 512 + z)).state ≠ CtxState.ready) ∧
    (∃ (s : State) (p : Nat) (l : Nat) (x : Nat) (k : Nat), coreBuilt s.build (CoreId.seq p) = true ∧ s.coreOff (CoreId.seq p) = false ∧ s.lsOfSeq p = some l ∧ (s.core (CoreId.seq p)).live = none ∧ (s.core (CoreId.seq p)).level = 0 ∧ s.atRest (CoreId.seq p) = true ∧ x < 512 ∧ IsFirst s p l x ∧ (k < l * 512 ∨ (l + 1) * 512 ≤ k)) ∧
    (∃ (s : State) (p : Nat) (l : Nat) (x : Nat) (b : Nat), coreBuilt s.build (CoreId.seq p) = true ∧ s.coreOff (CoreId.seq p) = false ∧ s.lsOfSeq p = some l ∧ (s.core (CoreId.seq p)).live = none ∧ (s.core (CoreId.seq p)).level = 0 ∧ s.atRest (CoreId.seq p) = true ∧ x < 512 ∧ IsFirst s p l x ∧ (s.core (CoreId.seq p)).bankOf x = some b) ∧
    (∃ (s : State) (p : Nat) (l : Nat) (x : Nat), coreBuilt s.build (CoreId.seq p) = true ∧ s.coreOff (CoreId.seq p) = false ∧ s.lsOfSeq p = some l ∧ (s.core (CoreId.seq p)).live = none ∧ (s.core (CoreId.seq p)).level = 0 ∧ s.atRest (CoreId.seq p) = true ∧ x < 512 ∧ IsFirst s p l x ∧ (s.core (CoreId.seq p)).bankOf x = none ∧ Tbl.get none 1 (s.core (CoreId.seq p)).resident = none) ∧
    (∃ (s : State) (p : Nat) (l : Nat) (x : Nat) (k : Nat), coreBuilt s.build (CoreId.seq p) = true ∧ s.coreOff (CoreId.seq p) = false ∧ s.lsOfSeq p = some l ∧ (s.core (CoreId.seq p)).live = none ∧ (s.core (CoreId.seq p)).level = 0 ∧ s.atRest (CoreId.seq p) = true ∧ x < 512 ∧ IsFirst s p l x ∧ k ≠ coreKey (CoreId.seq p)) ∧
    (∃ (s : State) (b : Nat), s.coreOff CoreId.sup = false ∧ (s.core CoreId.sup).level = 0 ∧ s.atRest CoreId.sup = true ∧ (s.core CoreId.sup).need = none ∧ (s.core CoreId.sup).flight = [] ∧ (s.core CoreId.sup).live ≠ some b ∧ 1 ≤ b ∧ b ≤ 4 ∧ (s.ctxAt (16384 + b)).state ≠ CtxState.wait ∧ (∀ (d : Nat), 1 ≤ d → d < b → (s.ctxAt (16384 + d)).state = CtxState.wait)) ∧
    (∃ (s : State) (p : Nat) (l : Nat) (x : BitVec 9) (b : Nat), coreBuilt s.build (CoreId.seq p) = true ∧ s.coreOff (CoreId.seq p) = false ∧ s.lsOfSeq p = some l ∧ (s.core (CoreId.seq p)).bankOf x.toNat = some b ∧ (s.core (CoreId.seq p)).live ≠ some x.toNat ∧ ((s.ctxAt (l * 512 + x.toNat)).state = CtxState.parked ∨ (s.ctxAt (l * 512 + x.toNat)).state = CtxState.free)) ∧
    (∃ (s : State) (p : Nat) (l : Nat) (x : BitVec 9), coreBuilt s.build (CoreId.seq p) = true ∧ s.coreOff (CoreId.seq p) = false ∧ s.lsOfSeq p = some l ∧ (s.core (CoreId.seq p)).live = some x.toNat) ∧
    (∃ (s : State) (p : Nat) (l : Nat) (x : BitVec 9) (b : Nat), coreBuilt s.build (CoreId.seq p) = true ∧ s.coreOff (CoreId.seq p) = false ∧ s.lsOfSeq p = some l ∧ (s.core (CoreId.seq p)).det = false ∧ (s.ctxAt (l * 512 + x.toNat)).state = CtxState.ready ∧ (s.core (CoreId.seq p)).bankOf x.toNat = none ∧ (∀ (z : Nat), z < 512 → z ≠ x.toNat → (s.ctxAt (l * 512 + z)).state = CtxState.ready → (s.core (CoreId.seq p)).bankOf z ≠ none) ∧ 1 ≤ b ∧ b ≤ 4 ∧ Tbl.get none b (s.core (CoreId.seq p)).resident = none ∧ (∀ (d : Nat), 1 ≤ d → d < b → Tbl.get none d (s.core (CoreId.seq p)).resident ≠ none)) ∧
    (∃ (s : State) (p : Nat) (l : Nat) (x : BitVec 9), coreBuilt s.build (CoreId.seq p) = true ∧ s.coreOff (CoreId.seq p) = false ∧ s.lsOfSeq p = some l ∧ (s.core (CoreId.seq p)).det = true) :=
  ⟨⟨bud, 0, (Option.get (bud.lsOfSeq 0) (by decide +kernel)), (Option.get ((bud.core (CoreId.seq 0)).live) (by decide +kernel)), 36, by decide +kernel⟩,
   ⟨bud, 0, (Option.get (bud.lsOfSeq 0) (by decide +kernel)), (Option.get ((bud.core (CoreId.seq 0)).live) (by decide +kernel)), 36, by decide +kernel⟩,
   ⟨qn, 0, (Option.get (qn.lsOfSeq 0) (by decide +kernel)), (Option.get ((qn.core (CoreId.seq 0)).live) (by decide +kernel)), 36, by decide +kernel⟩,
   ⟨qn, 0, (Option.get (qn.lsOfSeq 0) (by decide +kernel)), (Option.get ((qn.core (CoreId.seq 0)).live) (by decide +kernel)), 36, by decide +kernel⟩,
   ⟨(res [(2, some 4)] d1), 0, 0, 4, 2, by and_intros <;> first | decide +kernel | exact first_d1.2⟩,
   ⟨(res [(2, some 4)] d1), 0, 0, 4, 36, by and_intros <;> first | decide +kernel | exact first_d1.2⟩,
   ⟨(res [(2, some 4)] d1), 0, 0, 4, 16386, by and_intros <;> first | decide +kernel | exact first_d1.2⟩,
   ⟨(res [(2, some 4)] d1), 0, 0, 4, (Option.get (((res [(2, some 4)] d1).core (CoreId.seq 0)).bankOf 4) (by decide +kernel)), by and_intros <;> first | decide +kernel | exact first_d1.2⟩,
   ⟨(res [(2, some 4)] d2), 0, 0, 1, by and_intros <;> first | decide +kernel | exact first_d2.2⟩,
   ⟨(res [(2, some 4)] d1), 0, 0, 4, 36, by and_intros <;> first | decide +kernel | exact first_d1.2⟩,
   ⟨(sup0 [1]), 2, by
     and_intros <;> first | decide +kernel | (intro d h1 h2; obtain rfl : d = 1 := (by omega); decide +kernel)⟩,
   ⟨d1, 0, (Option.get (d1.lsOfSeq 0) (by decide +kernel)), 3, (Option.get ((d1.core (CoreId.seq 0)).bankOf 3) (by decide +kernel)), by decide +kernel⟩,
   ⟨up, 0, (Option.get (up.lsOfSeq 0) (by decide +kernel)), 3, by decide +kernel⟩,
   ⟨(res [(3, some 1)] d3), 0, 0, 2, 1, by
     and_intros <;> first | decide +kernel | exact fun d h1 h2 => absurd h2 (Nat.not_lt.mpr h1)⟩,
   ⟨ws0, 0, (Option.get (ws0.lsOfSeq 0) (by decide +kernel)), 4, by decide +kernel⟩⟩

end ContextSwitches

namespace ContextCommands

def pg := corePage (.seq 0)
def cl : List Cap := [capOf 0x10000000 64 0x1F, capOf 0x20 0x100 0x1F 2 5, capOf 0x10000000 64 0x1F, capOf 0x10000001 64 0x3F, capOf 0x100000000 16 3, capOf 0x8000000000 64 3,
  capOf 0x10000000 2 0, capOf 0x20 0x100 0x1F 1 5]
def c0 (st : CtxState) : Ctx := { ctxOf [1,2] [3] with state := st, caps := caps8 cl, vpr := 0xFFFFFFFFFFFFFFFFFFFFFFFFFFF, warm := true, vpend := true, pcause := 3 }
def w (l : List (Nat × Ctx)) (s : State) : State := l.foldl (fun s e => s.setCtxAt e.1 e.2) s
def base : State := w [(1, c0 .free), (2, c0 .ready), (4, c0 .wait), (5, c0 .parked), (7, c0 .vwait)] ((up.setReg (SEQ_CTX_BUD pg) 0x80123456).setFld (SEQ_CTX_BUD_EN pg) 1)
def win (slot word : Nat) : State := (base.setFld (SEQ_CTX_SEL_SLOT pg) slot).setFld (SEQ_CTX_SEL_WORD pg) word
def svw (st i : Nat) : State := withCore (.seq 0) (fun k => { k with gtc := capOf 3 4 5, cs := caps8 cl, sv := [(0, { SaveSet.init with caps := caps8 cl }), (9, { SaveSet.init with caps := caps8 cl })] }) ((up.setFld (SEQ_SVW_SEL_SET pg) st).setFld (SEQ_SVW_SEL_INDEX pg) i)


/-- States and operands that meet the hypotheses of the clauses of `ContextCommands`. -/
theorem witness_ContextCommands :
    (∃ (s : State) (n : Nat) (slot : BitVec 9) (k : Nat), n < s.build.lss ∧ s.pageOn (corePage (s.lsCore n)) = true ∧ (s.ctxAt (n * 512 + slot.toNat)).state = CtxState.free ∧ k ≠ n * 512 + slot.toNat) ∧
    (∃ (s : State) (n : Nat) (slot : BitVec 9), n < s.build.lss ∧ s.pageOn (corePage (s.lsCore n)) = true ∧ (∀ (k : Nat), s.liveKey (s.lsCore n) = some k → (s.ctxAt k).parkRq = false)) ∧
    (∃ (s : State) (n : Nat) (slot : BitVec 9) (k : Nat), n < s.build.lss ∧ s.pageOn (corePage (s.lsCore n)) = true ∧ ¬(s.ctxAt (n * 512 + slot.toNat)).state = CtxState.free ∧ k ≠ n * 512 + slot.toNat) ∧
    (∃ (s : State) (n : Nat) (v : Reg), n < s.build.lss ∧ s.pageOn (corePage (s.lsCore n)) = true ∧ (¬((s.ctxAt (n * 512 + s.fld (SEQ_CTX_SEL_SLOT (corePage (s.lsCore n))))).state = CtxState.free ∨ (s.ctxAt (n * 512 + s.fld (SEQ_CTX_SEL_SLOT (corePage (s.lsCore n))))).state = CtxState.parked))) ∧
    (∃ (s : State) (n : Nat) (v : Reg) (k : Nat), n < s.build.lss ∧ s.pageOn (corePage (s.lsCore n)) = true ∧ ((s.ctxAt (n * 512 + s.fld (SEQ_CTX_SEL_SLOT (corePage (s.lsCore n))))).state = CtxState.free ∨ (s.ctxAt (n * 512 + s.fld (SEQ_CTX_SEL_SLOT (corePage (s.lsCore n))))).state = CtxState.parked) ∧ k ≠ n * 512 + s.fld (SEQ_CTX_SEL_SLOT (corePage (s.lsCore n)))) ∧
    (∃ (s : State) (n : Nat) (v : Reg) (j : Nat), n < s.build.lss ∧ s.pageOn (corePage (s.lsCore n)) = true ∧ ((s.ctxAt (n * 512 + s.fld (SEQ_CTX_SEL_SLOT (corePage (s.lsCore n))))).state = CtxState.free ∨ (s.ctxAt (n * 512 + s.fld (SEQ_CTX_SEL_SLOT (corePage (s.lsCore n))))).state = CtxState.parked) ∧ s.fld (SEQ_CTX_SEL_WORD (corePage (s.lsCore n))) < 32 ∧ j < 4 ∧ j ≠ s.fld (SEQ_CTX_SEL_WORD (corePage (s.lsCore n))) % 4) ∧
    (∃ (s : State) (n : Nat) (v : Reg) (r : Nat), n < s.build.lss ∧ s.pageOn (corePage (s.lsCore n)) = true ∧ ((s.ctxAt (n * 512 + s.fld (SEQ_CTX_SEL_SLOT (corePage (s.lsCore n))))).state = CtxState.free ∨ (s.ctxAt (n * 512 + s.fld (SEQ_CTX_SEL_SLOT (corePage (s.lsCore n))))).state = CtxState.parked) ∧ s.fld (SEQ_CTX_SEL_WORD (corePage (s.lsCore n))) < 32 ∧ r ≠ s.fld (SEQ_CTX_SEL_WORD (corePage (s.lsCore n))) / 4) ∧
    (∃ (s : State) (n : Nat) (v : Reg) (j : Nat), n < s.build.lss ∧ s.pageOn (corePage (s.lsCore n)) = true ∧ ((s.ctxAt (n * 512 + s.fld (SEQ_CTX_SEL_SLOT (corePage (s.lsCore n))))).state = CtxState.free ∨ (s.ctxAt (n * 512 + s.fld (SEQ_CTX_SEL_SLOT (corePage (s.lsCore n))))).state = CtxState.parked) ∧ 32 ≤ s.fld (SEQ_CTX_SEL_WORD (corePage (s.lsCore n))) ∧ s.fld (SEQ_CTX_SEL_WORD (corePage (s.lsCore n))) < 40) ∧
    (∃ (s : State) (n : Nat) (v : Reg) (j : Nat), n < s.build.lss ∧ s.pageOn (corePage (s.lsCore n)) = true ∧ ((s.ctxAt (n * 512 + s.fld (SEQ_CTX_SEL_SLOT (corePage (s.lsCore n))))).state = CtxState.free ∨ (s.ctxAt (n * 512 + s.fld (SEQ_CTX_SEL_SLOT (corePage (s.lsCore n))))).state = CtxState.parked) ∧ 40 ≤ s.fld (SEQ_CTX_SEL_WORD (corePage (s.lsCore n))) ∧ s.fld (SEQ_CTX_SEL_WORD (corePage (s.lsCore n))) < 48 ∧ j ≠ 2 * (s.fld (SEQ_CTX_SEL_WORD (corePage (s.lsCore n))) - 40) ∧ j ≠ 2 * (s.fld (SEQ_CTX_SEL_WORD (corePage (s.lsCore n))) - 40) + 1) ∧
    (∃ (s : State) (n : Nat) (v : Reg) (j : Nat), n < s.build.lss ∧ s.pageOn (corePage (s.lsCore n)) = true ∧ ((s.ctxAt (n * 512 + s.fld (SEQ_CTX_SEL_SLOT (corePage (s.lsCore n))))).state = CtxState.free ∨ (s.ctxAt (n * 512 + s.fld (SEQ_CTX_SEL_SLOT (corePage (s.lsCore n))))).state = CtxState.parked) ∧ 48 ≤ s.fld (SEQ_CTX_SEL_WORD (corePage (s.lsCore n))) ∧ s.fld (SEQ_CTX_SEL_WORD (corePage (s.lsCore n))) < 56 ∧ j ≠ s.fld (SEQ_CTX_SEL_WORD (corePage (s.lsCore n))) - 48) ∧
    (∃ (s : State) (n : Nat) (v : Reg), n < s.build.lss ∧ s.pageOn (corePage (s.lsCore n)) = true ∧ ((s.ctxAt (n * 512 + s.fld (SEQ_CTX_SEL_SLOT (corePage (s.lsCore n))))).state = CtxState.free ∨ (s.ctxAt (n * 512 + s.fld (SEQ_CTX_SEL_SLOT (corePage (s.lsCore n))))).state = CtxState.parked) ∧ s.fld (SEQ_CTX_SEL_WORD (corePage (s.lsCore n))) = 56) ∧
    (∃ (s : State) (n : Nat) (v : Reg), n < s.build.lss ∧ s.pageOn (corePage (s.lsCore n)) = true ∧ ((s.ctxAt (n * 512 + s.fld (SEQ_CTX_SEL_SLOT (corePage (s.lsCore n))))).state = CtxState.free ∨ (s.ctxAt (n * 512 + s.fld (SEQ_CTX_SEL_SLOT (corePage (s.lsCore n))))).state = CtxState.parked) ∧ s.fld (SEQ_CTX_SEL_WORD (corePage (s.lsCore n))) = 57) ∧
    (∃ (s : State) (n : Nat) (v : Reg), n < s.build.lss ∧ s.pageOn (corePage (s.lsCore n)) = true ∧ ((s.ctxAt (n * 512 + s.fld (SEQ_CTX_SEL_SLOT (corePage (s.lsCore n))))).state = CtxState.free ∨ (s.ctxAt (n * 512 + s.fld (SEQ_CTX_SEL_SLOT (corePage (s.lsCore n))))).state = CtxState.parked) ∧ s.fld (SEQ_CTX_SEL_WORD (corePage (s.lsCore n))) = 58) ∧
    (∃ (s : State) (n : Nat) (v : Reg), n < s.build.lss ∧ s.pageOn (corePage (s.lsCore n)) = true ∧ ((s.ctxAt (n * 512 + s.fld (SEQ_CTX_SEL_SLOT (corePage (s.lsCore n))))).state = CtxState.free ∨ (s.ctxAt (n * 512 + s.fld (SEQ_CTX_SEL_SLOT (corePage (s.lsCore n))))).state = CtxState.parked) ∧ s.fld (SEQ_CTX_SEL_WORD (corePage (s.lsCore n))) = 59) ∧
    (∃ (s : State) (n : Nat) (v : Reg), n < s.build.lss ∧ s.pageOn (corePage (s.lsCore n)) = true ∧ ((s.ctxAt (n * 512 + s.fld (SEQ_CTX_SEL_SLOT (corePage (s.lsCore n))))).state = CtxState.free ∨ (s.ctxAt (n * 512 + s.fld (SEQ_CTX_SEL_SLOT (corePage (s.lsCore n))))).state = CtxState.parked) ∧ s.fld (SEQ_CTX_SEL_WORD (corePage (s.lsCore n))) = 60) ∧
    (∃ (s : State) (n : Nat) (v : Reg), n < s.build.lss ∧ s.pageOn (corePage (s.lsCore n)) = true ∧ ((s.ctxAt (n * 512 + s.fld (SEQ_CTX_SEL_SLOT (corePage (s.lsCore n))))).state = CtxState.free ∨ (s.ctxAt (n * 512 + s.fld (SEQ_CTX_SEL_SLOT (corePage (s.lsCore n))))).state = CtxState.parked) ∧ s.fld (SEQ_CTX_SEL_WORD (corePage (s.lsCore n))) = 61) ∧
    (∃ (s : State) (n : Nat) (v : Reg), n < s.build.lss ∧ s.pageOn (corePage (s.lsCore n)) = true ∧ ((s.ctxAt (n * 512 + s.fld (SEQ_CTX_SEL_SLOT (corePage (s.lsCore n))))).state = CtxState.free ∨ (s.ctxAt (n * 512 + s.fld (SEQ_CTX_SEL_SLOT (corePage (s.lsCore n))))).state = CtxState.parked) ∧ s.fld (SEQ_CTX_SEL_WORD (corePage (s.lsCore n))) = 62) ∧
    (∃ (s : State) (n : Nat) (v : Reg), n < s.build.lss ∧ s.pageOn (corePage (s.lsCore n)) = true ∧ ((s.ctxAt (n * 512 + s.fld (SEQ_CTX_SEL_SLOT (corePage (s.lsCore n))))).state = CtxState.free ∨ (s.ctxAt (n * 512 + s.fld (SEQ_CTX_SEL_SLOT (corePage (s.lsCore n))))).state = CtxState.parked) ∧ s.fld (SEQ_CTX_SEL_WORD (corePage (s.lsCore n))) = 63) ∧
    (∃ (s : State) (c : CoreId) (v : Reg) (k : Nat), coreBuilt s.build c = true ∧ s.pageOn (corePage c) = true ∧ k ≠ coreKey c) ∧
    (∃ (s : State) (c : CoreId) (v : Reg) (j : Nat), coreBuilt s.build c = true ∧ s.pageOn (corePage c) = true ∧ s.fld (SEQ_SVW_SEL_SET (corePage c)) ≤ 9 ∧ j ≠ s.fld (SEQ_SVW_SEL_SET (corePage c))) ∧
    (∃ (s : State) (c : CoreId) (v : Reg), coreBuilt s.build c = true ∧ s.pageOn (corePage c) = true ∧ s.fld (SEQ_SVW_SEL_SET (corePage c)) ≤ 9 ∧ 6 ≤ s.fld (SEQ_SVW_SEL_INDEX (corePage c)) ∧ s.fld (SEQ_SVW_SEL_INDEX (corePage c)) < 38) ∧
    (∃ (s : State) (c : CoreId) (v : Reg), coreBuilt s.build c = true ∧ s.pageOn (corePage c) = true ∧ 9 < s.fld (SEQ_SVW_SEL_SET (corePage c))) ∧
    (∃ (s : State) (c : CoreId) (v : Reg), coreBuilt s.build c = true ∧ s.pageOn (corePage c) = true ∧ s.fld (SEQ_SVW_SEL_SET (corePage c)) = 15 ∧ 6 ≤ s.fld (SEQ_SVW_SEL_INDEX (corePage c)) ∧ s.fld (SEQ_SVW_SEL_INDEX (corePage c)) < 10) ∧
    (∃ (s : State) (c : CoreId) (v : Reg), coreBuilt s.build c = true ∧ s.pageOn (corePage c) = true ∧ s.fld (SEQ_SVW_SEL_SET (corePage c)) ≠ 15) ∧
    (∃ (s : State) (c : CoreId) (v : Reg), coreBuilt s.build c = true ∧ s.pageOn (corePage c) = true ∧ s.fld (SEQ_SVW_SEL_SET (corePage c)) < 16) ∧
    (∃ (s : State) (c : CoreId) (v : Reg) (r : Nat), coreBuilt s.build c = true ∧ s.pageOn (corePage c) = true ∧ 16 ≤ s.fld (SEQ_SVW_SEL_SET (corePage c)) ∧ 6 ≤ s.fld (SEQ_SVW_SEL_INDEX (corePage c)) ∧ s.fld (SEQ_SVW_SEL_INDEX (corePage c)) < 38 ∧ r ≠ 8 * (s.fld (SEQ_SVW_SEL_SET (corePage c)) - 16) + (s.fld (SEQ_SVW_SEL_INDEX (corePage c)) - 6) / 4) :=
  ⟨⟨base, 16, 7, 512, by decide +kernel⟩,
   ⟨base, 16, 7, by decide +kernel⟩,
   ⟨base, 0, 7, 512, by decide +kernel⟩,
   ⟨(win 2 4), 0, 985105, by decide +kernel⟩,
   ⟨base, 16, 985105, 512, by decide +kernel⟩,
   ⟨base, 16, 985105, 3, by decide +kernel⟩,
   ⟨base, 16, 985105, 512, by decide +kernel⟩,
   ⟨(win 5 32), 0, 985105, 512, by decide +kernel⟩,
   ⟨(win 5 40), 0, 985105, 512, by decide +kernel⟩,
   ⟨(win 5 48), 0, 985105, 512, by decide +kernel⟩,
   ⟨(win 5 56), 0, 985105, by decide +kernel⟩,
   ⟨(win 5 57), 0, 985105, by decide +kernel⟩,
   ⟨(win 5 58), 0, 985105, by decide +kernel⟩,
   ⟨(win 5 59), 0, 985105, by decide +kernel⟩,
   ⟨(win 5 60), 0, 985105, by decide +kernel⟩,
   ⟨(win 5 61), 0, 985105, by decide +kernel⟩,
   ⟨(win 5 62), 0, 985105, by decide +kernel⟩,
   ⟨(win 5 63), 0, 985105, by decide +kernel⟩,
   ⟨base, (CoreId.seq 0), 985105, 512, by decide +kernel⟩,
   ⟨base, (CoreId.seq 0), 985105, 512, by decide +kernel⟩,
   ⟨(svw 0 6), (CoreId.seq 0), 985105, by decide +kernel⟩,
   ⟨(svw 10 0), (CoreId.seq 0), 985105, by decide +kernel⟩,
   ⟨(svw 15 6), (CoreId.seq 0), 985105, by decide +kernel⟩,
   ⟨base, (CoreId.seq 0), 985105, by decide +kernel⟩,
   ⟨base, (CoreId.seq 0), 985105, by decide +kernel⟩,
   ⟨(svw 16 6), (CoreId.seq 0), 985105, 512, by decide +kernel⟩⟩

end ContextCommands

namespace MintSequences

def mtg (core kind reg st slot : Nat) (s : State) : State := (((((s.setFld SUP_MINT_TGT_CORE core).setFld SUP_MINT_TGT_KIND kind).setFld SUP_MINT_TGT_REG reg).setFld SUP_MINT_TGT_SET st).setFld SUP_MINT_TGT_SLOT slot)
def attrs (base len perm group view skey owner : Nat) (s : State) : State := ((((((s.setReg SUP_MINT_BASE_LO (BitVec.ofNat 32 base)).setReg SUP_MINT_BASE_HI (BitVec.ofNat 32 (base / 2^32))).setReg SUP_MINT_LEN (BitVec.ofNat 32 len)).setFld SUP_MINT_ATTR_PERM perm).setFld SUP_MINT_ATTR_GROUP group).setFld SUP_MINT_ATTR_VIEW view).setFld SUP_MINT_ATTR_SKEY skey |>.setFld SUP_MINT_OWNER_OWNER owner
def supCaps (s : State) : State := s.setCtxAt 0x4001 { s.ctxAt 0x4001 with caps := [(0, mintRoot), (1, capOf 5 6 7), (2, capOf 0x100000000 16 3)] }

def ws0 : State := mtg 0 0 3 0 3 (attrs 32 256 3 5 2 0 3 (supCaps up))
def ws1 : State := if (mtg 33 0 1 0 1 (attrs 32 256 3 5 2 0 3 (supCaps up))).agentOn (Agent.core CoreId.sup) = true then agentWrite (Agent.core CoreId.sup) SUP_MINT_CTL 1 (mtg 33 0 1 0 1 (attrs 32 256 3 5 2 0 3 (supCaps up))) else mtg 33 0 1 0 1 (attrs 32 256 3 5 2 0 3 (supCaps up))
def ws2 : State := if (mtg 0 0 3 0 3 (attrs 32 256 3 5 2 0 3 (supCaps (handler (CoreId.seq 0) 3 [])))).agentOn (Agent.core CoreId.sup) = true then agentWrite (Agent.core CoreId.sup) SUP_MINT_CTL 1 (mtg 0 0 3 0 3 (attrs 32 256 3 5 2 0 3 (supCaps (handler (CoreId.seq 0) 3 [])))) else mtg 0 0 3 0 3 (attrs 32 256 3 5 2 0 3 (supCaps (handler (CoreId.seq 0) 3 [])))
def ws3 : State := if (mtg 0 0 3 0 3 (attrs 32 256 3 5 2 0 3 (supCaps up))).agentOn (Agent.core CoreId.sup) = true then agentWrite (Agent.core CoreId.sup) SUP_MINT_CTL (BitVec.ofNat 32 (3 + 4 * 2)) (mtg 0 0 3 0 3 (attrs 32 256 3 5 2 0 3 (supCaps up))) else mtg 0 0 3 0 3 (attrs 32 256 3 5 2 0 3 (supCaps up))
def ws4 : State := if (mtg 0 0 3 0 3 (attrs 32 256 3 5 2 0 3 (supCaps up))).agentOn (Agent.core CoreId.sup) = true then agentWrite (Agent.core CoreId.sup) SUP_MINT_CTL (BitVec.ofNat 32 (3 + 4 * 1)) (mtg 0 0 3 0 3 (attrs 32 256 3 5 2 0 3 (supCaps up))) else mtg 0 0 3 0 3 (attrs 32 256 3 5 2 0 3 (supCaps up))
def ws5 : State := if (mtg 0 1 7 15 0 (attrs 32 256 3 5 2 0 3 (supCaps up))).agentOn (Agent.core CoreId.sup) = true then agentWrite (Agent.core CoreId.sup) SUP_MINT_CTL (BitVec.ofNat 32 (3 + 4 * 1)) (mtg 0 1 7 15 0 (attrs 32 256 3 5 2 0 3 (supCaps up))) else mtg 0 1 7 15 0 (attrs 32 256 3 5 2 0 3 (supCaps up))
def ws6 : State := if (mtg 0 0 3 0 3 (attrs 4294967296 4 3 1 1 0 0 (supCaps up))).agentOn (Agent.core CoreId.sup) = true then agentWrite (Agent.core CoreId.sup) SUP_MINT_CTL 1 (mtg 0 0 3 0 3 (attrs 4294967296 4 3 1 1 0 0 (supCaps up))) else mtg 0 0 3 0 3 (attrs 4294967296 4 3 1 1 0 0 (supCaps up))
def ws7 : State := if (mtg 0 0 3 0 3 (attrs 32 4 1027 1 1 0 3 (supCaps up))).agentOn (Agent.core CoreId.sup) = true then agentWrite (Agent.core CoreId.sup) SUP_MINT_CTL 1 (mtg 0 0 3 0 3 (attrs 32 4 1027 1 1 0 3 (supCaps up))) else mtg 0 0 3 0 3 (attrs 32 4 1027 1 1 0 3 (supCaps up))
def ws8 : State := if (mtg 0 0 3 0 3 (attrs 32 4 3 1 3 0 3 (supCaps up))).agentOn (Agent.core CoreId.sup) = true then agentWrite (Agent.core CoreId.sup) SUP_MINT_CTL 1 (mtg 0 0 3 0 3 (attrs 32 4 3 1 3 0 3 (supCaps up))) else mtg 0 0 3 0 3 (attrs 32 4 3 1 3 0 3 (supCaps up))
def ws9 : State := { (if (mtg 0 0 3 0 3 (attrs 32 4 3 1 1 0 (20 * 512) (supCaps up))).agentOn (Agent.core CoreId.sup) = true then agentWrite (Agent.core CoreId.sup) SUP_MINT_CTL 1 (mtg 0 0 3 0 3 (attrs 32 4 3 1 1 0 (20 * 512) (supCaps up))) else mtg 0 0 3 0 3 (attrs 32 4 3 1 1 0 (20 * 512) (supCaps up))) with build := Build.f4 }
def ws10 : State := if (mtg 0 0 3 0 3 (attrs 32 256 3 5 2 0 3 (supCaps up))).agentOn (Agent.core CoreId.sup) = true then agentWrite (Agent.core CoreId.sup) SUP_MINT_CTL 1 (mtg 0 0 3 0 3 (attrs 32 256 3 5 2 0 3 (supCaps up))) else mtg 0 0 3 0 3 (attrs 32 256 3 5 2 0 3 (supCaps up))
def ws11 : State := if (mtg 0 1 7 15 0 (attrs 32 256 3 5 2 0 3 (supCaps up))).agentOn (Agent.core CoreId.sup) = true then agentWrite (Agent.core CoreId.sup) SUP_MINT_CTL 1 (mtg 0 1 7 15 0 (attrs 32 256 3 5 2 0 3 (supCaps up))) else mtg 0 1 7 15 0 (attrs 32 256 3 5 2 0 3 (supCaps up))

/-- States and operands that meet the hypotheses of the clauses of `MintSequences`. -/
theorem witness_MintSequences :
    (∃ (s : State) (src : BitVec 3), s.writes (Agent.core CoreId.sup) SUP_MINT_CTL ∧ s.on SUP_MINT_STAT_BUSY = false) ∧
    (∃ (s : State) (a : Agent) (src : BitVec 3), s.writes a SUP_MINT_CTL ∧ (a ≠ Agent.core CoreId.sup ∨ s.on SUP_MINT_STAT_BUSY = true)) ∧
    (∃ (s : State) (j : MintJob), s.runs ∧ s.mint = some j ∧ j.target = none) ∧
    (∃ (s : State) (j : MintJob) (g : MintTarget), s.runs ∧ s.mint = some j ∧ j.target = some g ∧ g.kind = 0 ∧ (s.core g.core).level ≠ 0 ∧ s.liveKey g.core = some (s.mintKey g)) ∧
    (∃ (s : State) (j : MintJob) (g : MintTarget), s.runs ∧ s.mint = some j ∧ j.target = some g ∧ (¬(g.kind = 0 ∧ (s.core g.core).level ≠ 0 ∧ s.liveKey g.core = some (s.mintKey g))) ∧ j.copy = true ∧ (g.core ≠ CoreId.sup ∧ (j.cap.has 10 = true ∨ j.cap.has 8 = true ∨ s.region CoreId.sup j.cap.base = Region.regs))) ∧
    (∃ (s : State) (j : MintJob) (g : MintTarget) (k : Nat), s.runs ∧ s.mint = some j ∧ j.target = some g ∧ (¬(g.kind = 0 ∧ (s.core g.core).level ≠ 0 ∧ s.liveKey g.core = some (s.mintKey g))) ∧ j.copy = true ∧ (¬(g.core ≠ CoreId.sup ∧ (j.cap.has 10 = true ∨ j.cap.has 8 = true ∨ s.region CoreId.sup j.cap.base = Region.regs))) ∧ g.kind = 0 ∧ k ≠ s.mintKey g) ∧
    (∃ (s : State) (j : MintJob) (g : MintTarget) (r : Nat), s.runs ∧ s.mint = some j ∧ j.target = some g ∧ (¬(g.kind = 0 ∧ (s.core g.core).level ≠ 0 ∧ s.liveKey g.core = some (s.mintKey g))) ∧ j.copy = true ∧ (¬(g.core ≠ CoreId.sup ∧ (j.cap.has 10 = true ∨ j.cap.has 8 = true ∨ s.region CoreId.sup j.cap.base = Region.regs))) ∧ g.kind = 0 ∧ r ≠ g.reg) ∧
    (∃ (s : State) (j : MintJob) (g : MintTarget) (k : Nat), s.runs ∧ s.mint = some j ∧ j.target = some g ∧ (¬(g.kind = 0 ∧ (s.core g.core).level ≠ 0 ∧ s.liveKey g.core = some (s.mintKey g))) ∧ j.copy = true ∧ (¬(g.core ≠ CoreId.sup ∧ (j.cap.has 10 = true ∨ j.cap.has 8 = true ∨ s.region CoreId.sup j.cap.base = Region.regs))) ∧ g.kind ≠ 0 ∧ k ≠ coreKey g.core) ∧
    (∃ (s : State) (j : MintJob) (g : MintTarget) (r : Nat), s.runs ∧ s.mint = some j ∧ j.target = some g ∧ (¬(g.kind = 0 ∧ (s.core g.core).level ≠ 0 ∧ s.liveKey g.core = some (s.mintKey g))) ∧ j.copy = true ∧ (¬(g.core ≠ CoreId.sup ∧ (j.cap.has 10 = true ∨ j.cap.has 8 = true ∨ s.region CoreId.sup j.cap.base = Region.regs))) ∧ g.kind ≠ 0 ∧ (g.kind ≠ 1 ∨ r ≠ 8 * g.set + g.reg)) ∧
    (∃ (s : State) (j : MintJob) (g : MintTarget), s.runs ∧ s.mint = some j ∧ j.target = some g ∧ (¬(g.kind = 0 ∧ (s.core g.core).level ≠ 0 ∧ s.liveKey g.core = some (s.mintKey g))) ∧ j.copy = true ∧ (¬(g.core ≠ CoreId.sup ∧ (j.cap.has 10 = true ∨ j.cap.has 8 = true ∨ s.region CoreId.sup j.cap.base = Region.regs))) ∧ g.kind ≠ 0 ∧ g.kind = 1) ∧
    (∃ (s : State) (j : MintJob) (g : MintTarget), s.runs ∧ s.mint = some j ∧ j.target = some g ∧ (¬(g.kind = 0 ∧ (s.core g.core).level ≠ 0 ∧ s.liveKey g.core = some (s.mintKey g))) ∧ j.copy = false ∧ (s.region g.core j.cap.base = Region.none ∨ s.region g.core j.cap.base = Region.regs ∧ isSeq g.core = true ∨ s.region g.core (j.cap.base + (j.cap.length - 1)) ≠ s.region g.core j.cap.base ∨ 2 ^ 40 ≤ j.cap.base + (j.cap.length - 1))) ∧
    (∃ (s : State) (j : MintJob) (g : MintTarget), s.runs ∧ s.mint = some j ∧ j.target = some g ∧ (¬(g.kind = 0 ∧ (s.core g.core).level ≠ 0 ∧ s.liveKey g.core = some (s.mintKey g))) ∧ j.copy = false ∧ (¬(s.region g.core j.cap.base = Region.none ∨ s.region g.core j.cap.base = Region.regs ∧ isSeq g.core = true ∨ s.region g.core (j.cap.base + (j.cap.length - 1)) ≠ s.region g.core j.cap.base ∨ 2 ^ 40 ≤ j.cap.base + (j.cap.length - 1))) ∧ (g.core ≠ CoreId.sup ∧ (j.cap.has 10 = true ∨ j.cap.has 8 = true ∨ s.region CoreId.sup j.cap.base = Region.regs))) ∧
    (∃ (s : State) (j : MintJob) (g : MintTarget), s.runs ∧ s.mint = some j ∧ j.target = some g ∧ (¬(g.kind = 0 ∧ (s.core g.core).level ≠ 0 ∧ s.liveKey g.core = some (s.mintKey g))) ∧ j.copy = false ∧ (¬(s.region g.core j.cap.base = Region.none ∨ s.region g.core j.cap.base = Region.regs ∧ isSeq g.core = true ∨ s.region g.core (j.cap.base + (j.cap.length - 1)) ≠ s.region g.core j.cap.base ∨ 2 ^ 40 ≤ j.cap.base + (j.cap.length - 1))) ∧ (¬(g.core ≠ CoreId.sup ∧ (j.cap.has 10 = true ∨ j.cap.has 8 = true ∨ s.region CoreId.sup j.cap.base = Region.regs))) ∧ (2 ^ 11 ≤ j.cap.perm ∨ j.cap.view = 3 ∨ j.cap.skey ≠ 0 ∧ j.cap.has 7 = false)) ∧
    (∃ (s : State) (j : MintJob) (g : MintTarget), s.runs ∧ s.mint = some j ∧ j.target = some g ∧ (¬(g.kind = 0 ∧ (s.core g.core).level ≠ 0 ∧ s.liveKey g.core = some (s.mintKey g))) ∧ j.copy = false ∧ (¬(s.region g.core j.cap.base = Region.none ∨ s.region g.core j.cap.base = Region.regs ∧ isSeq g.core = true ∨ s.region g.core (j.cap.base + (j.cap.length - 1)) ≠ s.region g.core j.cap.base ∨ 2 ^ 40 ≤ j.cap.base + (j.cap.length - 1))) ∧ (¬(g.core ≠ CoreId.sup ∧ (j.cap.has 10 = true ∨ j.cap.has 8 = true ∨ s.region CoreId.sup j.cap.base = Region.regs))) ∧ (¬(2 ^ 11 ≤ j.cap.perm ∨ j.cap.view = 3 ∨ j.cap.skey ≠ 0 ∧ j.cap.has 7 = false)) ∧ s.build.lss ≤ j.cap.owner / 512) ∧
    (∃ (s : State) (j : MintJob) (g : MintTarget) (k : Nat), s.runs ∧ s.mint = some j ∧ j.target = some g ∧ (¬(g.kind = 0 ∧ (s.core g.core).level ≠ 0 ∧ s.liveKey g.core = some (s.mintKey g))) ∧ j.copy = false ∧ (¬(s.region g.core j.cap.base = Region.none ∨ s.region g.core j.cap.base = Region.regs ∧ isSeq g.core = true ∨ s.region g.core (j.cap.base + (j.cap.length - 1)) ≠ s.region g.core j.cap.base ∨ 2 ^ 40 ≤ j.cap.base + (j.cap.length - 1))) ∧ (¬(g.core ≠ CoreId.sup ∧ (j.cap.has 10 = true ∨ j.cap.has 8 = true ∨ s.region CoreId.sup j.cap.base = Region.regs))) ∧ (¬(2 ^ 11 ≤ j.cap.perm ∨ j.cap.view = 3 ∨ j.cap.skey ≠ 0 ∧ j.cap.has 7 = false)) ∧ j.cap.owner / 512 < s.build.lss ∧ g.kind = 0 ∧ k ≠ s.mintKey g) ∧
    (∃ (s : State) (j : MintJob) (g : MintTarget) (r : Nat), s.runs ∧ s.mint = some j ∧ j.target = some g ∧ (¬(g.kind = 0 ∧ (s.core g.core).level ≠ 0 ∧ s.liveKey g.core = some (s.mintKey g))) ∧ j.copy = false ∧ (¬(s.region g.core j.cap.base = Region.none ∨ s.region g.core j.cap.base = Region.regs ∧ isSeq g.core = true ∨ s.region g.core (j.cap.base + (j.cap.length - 1)) ≠ s.region g.core j.cap.base ∨ 2 ^ 40 ≤ j.cap.base + (j.cap.length - 1))) ∧ (¬(g.core ≠ CoreId.sup ∧ (j.cap.has 10 = true ∨ j.cap.has 8 = true ∨ s.region CoreId.sup j.cap.base = Region.regs))) ∧ (¬(2 ^ 11 ≤ j.cap.perm ∨ j.cap.view = 3 ∨ j.cap.skey ≠ 0 ∧ j.cap.has 7 = false)) ∧ j.cap.owner / 512 < s.build.lss ∧ g.kind = 0 ∧ r ≠ g.reg) ∧
    (∃ (s : State) (j : MintJob) (g : MintTarget) (k : Nat), s.runs ∧ s.mint = some j ∧ j.target = some g ∧ (¬(g.kind = 0 ∧ (s.core g.core).level ≠ 0 ∧ s.liveKey g.core = some (s.mintKey g))) ∧ j.copy = false ∧ (¬(s.region g.core j.cap.base = Region.none ∨ s.region g.core j.cap.base = Region.regs ∧ isSeq g.core = true ∨ s.region g.core (j.cap.base + (j.cap.length - 1)) ≠ s.region g.core j.cap.base ∨ 2 ^ 40 ≤ j.cap.base + (j.cap.length - 1))) ∧ (¬(g.core ≠ CoreId.sup ∧ (j.cap.has 10 = true ∨ j.cap.has 8 = true ∨ s.region CoreId.sup j.cap.base = Region.regs))) ∧ (¬(2 ^ 11 ≤ j.cap.perm ∨ j.cap.view = 3 ∨ j.cap.skey ≠ 0 ∧ j.cap.has 7 = false)) ∧ j.cap.owner / 512 < s.build.lss ∧ g.kind ≠ 0 ∧ k ≠ coreKey g.core) ∧
    (∃ (s : State) (j : MintJob) (g : MintTarget) (r : Nat), s.runs ∧ s.mint = some j ∧ j.target = some g ∧ (¬(g.kind = 0 ∧ (s.core g.core).level ≠ 0 ∧ s.liveKey g.core = some (s.mintKey g))) ∧ j.copy = false ∧ (¬(s.region g.core j.cap.base = Region.none ∨ s.region g.core j.cap.base = Region.regs ∧ isSeq g.core = true ∨ s.region g.core (j.cap.base + (j.cap.length - 1)) ≠ s.region g.core j.cap.base ∨ 2 ^ 40 ≤ j.cap.base + (j.cap.length - 1))) ∧ (¬(g.core ≠ CoreId.sup ∧ (j.cap.has 10 = true ∨ j.cap.has 8 = true ∨ s.region CoreId.sup j.cap.base = Region.regs))) ∧ (¬(2 ^ 11 ≤ j.cap.perm ∨ j.cap.view = 3 ∨ j.cap.skey ≠ 0 ∧ j.cap.has 7 = false)) ∧ j.cap.owner / 512 < s.build.lss ∧ g.kind ≠ 0 ∧ (g.kind ≠ 1 ∨ r ≠ 8 * g.set + g.reg)) ∧
    (∃ (s : State) (j : MintJob) (g : MintTarget), s.runs ∧ s.mint = some j ∧ j.target = some g ∧ (¬(g.kind = 0 ∧ (s.core g.core).level ≠ 0 ∧ s.liveKey g.core = some (s.mintKey g))) ∧ j.copy = false ∧ (¬(s.region g.core j.cap.base = Region.none ∨ s.region g.core j.cap.base = Region.regs ∧ isSeq g.core = true ∨ s.region g.core (j.cap.base + (j.cap.length - 1)) ≠ s.region g.core j.cap.base ∨ 2 ^ 40 ≤ j.cap.base + (j.cap.length - 1))) ∧ (¬(g.core ≠ CoreId.sup ∧ (j.cap.has 10 = true ∨ j.cap.has 8 = true ∨ s.region CoreId.sup j.cap.base = Region.regs))) ∧ (¬(2 ^ 11 ≤ j.cap.perm ∨ j.cap.view = 3 ∨ j.cap.skey ≠ 0 ∧ j.cap.has 7 = false)) ∧ j.cap.owner / 512 < s.build.lss ∧ g.kind ≠ 0 ∧ g.kind = 1) :=
  ⟨⟨ws0, 2, by and_intros <;> first | decide +kernel | (unfold State.allows; decide +kernel) | (intro c h; cases h <;> decide +kernel)⟩,
   ⟨ws0, (Agent.core (CoreId.seq 0)), 2, by and_intros <;> first | decide +kernel | (unfold State.allows; decide +kernel) | (intro c h; cases h <;> decide +kernel)⟩,
   ⟨ws1, (Option.get (ws1.mint) (by decide +kernel)), by unfold State.runs; decide +kernel⟩,
   ⟨ws2, (Option.get (ws2.mint) (by decide +kernel)), (Option.get ((Option.get (ws2.mint) (by decide +kernel)).target) (by decide +kernel)), by unfold State.runs; decide +kernel⟩,
   ⟨ws3, (Option.get (ws3.mint) (by decide +kernel)), (Option.get ((Option.get (ws3.mint) (by decide +kernel)).target) (by decide +kernel)), by unfold State.runs; decide +kernel⟩,
   ⟨ws4, (Option.get (ws4.mint) (by decide +kernel)), (Option.get ((Option.get (ws4.mint) (by decide +kernel)).target) (by decide +kernel)), 32769, by unfold State.runs; decide +kernel⟩,
   ⟨ws4, (Option.get (ws4.mint) (by decide +kernel)), (Option.get ((Option.get (ws4.mint) (by decide +kernel)).target) (by decide +kernel)), 32769, by unfold State.runs; decide +kernel⟩,
   ⟨ws5, (Option.get (ws5.mint) (by decide +kernel)), (Option.get ((Option.get (ws5.mint) (by decide +kernel)).target) (by decide +kernel)), 32769, by unfold State.runs; decide +kernel⟩,
   ⟨ws5, (Option.get (ws5.mint) (by decide +kernel)), (Option.get ((Option.get (ws5.mint) (by decide +kernel)).target) (by decide +kernel)), 32769, by unfold State.runs; decide +kernel⟩,
   ⟨ws5, (Option.get (ws5.mint) (by decide +kernel)), (Option.get ((Option.get (ws5.mint) (by decide +kernel)).target) (by decide +kernel)), by unfold State.runs; decide +kernel⟩,
   ⟨ws6, (Option.get (ws6.mint) (by decide +kernel)), (Option.get ((Option.get (ws6.mint) (by decide +kernel)).target) (by decide +kernel)), by unfold State.runs; decide +kernel⟩,
   ⟨ws7, (Option.get (ws7.mint) (by decide +kernel)), (Option.get ((Option.get (ws7.mint) (by decide +kernel)).target) (by decide +kernel)), by unfold State.runs; decide +kernel⟩,
   ⟨ws8, (Option.get (ws8.mint) (by decide +kernel)), (Option.get ((Option.get (ws8.mint) (by decide +kernel)).target) (by decide +kernel)), by unfold State.runs; decide +kernel⟩,
   ⟨ws9, (Option.get (ws9.mint) (by decide +kernel)), (Option.get ((Option.get (ws9.mint) (by decide +kernel)).target) (by decide +kernel)), by unfold State.runs; decide +kernel⟩,
   ⟨ws10, (Option.get (ws10.mint) (by decide +kernel)), (Option.get ((Option.get (ws10.mint) (by decide +kernel)).target) (by decide +kernel)), 32769, by unfold State.runs; decide +kernel⟩,
   ⟨ws10, (Option.get (ws10.mint) (by decide +kernel)), (Option.get ((Option.get (ws10.mint) (by decide +kernel)).target) (by decide +kernel)), 32769, by unfold State.runs; decide +kernel⟩,
   ⟨ws11, (Option.get (ws11.mint) (by decide +kernel)), (Option.get ((Option.get (ws11.mint) (by decide +kernel)).target) (by decide +kernel)), 32769, by unfold State.runs; decide +kernel⟩,
   ⟨ws11, (Option.get (ws11.mint) (by decide +kernel)), (Option.get ((Option.get (ws11.mint) (by decide +kernel)).target) (by decide +kernel)), 32769, by unfold State.runs; decide +kernel⟩,
   ⟨ws11, (Option.get (ws11.mint) (by decide +kernel)), (Option.get ((Option.get (ws11.mint) (by decide +kernel)).target) (by decide +kernel)), by unfold State.runs; decide +kernel⟩⟩

end MintSequences

namespace CodeLines

def good : BitVec 256 := withCheck 0x123456789ABCDEF
def badl : BitVec 256 := good ^^^ 1
def data (s : State) : State := ((List.range 8).foldl (fun s m => s.setReg (SUP_CSW_DATA m) (BitVec.ofNat 32 (m*0x11111111+0xF0000007))) s)
def adr (n : Nat) (t : Nat) (s : State) : State := (s.setFld SUP_CSW_ADDR_LINE n).setFld SUP_CSW_ADDR_TGT t
def cch : Tbl (List (Nat × BitVec 256)) := [(0, [(40, good), (41, badl)]), (1, [(40, 1)]), (4, [(40, good)])]
def wr (b : Bool) (n : Nat) (s : State) : State := { s with code := { s.code with write := some (b, n, good), store := [(5, 77), (n, 3)], caches := [(0, [(40, good), (n, good), (9, 1)]), (1, [(n, 1)]), (4, [(40, good)])] } }
def ln (c : CoreId) (f : Core → Core) : State := (withCore c f (withCtx (fun x => { x with r := { x.r with pc := 40 * 18 + 3 } }) { up with clk := { up.clk with pclk := 50 }, ctxs := up.ctxs }) |> (fun (s : State) => s.setCtxAt 0x4001 { s.ctxAt 0x4001 with r := { (s.ctxAt 0x4001).r with pc := 40 * 18 } })).setFld (SEQ_DET_STAT_MAXEX (corePage c)) 9
def dl (s : State) : State := { s with code := { s.code with limit := some 41, caches := cch } }
def rq (n : Nat) (a : Bool) (c : Option (BitVec 256)) (d : Nat := 52) : LineReq := { line := n, again := a, copy := c, due := d }
def rf (l : List CoreId) (s : State) : State := { s with code := { s.code with refills := l } }

def ws0 : State := (data (adr 0 0 up)).setFld DBG_AUTH_STAT_CODEWR 0
def ws1 : State := (data (adr 233017 0 up)).setFld DBG_AUTH_STAT_CODEWR 0
def ws2 : State := dl (ln (CoreId.seq 0) fun k ↦ { k with lcEn := true })
def ws3 : State := rf [CoreId.seq 0] (dl (ln (CoreId.seq 0) fun k ↦ { k with det := false, lcEn := false, held := none, lineReq := some (rq 40 false none) }))
def ws4 : State := rf [CoreId.seq 0] (dl (ln (CoreId.seq 0) fun k ↦ { k with det := false, lcEn := false, held := none, lineReq := some (rq 41 false (some good)) }))
def ws5 : State := rf [CoreId.seq 0] (dl (ln (CoreId.seq 0) fun k ↦ { k with det := false, lcEn := true, held := none, lineReq := some (rq 40 false none) }))
def ws6 : State := (rf [CoreId.seq 0] (ln (CoreId.seq 0) fun k ↦ { k with lcEn := true, lineReq := some (rq 41 true none) })).setFld SUP_CS_STAT_CHK 1
def ws7 : State := rf [CoreId.seq 0] (dl (ln (CoreId.seq 0) fun k ↦ { k with det := false, lcEn := false, held := none, lineReq := some (rq 40 true none) }))
def ws8 : State := rf [CoreId.seq 0] (dl (ln (CoreId.seq 0) fun k ↦ { k with det := true, lcEn := false, held := none, lineReq := some (rq 40 false none 30) }))

/-- States and operands that meet the hypotheses of the clauses of `CodeLines`. -/
theorem witness_CodeLines :
    (∃ (s : State) (a : Agent) (m : Nat) (b : Nat), s.writes a SUP_CSW_CTL ∧ s.on SUP_CS_STAT_BUSY = false ∧ (a = Agent.core CoreId.sup ∨ a = Agent.master ∧ s.on DBG_AUTH_STAT_CODEWR = true) ∧ (if s.on SUP_CSW_ADDR_TGT = true then 256 ≤ s.fld SUP_CSW_ADDR_LINE ∧ s.fld SUP_CSW_ADDR_LINE < 768 else s.fld SUP_CSW_ADDR_LINE < 233017) ∧ m < 8 ∧ b < 32 ∧ 32 * m + b < 252) ∧
    (∃ (s : State) (a : Agent), s.writes a SUP_CSW_CTL ∧ s.on SUP_CS_STAT_BUSY = false ∧ a = Agent.core CoreId.sup ∧ (if s.on SUP_CSW_ADDR_TGT = true then s.fld SUP_CSW_ADDR_LINE < 256 ∨ 768 ≤ s.fld SUP_CSW_ADDR_LINE else 233017 ≤ s.fld SUP_CSW_ADDR_LINE)) ∧
    (∃ (s : State) (n : Nat) (d : BitVec 256) (moth : Bool) (err : Bool) (m : Nat), s.runs ∧ s.code.write = some (moth, n, d) ∧ moth = true ∧ m ≠ n) ∧
    (∃ (s : State) (n : Nat) (d : BitVec 256) (moth : Bool) (err : Bool) (m : Nat), s.runs ∧ s.code.write = some (moth, n, d) ∧ moth = false ∧ m ≠ n) ∧
    (∃ (s : State) (n : Nat) (d : BitVec 256) (moth : Bool) (err : Bool) (k : Nat) (x : BitVec 256), s.runs ∧ s.code.write = some (moth, n, d) ∧ moth = false ∧ k < 5) ∧
    (∃ (s : State) (n : Nat) (d : BitVec 256) (moth : Bool) (err : Bool) (k : Nat) (m : Nat) (x : BitVec 256), s.runs ∧ s.code.write = some (moth, n, d) ∧ moth = false ∧ m ≠ n) ∧
    (∃ (s : State) (n : Nat) (d : BitVec 256) (moth : Bool) (err : Bool), s.runs ∧ s.code.write = some (moth, n, d) ∧ moth = false ∧ err = false) ∧
    (∃ (s : State) (n : Nat) (d : BitVec 256) (moth : Bool) (err : Bool), s.runs ∧ s.code.write = some (moth, n, d) ∧ moth = false ∧ err = true) ∧
    (∃ (s : State) (n : Nat) (d : BitVec 256) (moth : Bool) (err : Bool) (k : Nat), s.runs ∧ s.code.write = some (moth, n, d) ∧ moth = false ∧ n ≤ 28 ∧ k < 37) ∧
    (∃ (s : State) (a : Agent), s.writes a SUP_CS_CFG) ∧
    (∃ (s : State) (c : CoreId) (v : View) (n : BitVec 18) (d : BitVec 256), coreBuilt s.build c = true ∧ s.coreOff c = false ∧ c ≠ CoreId.moth ∧ s.view c = some v ∧ (s.core c).released = true ∧ (s.core c).lineReq = none ∧ n.toNat < 233017 ∧ (s.core c).line n.toNat = none ∧ (s.core c).badLine ≠ some n.toNat ∧ (n.toNat = BitVec.toNat v.regs.pc / 18 ∨ n.toNat = BitVec.toNat v.regs.pc / 18 + 1 ∧ (s.core c).det = false ∧ (s.core c).line (BitVec.toNat v.regs.pc / 18) ≠ none ∧ (s.core c).badLine ≠ some (BitVec.toNat v.regs.pc / 18)) ∧ (s.core c).det = false ∧ (s.core c).lcEn = true ∧ s.cached c n.toNat = some d) ∧
    (∃ (s : State) (c : CoreId) (v : View) (n : BitVec 18) (j : Nat), coreBuilt s.build c = true ∧ s.coreOff c = false ∧ c ≠ CoreId.moth ∧ s.view c = some v ∧ (s.core c).released = true ∧ (s.core c).lineReq = none ∧ n.toNat < 233017 ∧ (s.core c).line n.toNat = none ∧ (s.core c).badLine ≠ some n.toNat ∧ (n.toNat = BitVec.toNat v.regs.pc / 18 ∨ n.toNat = BitVec.toNat v.regs.pc / 18 + 1 ∧ (s.core c).det = false ∧ (s.core c).line (BitVec.toNat v.regs.pc / 18) ≠ none ∧ (s.core c).badLine ≠ some (BitVec.toNat v.regs.pc / 18)) ∧ ((s.core c).det = true ∨ (s.core c).lcEn = false ∨ s.cached c n.toNat = none) ∧ (∀ (x : CoreId), coreBuilt s.build x = true → x ≠ CoreId.moth → (s.core x).det = true → ((s.core c).det = true → portRank x < portRank c) → s.wantedLine x = none) ∧ List.countP (fun x ↦ decide ((cacheOf x).fst = (cacheOf c).fst)) s.refilling < 4 ∧ j ≠ coreKey c) ∧
    (∃ (s : State) (c : CoreId) (q : LineReq) (w : BitVec 252) (chk : BitVec 4) (err : Bool) (v : View) (j : Nat), coreBuilt s.build c = true ∧ s.coreOff c = false ∧ c ≠ CoreId.moth ∧ (s.core c).lineReq = some q ∧ s.view c = some v ∧ (q.copy ≠ none ∨ if (s.core c).det = true then q.due ≤ s.clk.pclk else s.refilling.head? = some c) ∧ j ≠ coreKey c) ∧
    (∃ (s : State) (c : CoreId) (q : LineReq) (w : BitVec 252) (chk : BitVec 4) (err : Bool) (v : View), coreBuilt s.build c = true ∧ s.coreOff c = false ∧ c ≠ CoreId.moth ∧ (s.core c).lineReq = some q ∧ s.view c = some v ∧ (q.copy ≠ none ∨ if (s.core c).det = true then q.due ≤ s.clk.pclk else s.refilling.head? = some c) ∧ (err = false ∧ lineOk (q.copy.getD (chk ++ w)) = true ∧ (q.copy = none → s.lineBarred q.line = false)) ∧ q.line = BitVec.toNat v.regs.pc / 18) ∧
    (∃ (s : State) (c : CoreId) (q : LineReq) (w : BitVec 252) (chk : BitVec 4) (err : Bool) (v : View), coreBuilt s.build c = true ∧ s.coreOff c = false ∧ c ≠ CoreId.moth ∧ (s.core c).lineReq = some q ∧ s.view c = some v ∧ (q.copy ≠ none ∨ if (s.core c).det = true then q.due ≤ s.clk.pclk else s.refilling.head? = some c) ∧ (err = false ∧ lineOk (q.copy.getD (chk ++ w)) = true ∧ (q.copy = none → s.lineBarred q.line = false)) ∧ q.line = BitVec.toNat v.regs.pc / 18 + 1 ∧ (s.core c).det = false) ∧
    (∃ (s : State) (c : CoreId) (q : LineReq) (w : BitVec 252) (chk : BitVec 4) (err : Bool) (v : View), coreBuilt s.build c = true ∧ s.coreOff c = false ∧ c ≠ CoreId.moth ∧ (s.core c).lineReq = some q ∧ s.view c = some v ∧ (q.copy ≠ none ∨ if (s.core c).det = true then q.due ≤ s.clk.pclk else s.refilling.head? = some c) ∧ (err = false ∧ lineOk (q.copy.getD (chk ++ w)) = true ∧ (q.copy = none → s.lineBarred q.line = false)) ∧ (s.core c).det = false ∧ (s.core c).lcEn = true ∧ s.code.invAt ≠ some s.clk.pclk) ∧
    (∃ (s : State) (c : CoreId) (q : LineReq) (w : BitVec 252) (chk : BitVec 4) (err : Bool) (v : View), coreBuilt s.build c = true ∧ s.coreOff c = false ∧ c ≠ CoreId.moth ∧ (s.core c).lineReq = some q ∧ s.view c = some v ∧ (q.copy ≠ none ∨ if (s.core c).det = true then q.due ≤ s.clk.pclk else s.refilling.head? = some c) ∧ (err = false ∧ lineOk (q.copy.getD (chk ++ w)) = true ∧ (q.copy = none → s.lineBarred q.line = false)) ∧ ((s.core c).det = true ∨ (s.core c).lcEn = false ∨ s.code.invAt = some s.clk.pclk)) ∧
    (∃ (s : State) (c : CoreId) (q : LineReq) (w : BitVec 252) (chk : BitVec 4) (err : Bool) (v : View), coreBuilt s.build c = true ∧ s.coreOff c = false ∧ c ≠ CoreId.moth ∧ (s.core c).lineReq = some q ∧ s.view c = some v ∧ (q.copy ≠ none ∨ if (s.core c).det = true then q.due ≤ s.clk.pclk else s.refilling.head? = some c) ∧ (¬(err = false ∧ lineOk (q.copy.getD (chk ++ w)) = true ∧ (q.copy = none → s.lineBarred q.line = false))) ∧ s.on SUP_CS_STAT_CHK = false ∧ q.line < 2 ^ 18) ∧
    (∃ (s : State) (c : CoreId) (q : LineReq) (w : BitVec 252) (chk : BitVec 4) (err : Bool) (v : View), coreBuilt s.build c = true ∧ s.coreOff c = false ∧ c ≠ CoreId.moth ∧ (s.core c).lineReq = some q ∧ s.view c = some v ∧ (q.copy ≠ none ∨ if (s.core c).det = true then q.due ≤ s.clk.pclk else s.refilling.head? = some c) ∧ (¬(err = false ∧ lineOk (q.copy.getD (chk ++ w)) = true ∧ (q.copy = none → s.lineBarred q.line = false))) ∧ s.on SUP_CS_STAT_CHK = true) ∧
    (∃ (s : State) (c : CoreId) (q : LineReq) (w : BitVec 252) (chk : BitVec 4) (err : Bool) (v : View), coreBuilt s.build c = true ∧ s.coreOff c = false ∧ c ≠ CoreId.moth ∧ (s.core c).lineReq = some q ∧ s.view c = some v ∧ (q.copy ≠ none ∨ if (s.core c).det = true then q.due ≤ s.clk.pclk else s.refilling.head? = some c) ∧ (¬(err = false ∧ lineOk (q.copy.getD (chk ++ w)) = true ∧ (q.copy = none → s.lineBarred q.line = false))) ∧ q.again = false) ∧
    (∃ (s : State) (c : CoreId) (q : LineReq) (w : BitVec 252) (chk : BitVec 4) (err : Bool) (v : View), coreBuilt s.build c = true ∧ s.coreOff c = false ∧ c ≠ CoreId.moth ∧ (s.core c).lineReq = some q ∧ s.view c = some v ∧ (q.copy ≠ none ∨ if (s.core c).det = true then q.due ≤ s.clk.pclk else s.refilling.head? = some c) ∧ (¬(err = false ∧ lineOk (q.copy.getD (chk ++ w)) = true ∧ (q.copy = none → s.lineBarred q.line = false))) ∧ q.again = true) ∧
    (∃ (s : State) (c : CoreId) (q : LineReq) (w : BitVec 252) (chk : BitVec 4) (err : Bool) (v : View) (m : Nat), coreBuilt s.build c = true ∧ s.coreOff c = false ∧ c ≠ CoreId.moth ∧ (s.core c).lineReq = some q ∧ s.view c = some v ∧ (q.copy ≠ none ∨ if (s.core c).det = true then q.due ≤ s.clk.pclk else s.refilling.head? = some c) ∧ m ≠ (cacheOf c).fst) ∧
    (∃ (s : State) (c : CoreId) (q : LineReq) (w : BitVec 252) (chk : BitVec 4) (err : Bool) (v : View), coreBuilt s.build c = true ∧ s.coreOff c = false ∧ c ≠ CoreId.moth ∧ (s.core c).lineReq = some q ∧ s.view c = some v ∧ (q.copy ≠ none ∨ if (s.core c).det = true then q.due ≤ s.clk.pclk else s.refilling.head? = some c) ∧ (s.core c).det = true ∧ q.copy = none ∧ q.due < s.clk.pclk) ∧
    (∃ (s : State) (c : CoreId), coreBuilt s.build c = true ∧ s.coreOff c = false ∧ c ≠ CoreId.moth ∧ (s.core c).flight = []) :=
  ⟨⟨ws0, (Agent.core CoreId.sup), 7, 9, by and_intros <;> first | decide +kernel | (unfold State.allows; decide +kernel) | (intro c h; cases h <;> decide +kernel)⟩,
   ⟨ws1, (Agent.core CoreId.sup), by and_intros <;> first | decide +kernel | (unfold State.allows; decide +kernel) | (intro c h; cases h <;> decide +kernel)⟩,
   ⟨(wr true 300 up), 300, good, true, false, 233016, by unfold State.runs; decide +kernel⟩,
   ⟨(wr false 28 up), 28, good, false, false, 233016, by unfold State.runs; decide +kernel⟩,
   ⟨(wr false 28 up), 28, good, false, false, 4, 0, by unfold State.runs; decide +kernel⟩,
   ⟨(wr false 28 up), 28, good, false, false, 233016, 233016, 0, by unfold State.runs; decide +kernel⟩,
   ⟨(wr false 28 up), 28, good, false, false, by unfold State.runs; decide +kernel⟩,
   ⟨(wr false 28 up), 28, good, false, true, by unfold State.runs; decide +kernel⟩,
   ⟨(wr false 28 up), 28, good, false, false, 36, by unfold State.runs; decide +kernel⟩,
   ⟨ws0, (Agent.core (CoreId.seq 0)), by and_intros <;> first | decide +kernel | (unfold State.allows; decide +kernel) | (intro c h; cases h <;> decide +kernel)⟩,
   ⟨ws2, (CoreId.seq 0), (Option.get (ws2.view (CoreId.seq 0)) (by decide +kernel)), 40, (Option.get (ws2.cached (CoreId.seq 0) 40) (by decide +kernel)), by decide +kernel⟩,
   ⟨(ln (CoreId.seq 0) id), (CoreId.seq 0), (Option.get ((ln (CoreId.seq 0) id).view (CoreId.seq 0)) (by decide +kernel)), 40, 233016, by
     and_intros <;> try decide +kernel
     intro x hb _ hd
     refine absurd hd ?_
     rw [show ((ln (CoreId.seq 0) id).core x).det = false from match x, hb with
       | .seq n, hb => (show ∀ n, n < (ln (CoreId.seq 0) id).build.seqs → ((ln (CoreId.seq 0) id).core (.seq n)).det = false by decide +kernel)
           n (of_decide_eq_true hb)
       | .sup, _ => by decide +kernel
       | .moth, _ => by decide +kernel]
     exact Bool.false_ne_true⟩,
   ⟨ws3, (CoreId.seq 0), (Option.get ((ws3.core (CoreId.seq 0)).lineReq) (by decide +kernel)), 1, 1, false, (Option.get (ws3.view (CoreId.seq 0)) (by decide +kernel)), 233016, by decide +kernel⟩,
   ⟨ws3, (CoreId.seq 0), (Option.get ((ws3.core (CoreId.seq 0)).lineReq) (by decide +kernel)), 1, 1, false, (Option.get (ws3.view (CoreId.seq 0)) (by decide +kernel)), by decide +kernel⟩,
   ⟨ws4, (CoreId.seq 0), (Option.get ((ws4.core (CoreId.seq 0)).lineReq) (by decide +kernel)), 1, 1, false, (Option.get (ws4.view (CoreId.seq 0)) (by decide +kernel)), by decide +kernel⟩,
   ⟨ws5, (CoreId.seq 0), (Option.get ((ws5.core (CoreId.seq 0)).lineReq) (by decide +kernel)), 1, 1, false, (Option.get (ws5.view (CoreId.seq 0)) (by decide +kernel)), by decide +kernel⟩,
   ⟨ws3, (CoreId.seq 0), (Option.get ((ws3.core (CoreId.seq 0)).lineReq) (by decide +kernel)), 1, 1, false, (Option.get (ws3.view (CoreId.seq 0)) (by decide +kernel)), by decide +kernel⟩,
   ⟨ws3, (CoreId.seq 0), (Option.get ((ws3.core (CoreId.seq 0)).lineReq) (by decide +kernel)), 1, 1, true, (Option.get (ws3.view (CoreId.seq 0)) (by decide +kernel)), by decide +kernel⟩,
   ⟨ws6, (CoreId.seq 0), (Option.get ((ws6.core (CoreId.seq 0)).lineReq) (by decide +kernel)), 1, 1, true, (Option.get (ws6.view (CoreId.seq 0)) (by decide +kernel)), by decide +kernel⟩,
   ⟨ws3, (CoreId.seq 0), (Option.get ((ws3.core (CoreId.seq 0)).lineReq) (by decide +kernel)), 1, 1, true, (Option.get (ws3.view (CoreId.seq 0)) (by decide +kernel)), by decide +kernel⟩,
   ⟨ws7, (CoreId.seq 0), (Option.get ((ws7.core (CoreId.seq 0)).lineReq) (by decide +kernel)), 1, 1, true, (Option.get (ws7.view (CoreId.seq 0)) (by decide +kernel)), by decide +kernel⟩,
   ⟨ws3, (CoreId.seq 0), (Option.get ((ws3.core (CoreId.seq 0)).lineReq) (by decide +kernel)), 1, 1, false, (Option.get (ws3.view (CoreId.seq 0)) (by decide +kernel)), 233016, by decide +kernel⟩,
   ⟨ws8, (CoreId.seq 0), (Option.get ((ws8.core (CoreId.seq 0)).lineReq) (by decide +kernel)), 1, 1, false, (Option.get (ws8.view (CoreId.seq 0)) (by decide +kernel)), by decide +kernel⟩,
   ⟨ws0, (CoreId.seq 0), by decide +kernel⟩⟩

end CodeLines

namespace BulkPorts

def evOn (e : Nat) (s : State) : State := { s with evc := { s.evc with src := [(e, { s.source e with cfg := 0x11 })] } }
def bm (n : Nat) (b : Bmp) (s : State) : State := { s with bmp := Tbl.set Bmp.init n b s.bmp }
def tb (x : Nat) (s : State) : State := { s with clk := { s.clk with tb := BitVec.ofNat 64 x } }
def tr : State := bm 0 { Bmp.init with trainTb := some 100 } (tb 200 (((evOn 212 up).setFld (BMP_STAT_TRAINED 0) 1).setFld (BMP_CTRL_TRAIN 0) 1))
def lat : State := tb 40000000101 tr
def flt (tok : Nat) (k : FKind) : Flight := { tok := tok, kind := k, addr := BitVec.ofNat 40 0x8000000023, cap := capOf 0x8000000000 64 3, regs := { Regs.init with pc := 0xFE }, bank := bank [1,2] [], fail := none, done := false, got := none, young := 0, since := 0 }
def rd : State := bm 0 { Bmp.init with reads := [(3, .seq 0, 5, 0x1256)] } (withCore (.seq 0) (fun k => { k with flight := [flt 5 (.load 1 2)], tok := 7 }) (evOn 212 (run [1,2,3])))
def ue (s : State) : State := s.setFld (BMP_STAT_UE 0) 1
def cpy (src dst len : Nat) (s : State) : State := ((((s.setReg (BMP_CPY_SRC_LO 0) (BitVec.ofNat 32 src)).setReg (BMP_CPY_SRC_HI 0) (BitVec.ofNat 32 (src / 2^32))).setReg (BMP_CPY_DST_LO 0) (BitVec.ofNat 32 dst)).setReg (BMP_CPY_DST_HI 0) (BitVec.ofNat 32 (dst / 2^32))).setFld (BMP_CPY_CMD_LEN 0) len
def trained (s : State) : State := ((List.range 8).foldl (fun s n => s.setFld (BMP_STAT_TRAINED n) 1 |>.setReg (BMP_CAP n) 0xFFFF |>.setFld (BMP_CTRL_EN n) 1) (s.setReg BMP_ILV 0x100))
def busy (view grp : Nat) (s : State) : State := (((s.setFld (BMP_STAT_CPY_BUSY 0) 1).setFld (BMP_CPY_CTL_VIEW 0) view).setFld (BMP_CPY_CTL_GROUP 0) grp).setFld (BMP_CPY_CTL_GO 0) 1
def ab (s : State) : State := bm 0 { Bmp.init with abort := true } s
def frz (s : State) : State := s.setFld EPC_STAT_FROZEN 1
def cpyOf (r : Except Nat (Nat × Nat)) : Option Nat := match r with | .ok (p, _) => some p | _ => none

def ws0 : State := trained (evOn 212 (id (cpy 549755813893 32 1 up)))
def ws1 : State := trained (evOn 212 (busy 2 5 (cpy 549755813893 32 1 up)))
def ws2 : State := trained (evOn 212 (busy 2 5 (cpy 549755813893 32 2 up)))
def ws3 : State := trained (evOn 212 (ab (busy 2 5 (cpy 549755813893 32 2 up))))
def ws4 : State := frz (trained (busy 2 5 (cpy 549755813893 32 2 up)))
def ws5 : State := trained (evOn 212 (busy 2 5 (cpy 32 549755813893 1 up)))
def ws6 : State := trained (evOn 212 (busy 2 5 (cpy 32 549755813893 2 up)))
def ws7 : State := trained (evOn 212 (ab (busy 2 5 (cpy 32 549755813893 2 up))))

/-- States and operands that meet the hypotheses of the clauses of `BulkPorts`. -/
theorem witness_BulkPorts :
    (∃ (s : State) (n : Nat) (m : Nat), s.runs ∧ s.hasBmp n = true ∧ (s.bmpOf n).trainTb = none ∧ m ≠ n) ∧
    (∃ (s : State) (n : Nat) (cap : BitVec 16) (rd : BitVec 8) (wr : BitVec 8) (rep : BitVec 8), s.runs ∧ s.hasBmp n = true ∧ (s.bmpOf n).trainTb ≠ none ∧ (¬∃ t, (s.bmpOf n).trainTb = some t ∧ t.toNat + s.fld (BMP_CTRL_TRN_TIMEOUT n) * 1000000 < s.clk.tb.toNat) ∧ s.fld HLT_LANE_CFG_THR ≤ rd.toNat ∧ s.fld HLT_LANE_CFG_THR ≤ wr.toNat) ∧
    (∃ (s : State) (n : Nat), s.runs ∧ s.hasBmp n = true ∧ ∃ t, (s.bmpOf n).trainTb = some t ∧ t.toNat + s.fld (BMP_CTRL_TRN_TIMEOUT n) * 1000000 < s.clk.tb.toNat) ∧
    (∃ (s : State) (n : Nat) (p : Nat) (q : Nat) (tag : BitVec 6) (c : CoreId) (tok : Nat) (a : BitVec 40) (data : BitVec 1024) (stat : BitVec 2) (f : Flight) (v : View) (j : Nat), s.runs ∧ s.hasBmp n = true ∧ (s.bmpOf n).reads = [(tag, c, tok, a)] ∧ s.view c = some v ∧ (s.core c).flight = [f] ∧ f.tok = tok ∧ f.kind = FKind.load p q ∧ f.fail = none ∧ f.done = false ∧ tok < 2 ^ 64 ∧ stat.toNat < 2 ∧ j < q) ∧
    (∃ (s : State) (n : Nat) (p : Nat) (q : Nat) (tag : BitVec 6) (c : CoreId) (tok : Nat) (a : BitVec 40) (data : BitVec 1024) (stat : BitVec 2) (f : Flight) (v : View), s.runs ∧ s.hasBmp n = true ∧ (s.bmpOf n).reads = [(tag, c, tok, a)] ∧ s.view c = some v ∧ (s.core c).flight = [f] ∧ f.tok = tok ∧ f.kind = FKind.load p q ∧ f.fail = none ∧ f.done = false ∧ tok < 2 ^ 64 ∧ 2 ≤ stat.toNat ∧ s.on (BMP_STAT_UE n) = true) ∧
    (∃ (s : State) (n : Nat) (p : Nat) (q : Nat) (tag : BitVec 6) (c : CoreId) (tok : Nat) (a : BitVec 40) (data : BitVec 1024) (stat : BitVec 2) (f : Flight) (v : View), s.runs ∧ s.hasBmp n = true ∧ (s.bmpOf n).reads = [(tag, c, tok, a)] ∧ s.view c = some v ∧ (s.core c).flight = [f] ∧ f.tok = tok ∧ f.kind = FKind.load p q ∧ f.fail = none ∧ f.done = false ∧ tok < 2 ^ 64 ∧ 2 ≤ stat.toNat ∧ s.on (BMP_STAT_UE n) = false) ∧
    (∃ (s : State) (v : Reg), s.crp.live = true ∧ (∀ (n : Nat), n < s.build.bmps → s.on (BMP_STAT_CPY_BUSY n) = false ∧ (s.bmpOf n).reads = []) ∧ List.countP (fun i ↦ (BitVec.toNat v / 256 % 2 ^ s.build.bmps).testBit i) (List.range 8) = 2 ^ (BitVec.toNat v % 4)) ∧
    (∃ (s : State) (v : Reg), s.crp.live = true ∧ ((¬∀ (n : Nat), n < s.build.bmps → s.on (BMP_STAT_CPY_BUSY n) = false ∧ (s.bmpOf n).reads = []) ∨ List.countP (fun i ↦ (BitVec.toNat v / 256 % 2 ^ s.build.bmps).testBit i) (List.range 8) ≠ 2 ^ (BitVec.toNat v % 4))) ∧
    (∃ (s : State) (n : Nat) (v : Reg), s.runs ∧ s.hasBmp n = true ∧ s.on (BMP_STAT_CPY_BUSY n) = false ∧ (¬(549755813888 ≤ (s.reg64 (BMP_CPY_SRC_LO n) (BMP_CPY_SRC_HI n)).toNat / 8 * 8 ∧ (s.reg64 (BMP_CPY_DST_LO n) (BMP_CPY_DST_HI n)).toNat / 8 * 8 < s.build.granules * 8 ∨ (s.reg64 (BMP_CPY_SRC_LO n) (BMP_CPY_SRC_HI n)).toNat / 8 * 8 < s.build.granules * 8 ∧ 549755813888 ≤ (s.reg64 (BMP_CPY_DST_LO n) (BMP_CPY_DST_HI n)).toNat / 8 * 8) ∨ BitVec.toNat v / 256 % 4 = 3 ∨ BitVec.toNat v / 256 % 4 = 1 ∧ (s.reg64 (BMP_CPY_DST_LO n) (BMP_CPY_DST_HI n)).toNat / 8 * 8 < s.build.granules * 8)) ∧
    (∃ (s : State) (n : Nat) (v : Reg), s.runs ∧ s.hasBmp n = true ∧ s.on (BMP_STAT_CPY_BUSY n) = false ∧ (¬(¬(549755813888 ≤ (s.reg64 (BMP_CPY_SRC_LO n) (BMP_CPY_SRC_HI n)).toNat / 8 * 8 ∧ (s.reg64 (BMP_CPY_DST_LO n) (BMP_CPY_DST_HI n)).toNat / 8 * 8 < s.build.granules * 8 ∨ (s.reg64 (BMP_CPY_SRC_LO n) (BMP_CPY_SRC_HI n)).toNat / 8 * 8 < s.build.granules * 8 ∧ 549755813888 ≤ (s.reg64 (BMP_CPY_DST_LO n) (BMP_CPY_DST_HI n)).toNat / 8 * 8) ∨ BitVec.toNat v / 256 % 4 = 3 ∨ BitVec.toNat v / 256 % 4 = 1 ∧ (s.reg64 (BMP_CPY_DST_LO n) (BMP_CPY_DST_HI n)).toNat / 8 * 8 < s.build.granules * 8)) ∧ 0 < s.fld (BMP_CPY_CMD_LEN n)) ∧
    (∃ (s : State) (n : Nat) (m : Nat), s.runs ∧ s.hasBmp n = true ∧ m ≠ n) ∧
    (∃ (s : State) (n : Nat) (data : Gran) (stat : BitVec 2) (us : List Upset) (p : Nat), s.runs ∧ s.hasBmp n = true ∧ s.on (BMP_STAT_CPY_BUSY n) = true ∧ s.mem.init = none ∧ 0 < s.fld (BMP_CPY_CMD_LEN n) ∧ s.arb.reqs = [] ∧ s.endedOf (Dest.copy n) = none ∧ s.underway (Dest.copy n) = false ∧ 549755813888 ≤ (s.reg64 (BMP_CPY_SRC_LO n) (BMP_CPY_SRC_HI n)).toNat / 8 * 8 ∧ (s.reg64 (BMP_CPY_DST_LO n) (BMP_CPY_DST_HI n)).toNat / 8 * 8 < s.build.granules * 8 ∧ cpyOf (s.cpyBulk ((s.reg64 (BMP_CPY_SRC_LO n) (BMP_CPY_SRC_HI n)).toNat / 8 * 8)) = some p ∧ s.holds { dest := Dest.copy n, port := 72, gran := (s.reg64 (BMP_CPY_DST_LO n) (BMP_CPY_DST_HI n)).toNat / 8 * 8 / 8, view := BitVec.ofNat 2 (s.fld (BMP_CPY_CTL_VIEW n)), group := BitVec.ofNat 6 (s.fld (BMP_CPY_CTL_GROUP n)), owner := 16384, kind := Kind.write data 65535 false } = false ∧ stat.toNat < 2 ∧ (List.filter (fun i ↦ decide (i < 512 ∧ (s.entry (512 * bankOf s.build ((s.reg64 (BMP_CPY_DST_LO n) (BMP_CPY_DST_HI n)).toNat / 8 * 8 / 8) + i)).home.toNat = homeOf s.build ((s.reg64 (BMP_CPY_DST_LO n) (BMP_CPY_DST_HI n)).toNat / 8 * 8 / 8) ∧ s.estateAt (bankOf s.build ((s.reg64 (BMP_CPY_DST_LO n) (BMP_CPY_DST_HI n)).toNat / 8 * 8 / 8)) i ≠ EState.free ∧ s.estateAt (bankOf s.build ((s.reg64 (BMP_CPY_DST_LO n) (BMP_CPY_DST_HI n)).toNat / 8 * 8 / 8)) i ≠ EState.borrowed)) (List.range 512)).length < 2 ∧ s.refusal { dest := Dest.copy n, port := 72, gran := (s.reg64 (BMP_CPY_DST_LO n) (BMP_CPY_DST_HI n)).toNat / 8 * 8 / 8, view := BitVec.ofNat 2 (s.fld (BMP_CPY_CTL_VIEW n)), group := BitVec.ofNat 6 (s.fld (BMP_CPY_CTL_GROUP n)), owner := 16384, kind := Kind.write data 65535 false } = none ∧ s.fld (BMP_CPY_CMD_LEN n) = 1) ∧
    (∃ (s : State) (n : Nat) (data : Gran) (stat : BitVec 2) (us : List Upset) (p : Nat), s.runs ∧ s.hasBmp n = true ∧ s.on (BMP_STAT_CPY_BUSY n) = true ∧ s.mem.init = none ∧ 0 < s.fld (BMP_CPY_CMD_LEN n) ∧ s.arb.reqs = [] ∧ s.endedOf (Dest.copy n) = none ∧ s.underway (Dest.copy n) = false ∧ 549755813888 ≤ (s.reg64 (BMP_CPY_SRC_LO n) (BMP_CPY_SRC_HI n)).toNat / 8 * 8 ∧ (s.reg64 (BMP_CPY_DST_LO n) (BMP_CPY_DST_HI n)).toNat / 8 * 8 < s.build.granules * 8 ∧ cpyOf (s.cpyBulk ((s.reg64 (BMP_CPY_SRC_LO n) (BMP_CPY_SRC_HI n)).toNat / 8 * 8)) = some p ∧ s.holds { dest := Dest.copy n, port := 72, gran := (s.reg64 (BMP_CPY_DST_LO n) (BMP_CPY_DST_HI n)).toNat / 8 * 8 / 8, view := BitVec.ofNat 2 (s.fld (BMP_CPY_CTL_VIEW n)), group := BitVec.ofNat 6 (s.fld (BMP_CPY_CTL_GROUP n)), owner := 16384, kind := Kind.write data 65535 false } = false ∧ stat.toNat < 2 ∧ (List.filter (fun i ↦ decide (i < 512 ∧ (s.entry (512 * bankOf s.build ((s.reg64 (BMP_CPY_DST_LO n) (BMP_CPY_DST_HI n)).toNat / 8 * 8 / 8) + i)).home.toNat = homeOf s.build ((s.reg64 (BMP_CPY_DST_LO n) (BMP_CPY_DST_HI n)).toNat / 8 * 8 / 8) ∧ s.estateAt (bankOf s.build ((s.reg64 (BMP_CPY_DST_LO n) (BMP_CPY_DST_HI n)).toNat / 8 * 8 / 8)) i ≠ EState.free ∧ s.estateAt (bankOf s.build ((s.reg64 (BMP_CPY_DST_LO n) (BMP_CPY_DST_HI n)).toNat / 8 * 8 / 8)) i ≠ EState.borrowed)) (List.range 512)).length < 2 ∧ s.refusal { dest := Dest.copy n, port := 72, gran := (s.reg64 (BMP_CPY_DST_LO n) (BMP_CPY_DST_HI n)).toNat / 8 * 8 / 8, view := BitVec.ofNat 2 (s.fld (BMP_CPY_CTL_VIEW n)), group := BitVec.ofNat 6 (s.fld (BMP_CPY_CTL_GROUP n)), owner := 16384, kind := Kind.write data 65535 false } = none ∧ 1 < s.fld (BMP_CPY_CMD_LEN n) ∧ (s.bmpOf n).abort = false) ∧
    (∃ (s : State) (n : Nat) (data : Gran) (stat : BitVec 2) (us : List Upset) (p : Nat), s.runs ∧ s.hasBmp n = true ∧ s.on (BMP_STAT_CPY_BUSY n) = true ∧ s.mem.init = none ∧ 0 < s.fld (BMP_CPY_CMD_LEN n) ∧ s.arb.reqs = [] ∧ s.endedOf (Dest.copy n) = none ∧ s.underway (Dest.copy n) = false ∧ 549755813888 ≤ (s.reg64 (BMP_CPY_SRC_LO n) (BMP_CPY_SRC_HI n)).toNat / 8 * 8 ∧ (s.reg64 (BMP_CPY_DST_LO n) (BMP_CPY_DST_HI n)).toNat / 8 * 8 < s.build.granules * 8 ∧ cpyOf (s.cpyBulk ((s.reg64 (BMP_CPY_SRC_LO n) (BMP_CPY_SRC_HI n)).toNat / 8 * 8)) = some p ∧ s.holds { dest := Dest.copy n, port := 72, gran := (s.reg64 (BMP_CPY_DST_LO n) (BMP_CPY_DST_HI n)).toNat / 8 * 8 / 8, view := BitVec.ofNat 2 (s.fld (BMP_CPY_CTL_VIEW n)), group := BitVec.ofNat 6 (s.fld (BMP_CPY_CTL_GROUP n)), owner := 16384, kind := Kind.write data 65535 false } = false ∧ stat.toNat < 2 ∧ (List.filter (fun i ↦ decide (i < 512 ∧ (s.entry (512 * bankOf s.build ((s.reg64 (BMP_CPY_DST_LO n) (BMP_CPY_DST_HI n)).toNat / 8 * 8 / 8) + i)).home.toNat = homeOf s.build ((s.reg64 (BMP_CPY_DST_LO n) (BMP_CPY_DST_HI n)).toNat / 8 * 8 / 8) ∧ s.estateAt (bankOf s.build ((s.reg64 (BMP_CPY_DST_LO n) (BMP_CPY_DST_HI n)).toNat / 8 * 8 / 8)) i ≠ EState.free ∧ s.estateAt (bankOf s.build ((s.reg64 (BMP_CPY_DST_LO n) (BMP_CPY_DST_HI n)).toNat / 8 * 8 / 8)) i ≠ EState.borrowed)) (List.range 512)).length < 2 ∧ s.refusal { dest := Dest.copy n, port := 72, gran := (s.reg64 (BMP_CPY_DST_LO n) (BMP_CPY_DST_HI n)).toNat / 8 * 8 / 8, view := BitVec.ofNat 2 (s.fld (BMP_CPY_CTL_VIEW n)), group := BitVec.ofNat 6 (s.fld (BMP_CPY_CTL_GROUP n)), owner := 16384, kind := Kind.write data 65535 false } = none ∧ 1 < s.fld (BMP_CPY_CMD_LEN n) ∧ (s.bmpOf n).abort = true) ∧
    (∃ (s : State) (n : Nat) (data : Gran) (stat : BitVec 2) (us : List Upset) (p : Nat) (r : MemRes), s.runs ∧ s.hasBmp n = true ∧ s.on (BMP_STAT_CPY_BUSY n) = true ∧ s.mem.init = none ∧ 0 < s.fld (BMP_CPY_CMD_LEN n) ∧ s.arb.reqs = [] ∧ s.endedOf (Dest.copy n) = none ∧ s.underway (Dest.copy n) = false ∧ 549755813888 ≤ (s.reg64 (BMP_CPY_SRC_LO n) (BMP_CPY_SRC_HI n)).toNat / 8 * 8 ∧ (s.reg64 (BMP_CPY_DST_LO n) (BMP_CPY_DST_HI n)).toNat / 8 * 8 < s.build.granules * 8 ∧ cpyOf (s.cpyBulk ((s.reg64 (BMP_CPY_SRC_LO n) (BMP_CPY_SRC_HI n)).toNat / 8 * 8)) = some p ∧ s.holds { dest := Dest.copy n, port := 72, gran := (s.reg64 (BMP_CPY_DST_LO n) (BMP_CPY_DST_HI n)).toNat / 8 * 8 / 8, view := BitVec.ofNat 2 (s.fld (BMP_CPY_CTL_VIEW n)), group := BitVec.ofNat 6 (s.fld (BMP_CPY_CTL_GROUP n)), owner := 16384, kind := Kind.write data 65535 false } = false ∧ stat.toNat < 2 ∧ s.refusal { dest := Dest.copy n, port := 72, gran := (s.reg64 (BMP_CPY_DST_LO n) (BMP_CPY_DST_HI n)).toNat / 8 * 8 / 8, view := BitVec.ofNat 2 (s.fld (BMP_CPY_CTL_VIEW n)), group := BitVec.ofNat 6 (s.fld (BMP_CPY_CTL_GROUP n)), owner := 16384, kind := Kind.write data 65535 false } = some r) ∧
    (∃ (s : State) (n : Nat) (data : Gran) (stat : BitVec 2) (us : List Upset) (p : Nat), s.runs ∧ s.hasBmp n = true ∧ s.on (BMP_STAT_CPY_BUSY n) = true ∧ s.mem.init = none ∧ 0 < s.fld (BMP_CPY_CMD_LEN n) ∧ s.arb.reqs = [] ∧ s.endedOf (Dest.copy n) = none ∧ s.underway (Dest.copy n) = false ∧ 549755813888 ≤ (s.reg64 (BMP_CPY_SRC_LO n) (BMP_CPY_SRC_HI n)).toNat / 8 * 8 ∧ (s.reg64 (BMP_CPY_DST_LO n) (BMP_CPY_DST_HI n)).toNat / 8 * 8 < s.build.granules * 8 ∧ cpyOf (s.cpyBulk ((s.reg64 (BMP_CPY_SRC_LO n) (BMP_CPY_SRC_HI n)).toNat / 8 * 8)) = some p ∧ s.holds { dest := Dest.copy n, port := 72, gran := (s.reg64 (BMP_CPY_DST_LO n) (BMP_CPY_DST_HI n)).toNat / 8 * 8 / 8, view := BitVec.ofNat 2 (s.fld (BMP_CPY_CTL_VIEW n)), group := BitVec.ofNat 6 (s.fld (BMP_CPY_CTL_GROUP n)), owner := 16384, kind := Kind.write data 65535 false } = false ∧ 2 ≤ stat.toNat) ∧
    (∃ (s : State) (n : Nat) (data : Gran) (stat : BitVec 2) (p : Nat), s.runs ∧ s.hasBmp n = true ∧ s.on (BMP_STAT_CPY_BUSY n) = true ∧ s.mem.init = none ∧ 0 < s.fld (BMP_CPY_CMD_LEN n) ∧ s.arb.reqs = [] ∧ s.endedOf (Dest.copy n) = none ∧ s.underway (Dest.copy n) = false ∧ (s.reg64 (BMP_CPY_SRC_LO n) (BMP_CPY_SRC_HI n)).toNat / 8 * 8 < s.build.granules * 8 ∧ 549755813888 ≤ (s.reg64 (BMP_CPY_DST_LO n) (BMP_CPY_DST_HI n)).toNat / 8 * 8 ∧ cpyOf (s.cpyBulk ((s.reg64 (BMP_CPY_DST_LO n) (BMP_CPY_DST_HI n)).toNat / 8 * 8)) = some p ∧ s.holds { dest := Dest.copy n, port := 72, gran := (s.reg64 (BMP_CPY_SRC_LO n) (BMP_CPY_SRC_HI n)).toNat / 8 * 8 / 8, view := BitVec.ofNat 2 (s.fld (BMP_CPY_CTL_VIEW n)), group := BitVec.ofNat 6 (s.fld (BMP_CPY_CTL_GROUP n)), owner := 16384, kind := Kind.read } = false ∧ s.rowEcc (s.rowKey (bankOf s.build ((s.reg64 (BMP_CPY_SRC_LO n) (BMP_CPY_SRC_HI n)).toNat / 8 * 8 / 8)) (s.readRowOf (BitVec.ofNat 2 (s.fld (BMP_CPY_CTL_VIEW n))) (s.fld (BMP_CPY_CTL_GROUP n)) (bankOf s.build ((s.reg64 (BMP_CPY_SRC_LO n) (BMP_CPY_SRC_HI n)).toNat / 8 * 8 / 8)) (homeOf s.build ((s.reg64 (BMP_CPY_SRC_LO n) (BMP_CPY_SRC_HI n)).toNat / 8 * 8 / 8)))) = none ∧ Tbl.get none (s.rowKey (bankOf s.build ((s.reg64 (BMP_CPY_SRC_LO n) (BMP_CPY_SRC_HI n)).toNat / 8 * 8 / 8)) (s.readRowOf (BitVec.ofNat 2 (s.fld (BMP_CPY_CTL_VIEW n))) (s.fld (BMP_CPY_CTL_GROUP n)) (bankOf s.build ((s.reg64 (BMP_CPY_SRC_LO n) (BMP_CPY_SRC_HI n)).toNat / 8 * 8 / 8)) (homeOf s.build ((s.reg64 (BMP_CPY_SRC_LO n) (BMP_CPY_SRC_HI n)).toNat / 8 * 8 / 8)))) s.mem.odd = none ∧ s.fld (BMP_CPY_CMD_LEN n) = 1) ∧
    (∃ (s : State) (n : Nat) (data : Gran) (stat : BitVec 2) (p : Nat), s.runs ∧ s.hasBmp n = true ∧ s.on (BMP_STAT_CPY_BUSY n) = true ∧ s.mem.init = none ∧ 0 < s.fld (BMP_CPY_CMD_LEN n) ∧ s.arb.reqs = [] ∧ s.endedOf (Dest.copy n) = none ∧ s.underway (Dest.copy n) = false ∧ (s.reg64 (BMP_CPY_SRC_LO n) (BMP_CPY_SRC_HI n)).toNat / 8 * 8 < s.build.granules * 8 ∧ 549755813888 ≤ (s.reg64 (BMP_CPY_DST_LO n) (BMP_CPY_DST_HI n)).toNat / 8 * 8 ∧ cpyOf (s.cpyBulk ((s.reg64 (BMP_CPY_DST_LO n) (BMP_CPY_DST_HI n)).toNat / 8 * 8)) = some p ∧ s.holds { dest := Dest.copy n, port := 72, gran := (s.reg64 (BMP_CPY_SRC_LO n) (BMP_CPY_SRC_HI n)).toNat / 8 * 8 / 8, view := BitVec.ofNat 2 (s.fld (BMP_CPY_CTL_VIEW n)), group := BitVec.ofNat 6 (s.fld (BMP_CPY_CTL_GROUP n)), owner := 16384, kind := Kind.read } = false ∧ s.rowEcc (s.rowKey (bankOf s.build ((s.reg64 (BMP_CPY_SRC_LO n) (BMP_CPY_SRC_HI n)).toNat / 8 * 8 / 8)) (s.readRowOf (BitVec.ofNat 2 (s.fld (BMP_CPY_CTL_VIEW n))) (s.fld (BMP_CPY_CTL_GROUP n)) (bankOf s.build ((s.reg64 (BMP_CPY_SRC_LO n) (BMP_CPY_SRC_HI n)).toNat / 8 * 8 / 8)) (homeOf s.build ((s.reg64 (BMP_CPY_SRC_LO n) (BMP_CPY_SRC_HI n)).toNat / 8 * 8 / 8)))) = none ∧ Tbl.get none (s.rowKey (bankOf s.build ((s.reg64 (BMP_CPY_SRC_LO n) (BMP_CPY_SRC_HI n)).toNat / 8 * 8 / 8)) (s.readRowOf (BitVec.ofNat 2 (s.fld (BMP_CPY_CTL_VIEW n))) (s.fld (BMP_CPY_CTL_GROUP n)) (bankOf s.build ((s.reg64 (BMP_CPY_SRC_LO n) (BMP_CPY_SRC_HI n)).toNat / 8 * 8 / 8)) (homeOf s.build ((s.reg64 (BMP_CPY_SRC_LO n) (BMP_CPY_SRC_HI n)).toNat / 8 * 8 / 8)))) s.mem.odd = none ∧ 1 < s.fld (BMP_CPY_CMD_LEN n) ∧ (s.bmpOf n).abort = false) ∧
    (∃ (s : State) (n : Nat) (data : Gran) (stat : BitVec 2) (p : Nat), s.runs ∧ s.hasBmp n = true ∧ s.on (BMP_STAT_CPY_BUSY n) = true ∧ s.mem.init = none ∧ 0 < s.fld (BMP_CPY_CMD_LEN n) ∧ s.arb.reqs = [] ∧ s.endedOf (Dest.copy n) = none ∧ s.underway (Dest.copy n) = false ∧ (s.reg64 (BMP_CPY_SRC_LO n) (BMP_CPY_SRC_HI n)).toNat / 8 * 8 < s.build.granules * 8 ∧ 549755813888 ≤ (s.reg64 (BMP_CPY_DST_LO n) (BMP_CPY_DST_HI n)).toNat / 8 * 8 ∧ cpyOf (s.cpyBulk ((s.reg64 (BMP_CPY_DST_LO n) (BMP_CPY_DST_HI n)).toNat / 8 * 8)) = some p ∧ s.holds { dest := Dest.copy n, port := 72, gran := (s.reg64 (BMP_CPY_SRC_LO n) (BMP_CPY_SRC_HI n)).toNat / 8 * 8 / 8, view := BitVec.ofNat 2 (s.fld (BMP_CPY_CTL_VIEW n)), group := BitVec.ofNat 6 (s.fld (BMP_CPY_CTL_GROUP n)), owner := 16384, kind := Kind.read } = false ∧ s.rowEcc (s.rowKey (bankOf s.build ((s.reg64 (BMP_CPY_SRC_LO n) (BMP_CPY_SRC_HI n)).toNat / 8 * 8 / 8)) (s.readRowOf (BitVec.ofNat 2 (s.fld (BMP_CPY_CTL_VIEW n))) (s.fld (BMP_CPY_CTL_GROUP n)) (bankOf s.build ((s.reg64 (BMP_CPY_SRC_LO n) (BMP_CPY_SRC_HI n)).toNat / 8 * 8 / 8)) (homeOf s.build ((s.reg64 (BMP_CPY_SRC_LO n) (BMP_CPY_SRC_HI n)).toNat / 8 * 8 / 8)))) = none ∧ Tbl.get none (s.rowKey (bankOf s.build ((s.reg64 (BMP_CPY_SRC_LO n) (BMP_CPY_SRC_HI n)).toNat / 8 * 8 / 8)) (s.readRowOf (BitVec.ofNat 2 (s.fld (BMP_CPY_CTL_VIEW n))) (s.fld (BMP_CPY_CTL_GROUP n)) (bankOf s.build ((s.reg64 (BMP_CPY_SRC_LO n) (BMP_CPY_SRC_HI n)).toNat / 8 * 8 / 8)) (homeOf s.build ((s.reg64 (BMP_CPY_SRC_LO n) (BMP_CPY_SRC_HI n)).toNat / 8 * 8 / 8)))) s.mem.odd = none ∧ 1 < s.fld (BMP_CPY_CMD_LEN n) ∧ (s.bmpOf n).abort = true) :=
  ⟨⟨up, 7, (BMP_CPY_CMD 0), by unfold State.runs; decide +kernel⟩,
   ⟨tr, 0, 32777, 255, 255, 255, by unfold State.runs; decide +kernel, by decide +kernel, by decide +kernel,
    (fun ⟨t, h1, h2⟩ => by
      obtain rfl : (100 : BitVec 64) = t := Option.some.inj ((show (tr.bmpOf 0).trainTb = some 100 by decide +kernel).symm.trans h1)
      exact absurd h2 (by decide +kernel)), by decide +kernel, by decide +kernel⟩,
   ⟨lat, 0, by unfold State.runs; decide +kernel, by decide +kernel, 100, by decide +kernel, by decide +kernel⟩,
   ⟨rd, 0, 1, 2, 3, (CoreId.seq 0), 5, 4694, (BitVec.ofNat 1024 (1512366075204170929049582354406559215 * (2 ^ 128 + 1) * (2 ^ 256 + 5))), 1#2, (flt 5 (FKind.load 1 2)), (Option.get (rd.view (CoreId.seq 0)) (by decide +kernel)), 1, by unfold State.runs; decide +kernel⟩,
   ⟨(ue rd), 0, 1, 2, 3, (CoreId.seq 0), 5, 4694, (BitVec.ofNat 1024 (1512366075204170929049582354406559215 * (2 ^ 128 + 1) * (2 ^ 256 + 5))), 3#2, (flt 5 (FKind.load 1 2)), (Option.get ((ue rd).view (CoreId.seq 0)) (by decide +kernel)), by unfold State.runs; decide +kernel⟩,
   ⟨rd, 0, 1, 2, 3, (CoreId.seq 0), 5, 4694, (BitVec.ofNat 1024 (1512366075204170929049582354406559215 * (2 ^ 128 + 1) * (2 ^ 256 + 5))), 3#2, (flt 5 (FKind.load 1 2)), (Option.get (rd.view (CoreId.seq 0)) (by decide +kernel)), by unfold State.runs; decide +kernel⟩,
   ⟨up, 4294967295, by decide +kernel⟩,
   ⟨up, 783, by decide +kernel⟩,
   ⟨up, 7, 4294967295, by unfold State.runs; decide +kernel⟩,
   ⟨ws0, 0, 522, by unfold State.runs; decide +kernel⟩,
   ⟨up, 7, (BMP_CPY_CMD 0), by unfold State.runs; decide +kernel⟩,
   ⟨ws1, 0, 1512366075204170929049582354406559215#128, 1#2, [], (Option.get (cpyOf (ws1.cpyBulk ((ws1.reg64 (BMP_CPY_SRC_LO 0) (BMP_CPY_SRC_HI 0)).toNat / 8 * 8))) (by decide +kernel)), by unfold State.runs; decide +kernel⟩,
   ⟨ws2, 0, 1512366075204170929049582354406559215#128, 1#2, [], (Option.get (cpyOf (ws2.cpyBulk ((ws2.reg64 (BMP_CPY_SRC_LO 0) (BMP_CPY_SRC_HI 0)).toNat / 8 * 8))) (by decide +kernel)), by unfold State.runs; decide +kernel⟩,
   ⟨ws3, 0, 1512366075204170929049582354406559215#128, 1#2, [], (Option.get (cpyOf (ws3.cpyBulk ((ws3.reg64 (BMP_CPY_SRC_LO 0) (BMP_CPY_SRC_HI 0)).toNat / 8 * 8))) (by decide +kernel)), by unfold State.runs; decide +kernel⟩,
   ⟨ws4, 0, 1512366075204170929049582354406559215#128, 1#2, [], (Option.get (cpyOf (ws4.cpyBulk ((ws4.reg64 (BMP_CPY_SRC_LO 0) (BMP_CPY_SRC_HI 0)).toNat / 8 * 8))) (by decide +kernel)), (Option.get (ws4.refusal { dest := Dest.copy 0, port := 72, gran := (ws4.reg64 (BMP_CPY_DST_LO 0) (BMP_CPY_DST_HI 0)).toNat / 8 * 8 / 8, view := BitVec.ofNat 2 (ws4.fld (BMP_CPY_CTL_VIEW 0)), group := BitVec.ofNat 6 (ws4.fld (BMP_CPY_CTL_GROUP 0)), owner := 16384, kind := Kind.write 1512366075204170929049582354406559215#128 65535 false }) (by decide +kernel)), by unfold State.runs; decide +kernel⟩,
   ⟨ws1, 0, 1512366075204170929049582354406559215#128, 3#2, [], (Option.get (cpyOf (ws1.cpyBulk ((ws1.reg64 (BMP_CPY_SRC_LO 0) (BMP_CPY_SRC_HI 0)).toNat / 8 * 8))) (by decide +kernel)), by unfold State.runs; decide +kernel⟩,
   ⟨ws5, 0, 1512366075204170929049582354406559215#128, 3#2, (Option.get (cpyOf (ws5.cpyBulk ((ws5.reg64 (BMP_CPY_DST_LO 0) (BMP_CPY_DST_HI 0)).toNat / 8 * 8))) (by decide +kernel)), by unfold State.runs; decide +kernel⟩,
   ⟨ws6, 0, 1512366075204170929049582354406559215#128, 3#2, (Option.get (cpyOf (ws6.cpyBulk ((ws6.reg64 (BMP_CPY_DST_LO 0) (BMP_CPY_DST_HI 0)).toNat / 8 * 8))) (by decide +kernel)), by unfold State.runs; decide +kernel⟩,
   ⟨ws7, 0, 1512366075204170929049582354406559215#128, 3#2, (Option.get (cpyOf (ws7.cpyBulk ((ws7.reg64 (BMP_CPY_DST_LO 0) (BMP_CPY_DST_HI 0)).toNat / 8 * 8))) (by decide +kernel)), by unfold State.runs; decide +kernel⟩⟩

end BulkPorts

namespace TimerChannels

def evOn (es : List Nat) (s : State) : State := { s with evc := { s.evc with src := es.map (fun e => (e, { s.source e with cfg := 0x11 })) } }
def tb (a b : Nat) (s : State) : State := { s with clk := { s.clk with prev := BitVec.ofNat 64 a, tb := BitVec.ofNat 64 b } }
def cm (k c per cfg : Nat) (s : State) : State := ((s.setReg64 (TBU_CMP_LO k) (TBU_CMP_HI k) (BitVec.ofNat 64 c)).setReg (TBU_CMP_PER k) (BitVec.ofNat 32 per)).setReg (TBU_CMP_CFG k) (BitVec.ofNat 32 cfg)
def ev := evOn [0,1,8,32,33,47,48,51]
def gr (base per : Nat) (s : State) : State := (s.setReg64 TBU_GRP_BASE_LO TBU_GRP_BASE_HI (BitVec.ofNat 64 base)).setReg TBU_GRP_PER (BitVec.ofNat 32 per)
def cap (j cfg st : Nat) (s : State) : State := (((s.setReg (TBU_CAP_CFG j) (BitVec.ofNat 32 cfg)).setReg (TBU_CAP_STAT j) (BitVec.ofNat 32 st)).setReg64 (TBU_CAP_RISE_LO j) (TBU_CAP_RISE_HI j) 5).setReg (TBU_CAP_WIDTH j) 7

def ws0 : State := cm 0 150 0 1 (gr 1000 777 (tb 100 200 (ev up)))
def ws1 : State := cm 0 300 0 0 (gr 1000 777 (tb 100 200 (ev up)))
def ws2 : State := cm 0 150 7 0 (gr 1000 777 (tb 100 200 (ev up)))
def ws3 : State := cap 3 1 1 (tb 99 1000000 (ev up))
def ws4 : State := cap 3 1 2 (tb 99 1000000 (ev up))
def ws5 : State := cap 3 1 0 (tb 99 1000000 (ev up))

/-- States and operands that meet the hypotheses of the clauses of `TimerChannels`. -/
theorem witness_TimerChannels :
    (∃ (s : State) (k : Nat), k < 32 ∧ s.crp.live = true ∧ s.evcOn = true ∧ s.on (TBU_CMP_CFG_EN k) = true ∧ Tbl.get false k s.clk.cmpDone = false ∧ s.clk.prev.toNat < (s.cmp k).toNat ∧ (s.cmp k).toNat ≤ s.clk.tb.toNat) ∧
    (∃ (s : State) (k : Nat), k < 32 ∧ s.crp.live = true ∧ s.evcOn = true ∧ (¬(s.on (TBU_CMP_CFG_EN k) = true ∧ Tbl.get false k s.clk.cmpDone = false ∧ s.clk.prev.toNat < (s.cmp k).toNat ∧ (s.cmp k).toNat ≤ s.clk.tb.toNat))) ∧
    (∃ (s : State) (k : Nat) (v : Reg) (j : Nat), k < 32 ∧ s.crp.live = true ∧ s.evcOn = true ∧ j ≠ k) ∧
    (∃ (s : State) (k : Nat) (v : Reg), k < 32 ∧ s.crp.live = true ∧ s.evcOn = true ∧ s.on (TBU_CMP_CFG_EN k) = true ∧ (v ++ Tbl.get 0 k s.clk.loStage - s.clk.tb).toInt ≤ 0 ∧ (v ++ Tbl.get 0 k s.clk.loStage).toNat ≤ s.clk.tb.toNat) ∧
    (∃ (s : State) (k : Nat) (v : Reg), k < 32 ∧ s.crp.live = true ∧ s.evcOn = true ∧ (s.on (TBU_CMP_CFG_EN k) = false ∨ ¬(v ++ Tbl.get 0 k s.clk.loStage - s.clk.tb).toInt ≤ 0)) ∧
    (∃ (s : State) (k : Nat) (v : Reg), k < 32 ∧ s.crp.live = true ∧ s.evcOn = true ∧ BitVec.getLsbD v 0 = true ∧ s.on (TBU_CMP_CFG_EN k) = false ∧ (s.cmp k - s.clk.tb).toInt ≤ 0 ∧ (s.cmp k).toNat ≤ s.clk.tb.toNat) ∧
    (∃ (s : State) (k : Nat) (v : Reg), k < 32 ∧ s.crp.live = true ∧ s.evcOn = true ∧ BitVec.getLsbD v 0 = true ∧ s.on (TBU_CMP_CFG_EN k) = false ∧ ¬(s.cmp k - s.clk.tb).toInt ≤ 0) ∧
    (∃ (s : State) (k : Nat) (v : Reg), k < 32 ∧ s.crp.live = true ∧ s.evcOn = true ∧ BitVec.getLsbD v 24 = true ∧ BitVec.getLsbD v 25 = false ∧ (BitVec.toNat v / 256 % 64 = 0 ∨ 32 < BitVec.toNat v % 32 + BitVec.toNat v / 256 % 64)) ∧
    (∃ (s : State) (k : Nat) (v : Reg) (i : Nat), k < 32 ∧ s.crp.live = true ∧ s.evcOn = true ∧ BitVec.getLsbD v 24 = true ∧ BitVec.getLsbD v 25 = false ∧ 0 < BitVec.toNat v / 256 % 64 ∧ BitVec.toNat v % 32 + BitVec.toNat v / 256 % 64 ≤ 32 ∧ (∀ (i : Nat), i < BitVec.toNat v / 256 % 64 → s.on (TBU_CMP_CFG_EN (BitVec.toNat v % 32 + i)) = false) ∧ i < BitVec.toNat v / 256 % 64) ∧
    (∃ (s : State) (k : Nat) (v : Reg) (o : Nat), k < 32 ∧ s.crp.live = true ∧ s.evcOn = true ∧ BitVec.getLsbD v 24 = true ∧ BitVec.getLsbD v 25 = false ∧ 0 < BitVec.toNat v / 256 % 64 ∧ BitVec.toNat v % 32 + BitVec.toNat v / 256 % 64 ≤ 32 ∧ (∀ (i : Nat), i < BitVec.toNat v / 256 % 64 → s.on (TBU_CMP_CFG_EN (BitVec.toNat v % 32 + i)) = false) ∧ o ≠ TBU_GRP_CTL ∧ (∀ (i : Nat), i < BitVec.toNat v / 256 % 64 → o ≠ TBU_CMP_LO (BitVec.toNat v % 32 + i) ∧ o ≠ TBU_CMP_HI (BitVec.toNat v % 32 + i) ∧ o ≠ TBU_CMP_PER (BitVec.toNat v % 32 + i))) ∧
    (∃ (s : State) (j : Nat) (rising : Bool), j < 16 ∧ s.crp.live = true ∧ s.evcOn = true ∧ s.on (TBU_CAP_CFG_EN j) = false) ∧
    (∃ (s : State) (j : Nat) (rising : Bool), j < 16 ∧ s.crp.live = true ∧ s.evcOn = true ∧ s.on (TBU_CAP_CFG_EN j) = true ∧ (if rising = true then s.on (TBU_CAP_STAT_RV j) else s.on (TBU_CAP_STAT_FV j)) = true ∧ rising = true) ∧
    (∃ (s : State) (j : Nat) (rising : Bool), j < 16 ∧ s.crp.live = true ∧ s.evcOn = true ∧ s.on (TBU_CAP_CFG_EN j) = true ∧ (if rising = true then s.on (TBU_CAP_STAT_RV j) else s.on (TBU_CAP_STAT_FV j)) = true ∧ ¬rising = true) ∧
    (∃ (s : State) (j : Nat) (rising : Bool), j < 16 ∧ s.crp.live = true ∧ s.evcOn = true ∧ s.on (TBU_CAP_CFG_EN j) = true ∧ (if rising = true then s.on (TBU_CAP_STAT_RV j) else s.on (TBU_CAP_STAT_FV j)) = false ∧ rising = true) ∧
    (∃ (s : State) (j : Nat) (rising : Bool), j < 16 ∧ s.crp.live = true ∧ s.evcOn = true ∧ s.on (TBU_CAP_CFG_EN j) = true ∧ (if rising = true then s.on (TBU_CAP_STAT_RV j) else s.on (TBU_CAP_STAT_FV j)) = false ∧ rising = false ∧ s.on (TBU_CAP_STAT_RV j) = true) ∧
    (∃ (s : State) (j : Nat) (rising : Bool), j < 16 ∧ s.crp.live = true ∧ s.evcOn = true ∧ s.on (TBU_CAP_CFG_EN j) = true ∧ (if rising = true then s.on (TBU_CAP_STAT_RV j) else s.on (TBU_CAP_STAT_FV j)) = false ∧ rising = false ∧ s.on (TBU_CAP_STAT_RV j) = false) :=
  ⟨⟨ws0, 0, by decide +kernel⟩,
   ⟨ws0, 31, by decide +kernel⟩,
   ⟨ws0, 31, 16777216, 3, by decide +kernel⟩,
   ⟨ws0, 0, 0, by decide +kernel⟩,
   ⟨ws0, 31, 16777216, by decide +kernel⟩,
   ⟨ws0, 31, 16850975, by decide +kernel⟩,
   ⟨ws1, 0, 16850975, by decide +kernel⟩,
   ⟨ws0, 31, 16777216, by decide +kernel⟩,
   ⟨ws2, 31, 16785408, 31, by decide +kernel⟩,
   ⟨ws2, 31, 16785408, 31, by decide +kernel⟩,
   ⟨ws0, 3, false, by decide +kernel⟩,
   ⟨ws3, 3, true, by decide +kernel⟩,
   ⟨ws4, 3, false, by decide +kernel⟩,
   ⟨ws5, 3, true, by decide +kernel⟩,
   ⟨ws3, 3, false, by decide +kernel⟩,
   ⟨ws5, 3, false, by decide +kernel⟩⟩

end TimerChannels

namespace TickAndTimeSettings

def evOn (es : List Nat) (s : State) : State := { s with evc := { s.evc with src := es.map (fun e => (e, { s.source e with cfg := 0x11 })) } }
def ev := evOn [0,1,8]
def k (f : Clk → Clk) (s : State) : State := { s with clk := f s.clk }
def s0 : State := k (fun c => { c with tb := 123456, prev := 123455, per := 100000, t0 := 5, pclk := 7 }) (ev up)

def ws0 : State := s0.setFld TBU_TICK_STAT_STARTED 1
def ws1 : State := (k (fun c ↦ { c with quietDue := true }) s0).setFld TBU_TICK_CTL_EN 1
def ws2 : State := k (fun c ↦ { c with pclk := 3005 }) s0
def ws3 : State := (k (fun c ↦ { c with passed := 1, tickDone := false }) s0).setFld TBU_TICK_CTL_EN 1
def ws4 : State := ((k (fun c ↦ { c with passed := 3, tickDone := false }) s0).setFld TBU_TICK_CTL_EN 1).setFld TBU_TICK_STAT_SKIP 65534
def ws5 : State := k (fun c ↦ { c with warnDue := true }) s0
def ws6 : State := s0.setFld MOTH_WDG_STAT_ARMED 1
def ws7 : State := (s0.setFld MOTH_WDG_CFG_LOCK 1).setFld MOTH_WDG_PER_PERIOD 77

/-- States and operands that meet the hypotheses of the clauses of `TickAndTimeSettings`. -/
theorem witness_TickAndTimeSettings :
    (∃ (s : State), s.crp.live = true ∧ s.on TBU_TICK_STAT_STARTED = true) ∧
    (∃ (s : State), s.crp.live = true ∧ s.on TBU_TICK_STAT_STARTED = false ∧ s.clk.perStage = none) ∧
    (∃ (s : State), s.crp.live = true ∧ s.on TBU_TICK_CTL_EN = false) ∧
    (∃ (s : State) (v : Reg), s.crp.live = true ∧ (BitVec.toNat v % 2 ^ 27 < 20000 ∨ 100000000 < BitVec.toNat v % 2 ^ 27)) ∧
    (∃ (s : State) (v : Reg), s.crp.live = true ∧ 20000 ≤ BitVec.toNat v % 2 ^ 27 ∧ BitVec.toNat v % 2 ^ 27 ≤ 100000000) ∧
    (∃ (s : State), s.crp.live = true ∧ s.clk.quietDue = true ∧ s.on TBU_TICK_CTL_EN = true ∧ s.awake = true) ∧
    (∃ (s : State), s.crp.live = true ∧ s.awake = true ∧ s.clk.margin = false ∧ 3000 ≤ s.clk.pclk - s.clk.t0) ∧
    (∃ (s : State), s.crp.live = true ∧ s.evcOn = true ∧ s.tickDue = false) ∧
    (∃ (s : State), s.crp.live = true ∧ s.evcOn = true ∧ s.tickDue = true ∧ s.clk.passed = 1 ∧ s.awake = true ∧ s.epc.flip = none) ∧
    (∃ (s : State), s.crp.live = true ∧ s.evcOn = true ∧ s.tickDue = true ∧ (s.clk.passed ≠ 1 ∨ s.awake = false)) :=
  ⟨⟨ws0, by decide +kernel⟩,
   ⟨s0, by decide +kernel⟩,
   ⟨s0, by decide +kernel⟩,
   ⟨s0, 15451, by decide +kernel⟩,
   ⟨s0, 107971, by decide +kernel⟩,
   ⟨ws1, by decide +kernel⟩,
   ⟨ws2, by decide +kernel⟩,
   ⟨s0, by decide +kernel⟩,
   ⟨ws3, by decide +kernel⟩,
   ⟨ws4, by decide +kernel⟩⟩

/-- States and operands that meet the hypotheses of the clauses of `Watchdog`. -/
theorem witness_Watchdog :
    (∃ (s : State), s.crp.live = true ∧ s.evcOn = true ∧ s.clk.warnDue = true) ∧
    (∃ (s : State), s.crp.live = true ∧ s.evcOn = true ∧ s.on MOTH_WDG_STAT_ARMED = true) ∧
    (∃ (s : State) (key : Reg), s.crp.live = true ∧ s.evcOn = true ∧ key ≠ 42435 ∧ (key = 15450 → s.on MOTH_WDG_STAT_ARMED = false)) ∧
    (∃ (s : State) (v : Reg), s.crp.live = true ∧ s.evcOn = true ∧ s.on MOTH_WDG_CFG_LOCK = true) ∧
    (∃ (s : State) (v : Reg), s.crp.live = true ∧ s.evcOn = true ∧ s.on MOTH_WDG_CFG_LOCK = false) :=
  ⟨⟨ws5, by decide +kernel⟩,
   ⟨ws6, by decide +kernel⟩,
   ⟨s0, 107971, by decide +kernel⟩,
   ⟨ws7, 107971, by decide +kernel⟩,
   ⟨s0, 107971, by decide +kernel⟩⟩

end TickAndTimeSettings

namespace AllocatorAcceptAndGrant

def ent (slot op srcA srcB srcM imm : Nat) : Nat :=
  slot + op * 2^8 + 4 * 2^16 + 4 * 2^20 + srcA * 2^32 + srcB * 2^40 + srcM * 2^56 + imm * 2^64
def strm (creg : Nat) : Nat := 2 * 4 + creg * 16 + 4 * 2^128
/-- The granules of a descriptor of four elements with the header bits `h`. -/
def desc (h : Nat) (es ss : List Nat) : List (BitVec 128) :=
  let h := h + 1 + es.length * 2^8 + ss.length * 2^16 + 4 * 2^32 + 100000 * 2^128
  [BitVec.ofNat 128 h, BitVec.ofNat 128 (h / 2^128), 0, 0] ++ es.map (BitVec.ofNat 128) ++
    ss.flatMap (fun x => [BitVec.ofNat 128 x, BitVec.ofNat 128 (x / 2^128)])
def legal (h : Nat) : List (BitVec 128) := desc h [ent 0 1 0 0 0 0, ent 3 1 0x20 0x60 0 7, ent 9 1 0x21 0 0 1] [strm 1, strm 2]
/-- An ADD of two constants, which no stream feeds. -/
def illegal : List (BitVec 128) := desc 0 [ent 3 1 0x60 0x60 0 7, ent 3 1 0x60 0x60 0 7] []
/-- A first half whose second half lies at word `w`, and that second half. -/
def half1 (w : Nat) : List (BitVec 128) := legal (2^24 + w * 2^64)
def half2 : List (BitVec 128) := (desc (2^25) [ent 3 1 0x21 0x60 0 7, ent 9 1 0x2A 0 0 1] [strm 1, strm 2]).set 1 0

/-- The granules `gs` from word `w` of bulk memory or of stream memory. -/
def inBulk (w : Nat) (gs : List (BitVec 128)) (s : State) : State :=
  (gs.foldl (fun (a : Nat × State) g => (a.1 + 1, a.2.setScr (scrGranOfWord (w + 8 * a.1)) g 0xFFFF false)) (0, s)).2
def toGran (g : Nat) : Access := { dest := .core (.seq 0) 0, port := 40, gran := g, view := 0, group := 0, owner := 0, kind := .read }
def inStream (w : Nat) (gs : List (BitVec 128)) (s : State) : State :=
  (gs.foldl (fun (a : Nat × State) g => (a.1 + 1, (writeGranule (toGran (w / 8 + a.1)) g 0xFFFF false a.2).2)) (0, s)).2

/-- Context 3 of LS0 asks with `q`; its capability registers reach the descriptors (0 and 7), too little of one (3) and the streams' data (1, 2). -/
def asking (q : VReq) (s : State) : State :=
  withCore (.seq 0) (fun k => { k with vreq := some q }) (withCtx (fun x => { x with
    bank := bank [5, 0, 0] []
    caps := caps8 [capOf 0x10000100 0x400 0x21, capOf 0x100 64 3 2 5 3, capOf 0x200 64 3 2 6 3, capOf 0x10000100 0x20 0x21, Cap.null, Cap.null,
      capOf 0x400 0x10100000 0x21 2 5 3, capOf 0x400 0x400 0x21 2 5 3] }) (s.setFld POD_ALLOC_CFG_EN 1))
def vi (c : BitVec 3) (off : Nat := 0) : VReq := { creg := c, off := BitVec.ofNat 32 off, resume := false, since := 0 }
def vr : VReq := { vi 0 with resume := true }
def at1 (q : VReq) (gs : List (BitVec 128)) : State := asking q (inBulk 0x10000100 gs up)
/-- A zeroing pass keeps stream memory from answering. -/
def zeroing (s : State) : State := { s with mem := { s.mem with init := some 5 } }
def resuming (valid : Nat) : State :=
  withCtx (fun x => { x with vpr := BitVec.ofNat 256 (valid + 2^32 + 0x10000100 * 2^160) }) (at1 vr (legal 0))
def full (s : State) : State :=
  { s with alloc := { s.alloc with
      tickets := (List.range 16).map (fun i => (i + 5, some { st := .running, status := 0, prog := 0 })), last := [(0, 7)] } }

/-- LS0's request `q` stands and its answer can be pushed. -/
def Asks (s0 : State) (q : VReq) : Prop :=
  let s := strikeRows [] s0; let c := CoreId.seq 0; let pops := if q.resume then 0 else 2
  coreBuilt s.build c = true ∧ s.coreOff c = false ∧ s.lsOfSeq 0 = some 0 ∧ (s.core c).vreq = some q ∧ s.liveKey c = some 3 ∧
  (s.view c).any (fun v => decide (v.base ≤ v.bank.opd ∧ v.bank.opd ≤ v.ocap ∧ v.rbase ≤ v.bank.rtd ∧ v.bank.rtd ≤ v.rcap ∧
    pops ≤ v.depth ∧ v.bank.opd + 1 ≤ v.ocap + pops) && !(s.core c).pendingTop v.bank.opd pops) = true

/-- A ticket is free and the record of a resume is valid. -/
def Starts (s0 : State) (q : VReq) : Prop :=
  let s := strikeRows [] s0
  (q.resume = true → (s.ctxAt 3).vpr.getLsbD 0 = true) ∧ (s.liveTickets 0).length < 16

def capOfReq (s : State) (q : VReq) : Cap := s.capReg (.seq 0) (if q.resume then vprField (s.ctxAt 3).vpr 20 3 else q.creg.toNat)

/-- What the fetch of the descriptor answers, and that of the second half. -/
def fetched (s0 : State) (q : VReq) : Option (Except FaultRec RawChain) × State :=
  let s := strikeRows [] s0; let cap := capOfReq s q
  let w := if q.resume then vprField (s.ctxAt 3).vpr 160 40 else cap.base + q.off.toNat
  descFetch (.seq 0) 0 cap w 0 (if s.isStream w ∧ (s.descCheck 0 cap w 32).isNone then notFixed (.seq 0) s else s)
def fetched2 (s0 : State) (q : VReq) : Option (Option (Except FaultRec RawChain)) :=
  match fetched s0 q with
  | (some (.ok r), u) => some (descFetch (.seq 0) 0 (capOfReq (strikeRows [] s0) q) r.next 32 u).1
  | _ => none
def isFault : Option (Except FaultRec RawChain) → Bool
  | some (.error _) => true
  | _ => false
def isOk (pair : Bool) : Option (Except FaultRec RawChain) → Bool
  | some (.ok r) => (r.hdrOk && r.pair) == pair
  | _ => false
def isSome2 : Option (Except FaultRec RawChain) → Bool
  | some (.ok _) => true
  | _ => false

/-- Requests that are answered with ticket 0: all tickets live, and a resume whose record is not valid. -/
theorem witness_AllocatorAcceptAndGrant_zero :
    (Asks (full (at1 (vi 0) (legal 0))) (vi 0) ∧ 16 ≤ ((strikeRows [] (full (at1 (vi 0) (legal 0)))).liveTickets 0).length) ∧
    (Asks (resuming 0) vr ∧ ((strikeRows [] (resuming 0)).ctxAt 3).vpr.getLsbD 0 = false) := by
  unfold Asks; decide +kernel

/-- Requests whose descriptor has not arrived, fails a check, is legal, is illegal and is that of a resume. -/
theorem witness_AllocatorAcceptAndGrant_one :
    (Asks (zeroing (asking (vi 7) (inStream 0x400 (legal 0) up))) (vi 7) ∧ Starts (zeroing (asking (vi 7) (inStream 0x400 (legal 0) up))) (vi 7) ∧
      (fetched (zeroing (asking (vi 7) (inStream 0x400 (legal 0) up))) (vi 7)).1.isNone = true) ∧
    (Asks (at1 (vi 3) (legal 0)) (vi 3) ∧ Starts (at1 (vi 3) (legal 0)) (vi 3) ∧ isFault (fetched (at1 (vi 3) (legal 0)) (vi 3)).1 = true) ∧
    (Asks (at1 (vi 0) (legal 0)) (vi 0) ∧ Starts (at1 (vi 0) (legal 0)) (vi 0) ∧ isOk false (fetched (at1 (vi 0) (legal 0)) (vi 0)).1 = true) ∧
    (Asks (at1 (vi 0) illegal) (vi 0) ∧ Starts (at1 (vi 0) illegal) (vi 0) ∧ isOk false (fetched (at1 (vi 0) illegal) (vi 0)).1 = true) ∧
    (Asks (resuming 1) vr ∧ Starts (resuming 1) vr ∧ isOk false (fetched (resuming 1) vr).1 = true) := by
  unfold Asks Starts; decide +kernel

def pairAt (w : Nat) (q : VReq) : State := asking q (inBulk 0x10000100 (half1 w) up)
def split : VReq := vi 6 (0x10000100 - 0x400)
def later : State := zeroing (asking split (inBulk 0x10000100 (half1 0x400) (inStream 0x400 half2 up)))
def both : State := inBulk 0x10000200 half2 (pairAt 0x10000200 (vi 0))

/-- Paired requests whose second half has not arrived, fails a check and is there. -/
theorem witness_AllocatorAcceptAndGrant_two :
    (Asks later split ∧ Starts later split ∧ isOk true (fetched later split).1 = true ∧ (fetched2 later split).any Option.isNone = true) ∧
    (Asks (pairAt 0x10000204 (vi 0)) (vi 0) ∧ Starts (pairAt 0x10000204 (vi 0)) (vi 0) ∧
      isOk true (fetched (pairAt 0x10000204 (vi 0)) (vi 0)).1 = true ∧ (fetched2 (pairAt 0x10000204 (vi 0)) (vi 0)).any isFault = true) ∧
    (Asks both (vi 0) ∧ Starts both (vi 0) ∧ isOk true (fetched both (vi 0)).1 = true ∧ (fetched2 both (vi 0)).any isSome2 = true) := by
  unfold Asks Starts; decide +kernel

/-- A request for one Pod and one for a pair. -/
def empty (paired : Bool) (prio : Nat) : Chain :=
  { n := 4, budget := 0, prio := prio, entries := [], str1 := [], str2 := [], paired := paired, addr := 0, dcreg := 0, caps := [] }
def one (paired : Bool) (ticket prio : Nat) : AReq :=
  { ls := 0, ticket := ticket, ctx := 3, chain := empty paired prio, index := 0, seg := 0, age := 0, urgent := none, since := 0, bound := 0,
    held := false }

theorem witness_AllocatorAcceptAndGrant_place : (one false 1 0).chain.paired = false ∧ (one true 1 0).chain.paired = true := by decide

/-- `l` waits, and the logical Pods `busy` have runs. -/
def waiting (l : List AReq) (busy : List Nat) : State :=
  let s := up.setFld POD_ALLOC_CFG_EN 1
  { s with alloc := { s.alloc with
      queue := l, tickets := (List.range 9).map (fun e => (e, some { st := .queued, status := 0, prog := 5 }))
      runs := busy.filterMap (fun k => (s.podOfLp k).map (fun p => (p, some (Run.init (one false 8 0) p none)))) } }

/-- The request at place `i` in rank is granted. -/
def Grants (s : State) (i : Nat) : Prop :=
  let u := reservePair s
  s.runs ∧ s.on POD_ALLOC_CFG_EN = true ∧ s.clk.margin = false ∧
  (s.ranked[i]?).any (fun q => decide (q.ticket < 256) && (s.ticket q.ls q.ticket).isSome &&
    (s.ranked.take i).all (fun r => (u.place r).isNone) && (u.place q).any (fun k => (s.podOfLp k).isSome)) = true

def behind : State := waiting [{ one true 2 7 with urgent := some 1, age := 15 }, one false 3 0] [0, 2, 4, 6, 8, 10, 12, 14]

/-- The one request that waits, one for a pair, and one behind a request for a pair that must wait and keeps its pair reserved. -/
theorem witness_AllocatorAcceptAndGrant_grant :
    Grants (waiting [one false 1 0] []) 0 ∧ Grants (waiting [one true 1 0, one false 2 0] []) 0 ∧
    Grants behind 1 ∧ (reservePair behind).alloc.reserve.map (fun x => (x.1, x.2.1)) = some (0, 2) := by
  unfold Grants State.runs
  exact ⟨by decide +kernel, by decide +kernel, by decide +kernel, by decide +kernel⟩

end AllocatorAcceptAndGrant

namespace PodRuns

def ent (idx slot op type srcA srcB srcM imm : Nat) (masked : Bool := false) : PEntry :=
  { idx := idx, slot := slot, op := op, type := type, stype := type, rm := 0, fz := false, sat := false, masked := masked, mpol := false,
    srcA := srcA, srcB := srcB, srcC := 0, srcM := srcM, imm := imm }
def strm (kind creg : Nat) : PStream := { kind := kind, esize := 2, creg := creg, isrc := 0, offset := 0, param := 4 }

/-- A chain of four elements: load through `a`, add 7, store through `b`, with the store and the load masked or not. -/
def chainOf (a b : Cap) (ml ms : Bool := false) : Chain :=
  { n := 4, budget := 100, prio := 0, entries := [ent 0 0 1 4 0 0 0x21 0 ml, ent 1 3 1 4 0x20 0x60 0 7, ent 2 9 1 4 0x21 0 0x20 1 ms],
    str1 := [strm 0 1, strm 0 2], str2 := [], paired := false, addr := 0, dcreg := 0, caps := [(1, a), (2, b)] }
def reqOf (ch : Chain) : AReq :=
  { ls := 0, ticket := 1, ctx := 3, chain := ch, index := 0, seg := 0, age := 0, urgent := none, since := 0, bound := 0, held := false }
def runRec (ch : Chain) (next : List Nat) (vals : Tbl (Option Nat)) : Run :=
  { Run.init (reqOf ch) 0 none with next := next.zipIdx.map (fun x => (x.2, x.1)), vals := vals }
def with1 (r : Run) (s : State) : State :=
  { (s.setFld (POD_STAT_BUSY 0) 1) with
    alloc := { s.alloc with runs := [(0, some r)], tickets := [(1, some { st := .running, status := 0, prog := 0 })], last := [(0, 1)] } }
def waits (s : State) : State := s.setCtxAt 7 { (ctxOf [9] []) with state := .vwait, ticket := 1, vpend := true }
def src : Cap := capOf 0x100 64 3 2 5 3
def dst : Cap := capOf 0x200 64 3 2 6 3
def short : Cap := capOf 0x300 5 3 2 6 3
def vals : Tbl (Option Nat) := (List.range 4).map (fun i => (elemKey 0 i, some (i * 0x1000100 + 5)))
/-- Its last element is to be loaded. -/
def ld : Run := runRec (chainOf src dst) [3] []
def ldShort : Run := runRec (chainOf short dst) [2] []
def chainM : Chain := { chainOf src dst with entries := [ent 0 0 1 4 0 0 0x21 0 true, ent 1 1 2 0 0 0 0 2] }
def ldMasked : Run := runRec chainM [3] [(elemKey 1 3, some 0)]
def st : Run := runRec (chainOf src dst) [4, 0, 3] vals
def stShort : Run := runRec (chainOf src short) [4, 0, 2] vals
def chainS : Chain := { chainOf src dst with entries := [ent 0 0 1 4 0 0 0x21 0, ent 1 1 2 0 0 0 0 2, ent 2 9 1 4 0x20 0 0x21 1 true] }
def stMasked : Run := runRec chainS [4, 0, 3] (vals ++ [(elemKey 1 3, some 0)])
/-- The chain's loads of a granule share their request: element 2 of granule `g` is asked for in this PCLK, and `n` others. -/
def asking (s : State) (g n : Nat) : Run :=
  { ld with asked := [(0, some (s.clk.pclk, (g, 2) :: (List.range n).map (fun i => (1000 + i, 2))))] }
def waitingFor (s : State) : State := enqueue { dest := .podLd 0 0 2, port := 19, gran := 33, view := 2, group := 5, owner := 3, kind := .read } s
/-- Writes made in this PCLK: one of granule `g` and `n` others. -/
def writing (s : State) (g n : Nat) : Run :=
  let w := fun (x : Nat) => { dest := .podSt 0 2, port := 3, gran := x, view := 2, group := 6, owner := 3, kind := .write 0 0xF00 false : Access }
  { st with writes := (g :: (List.range n).map (1000 + ·)).map (fun x => { ent := 2, els := [(2, 8, 5)], acc := w x, when := s.clk.pclk }) }
def done : Run := runRec (chainOf src dst) [4, 0, 4] vals
def doneReset : Run := { done with reset := [0] }
def cutR : Run := { runRec (chainOf src dst) [4, 0, 2] vals with cut := true }
def faulted : Run :=
  { runRec (chainOf short dst) [2, 0, 2] (vals.take 2) with fault := some { e := 2, entry := 0, stream := 0, cls := 1, cause := 3, foff := 8 } }
/-- A chain of two elements whose first stream has element addresses from an LDS stream of bounds. -/
def chainL : Chain :=
  { chainOf src dst with entries := [ent 0 0 3 4 0 0 0 1, ent 1 1 1 4 0 0 0x21 0, ent 2 5 12 4 0x21 0 0x20 0, ent 3 9 1 4 0x22 0 0x20 2],
                         str1 := [strm 0 1, { strm 2 2 with param := 2 }, strm 0 2] }
def ldBounds : Run := runRec chainL [1] []

/-- No context but those of the logical sequencer can wait on its ticket. -/
theorem none_waits (s : State) (t : Nat) (h : ∀ k, k < 512 → waitsOn 0 t k (s.ctxAt k) = false) (k : Nat) : waitsOn 0 t k (s.ctxAt k) = false := by
  by_cases hk : k < 512
  · exact h k hk
  · simp only [waitsOn, Bool.and_eq_false_iff, decide_eq_false_iff_not]; omega

/-- Streamer `k` of run `r` of Pod 0 of `s` is at element `i`. -/
def At (s : State) (r : Run) (k i : Nat) (e : PEntry) (d : PStream) : Prop :=
  s.runs ∧ s.hasPod 0 = true ∧ s.runOn 0 = some r ∧ s.run r.pod = some r ∧ s.lpOfPod 0 = some 0 ∧ bitsOf (s.fld ⟨DBG_FREEZE, 0, 16⟩) 0 1 = 0 ∧
  r.chain.entry k = some e ∧ r.chain.stream e = some d ∧ (k < 10 ∧ 0 = r.pod) ∧ e.idx = k ∧ e.streams = true ∧ r.cut = false ∧ i = r.nextOf e ∧
  r.req.index < r.n
/-- Its element has an address, which its check answers with `x`. -/
def Checks (s : State) (r : Run) (i : Nat) (e : PEntry) (d : PStream) (o : Int) (x : Option (Nat × Nat)) : Prop :=
  r.elemAddr d i = some o ∧
    s.elemCheck (Tbl.get Cap.null d.creg r.chain.caps) e.isSt o (if d.kind = 3 then 1 else if d.kind = 2 then 4 else d.size) = x
def Loads (r : Run) (i : Nat) (e : PEntry) (act : Bool) : Prop := e.isLd = true ∧ e.op ≠ 3 ∧ r.mayLoad i = true ∧ r.active e i = some act
def Stores (r : Run) (i : Nat) (e : PEntry) (act : Bool) : Prop :=
  e.isLd = false ∧ e.isSt = true ∧ r.mayStore e i = true ∧ r.active e i = some act ∧ (r.source e i).isSome = true

def eL : PEntry := ent 0 0 1 4 0 0 0x21 0
def eS : PEntry := ent 2 9 1 4 0x21 0 0x20 1
def dS : PStream := strm 0 2
def rides : State := with1 (asking (waitingFor up) 33 0) (waitingFor up)

/-- Loads whose element is requested, rides on a request of its PCLK, waits for the next PCLK, fails its check and is not active. -/
theorem witness_PodRuns_loads :
    (At (with1 ld up) ld 0 3 eL (strm 0 1) ∧ Loads ld 3 eL true ∧ Checks (with1 ld up) ld 3 eL (strm 0 1) 12 none) ∧
    (At rides (asking (waitingFor up) 33 0) 0 3 eL (strm 0 1) ∧ Loads (asking (waitingFor up) 33 0) 3 eL true ∧
      Checks rides (asking (waitingFor up) 33 0) 3 eL (strm 0 1) 12 none ∧ rides.awaits (.podLd 0 0 2) = true) ∧
    (At (with1 (asking up 0 7) up) (asking up 0 7) 0 3 eL (strm 0 1) ∧ Loads (asking up 0 7) 3 eL true ∧
      Checks (with1 (asking up 0 7) up) (asking up 0 7) 3 eL (strm 0 1) 12 none) ∧
    (At (with1 ldShort up) ldShort 0 2 eL (strm 0 1) ∧ Loads ldShort 2 eL true ∧
      Checks (with1 ldShort up) ldShort 2 eL (strm 0 1) 8 (some (1, 3)) ∧ ldShort.fault = none) ∧
    (At (with1 ldMasked up) ldMasked 0 3 (ent 0 0 1 4 0 0 0x21 0 true) (strm 0 1) ∧ Loads ldMasked 3 (ent 0 0 1 4 0 0 0x21 0 true) false) := by
  unfold At Loads Checks State.runs
  exact ⟨by decide +kernel, by decide +kernel, by decide +kernel, by decide +kernel, by decide +kernel⟩

/-- An LDS stream whose second bound is requested. -/
theorem witness_PodRuns_bounds :
    At (with1 ldBounds up) ldBounds 0 1 (ent 0 0 3 4 0 0 0 1) { strm 2 2 with param := 2 } ∧ (ent 0 0 3 4 0 0 0 1).isLd = true ∧
    (1 : Nat) ≤ ({ strm 2 2 with param := 2 } : PStream).param.toNat ∧ Tbl.get none (elemKey 0 1) ldBounds.bad = none ∧
    Checks (with1 ldBounds up) ldBounds 1 (ent 0 0 3 4 0 0 0 1) { strm 2 2 with param := 2 } 4 none := by
  unfold At Checks State.runs; decide +kernel

/-- Stores whose element is written, whose bytes lie within one granule, joins a write of its PCLK, waits, fails its check and is not active. -/
theorem witness_PodRuns_stores :
    (At (with1 st up) st 2 3 eS dS ∧ Stores st 3 eS true ∧ Checks (with1 st up) st 3 eS dS 12 none ∧ st.reduceOf eS = none ∧
      (2 * (dst.base : Int) + 12).toNat % 16 + dS.size ≤ 16) ∧
    (At (with1 (writing up 64 0) up) (writing up 64 0) 2 3 eS dS ∧ Stores (writing up 64 0) 3 eS true ∧
      Checks (with1 (writing up 64 0) up) (writing up 64 0) 3 eS dS 12 none ∧ (2 * (dst.base : Int) + 12).toNat / 16 = 64) ∧
    (At (with1 (writing up 0 7) up) (writing up 0 7) 2 3 eS dS ∧ Stores (writing up 0 7) 3 eS true ∧
      Checks (with1 (writing up 0 7) up) (writing up 0 7) 3 eS dS 12 none) ∧
    (At (with1 stShort up) stShort 2 2 eS dS ∧ Stores stShort 2 eS true ∧ Checks (with1 stShort up) stShort 2 eS dS 8 (some (1, 3)) ∧
      stShort.fault = none) ∧
    (At (with1 stMasked up) stMasked 2 3 (ent 2 9 1 4 0x20 0 0x21 1 true) dS ∧ Stores stMasked 3 (ent 2 9 1 4 0x20 0 0x21 1 true) false) := by
  unfold At Stores Checks State.runs
  exact ⟨by decide +kernel, by decide +kernel, by decide +kernel, by decide +kernel, by decide +kernel⟩

/-- The state meets the hypotheses of the clause of the run's end. -/
def Ends (s : State) (r : Run) (bit : Nat) (x : Ticket) : Prop :=
  s.runs ∧ r.pod < s.build.pods ∧ s.runOn r.pod = some r ∧ s.run r.pod = some r ∧ r.pod2 = none ∧ r.orphan = false ∧ r.outcome = some bit ∧
  s.ticket r.req.ls r.req.ticket = some x ∧ Tbl.wf Ctx.init s.ctxs = true

def running : Ticket := { st := .running, status := 0, prog := 0 }

/-- A run that is done, with a context that waits on its ticket, with a core that does so in place and with none, one whose Pod was reset, one that
is cut and one that ends at its fault. -/
def inPlace (s : State) : State := withCore (.seq 0) (fun k => { k with vwait := some 1 }) (withCtx (fun x => { x with bank := bank [9] [] }) s)
theorem witness_PodRuns_ends :
    (Ends (with1 done (waits up)) done 6 running ∧ waitsOn 0 1 7 ((with1 done (waits up)).ctxAt 7) = true ∧
      waitsOn 0 1 3 ((with1 done (waits up)).ctxAt 3) = false ∧ ((with1 done (waits up)).core (.seq 0)).vwait ≠ some 1) ∧
    (Ends (with1 done up) done 6 running ∧ done.reset = [] ∧ ((with1 done up).core (.seq 0)).vwait ≠ some 1 ∧
      ∀ k, waitsOn 0 1 k ((with1 done up).ctxAt k) = false) ∧
    (Ends (with1 doneReset up) doneReset 6 running ∧ doneReset.reset = [doneReset.pod]) ∧
    (Ends (with1 done (inPlace up)) done 6 running ∧ ((with1 done (inPlace up)).core (.seq 0)).vwait = some 1 ∧
      (∀ k, waitsOn 0 1 k ((with1 done (inPlace up)).ctxAt k) = false) ∧
      ((with1 done (inPlace up)).view (.seq 0)).any (fun v => decide (v.base ≤ v.bank.opd ∧ v.bank.opd ≤ v.ocap ∧ v.rbase ≤ v.bank.rtd ∧
        v.bank.rtd ≤ v.rcap ∧ 1 ≤ v.depth)) = true) ∧
    (Ends (with1 cutR up) cutR 7 running ∧ ∀ k, waitsOn 0 1 k ((with1 cutR up).ctxAt k) = false) ∧
    (Ends (with1 faulted up) faulted 8 running ∧ ∀ k, waitsOn 0 1 k ((with1 faulted up).ctxAt k) = false) := by
  unfold Ends State.runs
  exact ⟨by decide +kernel, ⟨by decide +kernel, by decide +kernel, by decide +kernel, none_waits _ _ (by decide +kernel)⟩, by decide +kernel,
    ⟨by decide +kernel, by decide +kernel, none_waits _ _ (by decide +kernel), by decide +kernel⟩,
    ⟨by decide +kernel, none_waits _ _ (by decide +kernel)⟩, ⟨by decide +kernel, none_waits _ _ (by decide +kernel)⟩⟩

/-- A Pod that is idle, the last one, and one that is busy. -/
theorem witness_PodRuns_abort :
    (up.runs ∧ up.hasPod (up.build.pods - 1) = true ∧ up.on (POD_STAT_BUSY (up.build.pods - 1)) = false) ∧
    ((with1 st up).runs ∧ (with1 st up).hasPod 0 = true ∧ (with1 st up).on (POD_STAT_BUSY 0) = true ∧ (with1 st up).runOn 0 = some st ∧
      (with1 st up).run st.pod = some st) := by
  unfold State.runs; decide +kernel

end PodRuns

namespace GroupsAndLeases

def gs (f : Group → Group) (s : State) : State := s.setGroup 1 (f (s.group 1))
def a0 : Access := { dest := .core (.seq 0) 0, port := 40, gran := 5, view := 2, group := 1, owner := 3, kind := .read }
def w0 : State := (writeGranule a0 0x1234 0xFFFF true (gs (fun x => { x with opens := 2 }) up)).2
def e0 : Entry := { home := 5, group := 1, epoch := 1, owner := 3, valid := true, borrowed := false }
def fl (s : State) : State := { s with epc := { s.epc with flip := some { set := 0x10F, freeze := false, swaps := true, tb := 0 } } }
def evs (s : State) : State := { s with evc := { s.evc with src := (List.range 12).map (fun e => (304 + e, { s.source (304+e) with cfg := 0x11 })) } }
def oneW (l : List Access) : Bool := match l with | [a] => (match a.dest, a.kind with | .core _ _, .write _ _ _ => true | _, _ => false) | _ => false
def flt (tok : Nat) (k : FKind) : Flight := { tok := tok, kind := k, addr := 0x29, cap := capOf 0x20 64 3, regs := { Regs.init with pc := 0xFE }, bank := bank [1,2] [], fail := none, done := false, got := none, young := 0, since := 0 }
def frw : State := { (withCore (.seq 0) (fun k => { k with flight := [flt 5 .store], tok := 7 }) (evs { w0 with epc := { w0.epc with flip := some { set := 0x7, freeze := true, swaps := false, tb := 0 } } })) with arb := { w0.arb with held := [{ a0 with dest := .core (.seq 0) 5, kind := .write 7 0xFFFF false }] } }
def bg (s : State) : State := s.setFld EPC_CTL_BG_EN 1
def dn : State := bg (gs (fun x => { x with gepoch := 1, wepoch := 2 }) w0)

def ws0 : State := gs (fun x ↦ { x with deferred := true }) w0
def ws1 : State := gs (fun x ↦ { x with sweep := true }) w0
def ws2 : State := up.setFld EPC_CTL_FREEZE 1
def ws3 : State := gs (fun x ↦ { gepoch := 0, wepoch := 3, opens := x.opens, deferred := x.deferred, sweep := true }) w0

/-- States and operands that meet the hypotheses of the clauses of `GroupsAndLeases`. -/
theorem witness_GroupsAndLeases :
    (∃ (s : State) (g : BitVec 6), s.runs ∧ ((s.group g.toNat).deferred = true ∨ (s.group g.toNat).sweep = true ∨ (s.group g.toNat).opens = 65535)) ∧
    (∃ (s : State) (g : BitVec 6) (h : Nat), s.runs ∧ (¬((s.group g.toNat).deferred = true ∨ (s.group g.toNat).sweep = true ∨ (s.group g.toNat).opens = 65535)) ∧ h ≠ g.toNat) ∧
    (∃ (s : State) (g : BitVec 6), s.runs ∧ (¬((s.group g.toNat).deferred = true ∨ (s.group g.toNat).sweep = true ∨ (s.group g.toNat).opens = 65535)) ∧ ((∀ (q : Rec), q ∈ s.hif.queue → q.group ≠ g) ∨ Instr.gcmdAdmit g ≠ Instr.gcmdDiscard g)) ∧
    (∃ (s : State) (g : BitVec 6), s.runs ∧ ((s.group g.toNat).opens = 0 ∨ (s.group g.toNat).sweep = true)) ∧
    (∃ (s : State) (g : BitVec 6) (h : Nat), s.runs ∧ (¬((s.group g.toNat).opens = 0 ∨ (s.group g.toNat).sweep = true)) ∧ h ≠ g.toNat) ∧
    (∃ (s : State) (g : BitVec 6), s.runs ∧ (¬((s.group g.toNat).opens = 0 ∨ (s.group g.toNat).sweep = true)) ∧ ((∀ (q : Rec), q ∈ s.hif.queue → q.group ≠ g) ∨ Instr.gcmdDone g ≠ Instr.gcmdDiscard g)) ∧
    (∃ (s : State) (g : BitVec 6), s.runs ∧ (¬((s.group g.toNat).opens = 0 ∨ (s.group g.toNat).sweep = true)) ∧ ((∀ (q : Rec), q ∈ s.hif.queue → q.group ≠ g) ∨ Instr.gcmdDiscard g ≠ Instr.gcmdDiscard g)) ∧
    (∃ (s : State) (g : BitVec 6), s.runs ∧ (¬((s.group g.toNat).opens = 0 ∨ (s.group g.toNat).sweep = true)) ∧ Instr.gcmdDiscard g = Instr.gcmdDiscard g) ∧
    (∃ (s : State) (g : BitVec 6) (h : Nat), s.runs ∧ (s.group g.toNat).sweep = true ∧ h ≠ g.toNat) ∧
    (∃ (s : State) (g : BitVec 6) (e : Entry), s.runs ∧ (s.group g.toNat).opens ≠ 0 ∧ (s.group g.toNat).sweep = false ∧ e.group = g ∧ e.valid = true ∧ e.borrowed = false ∧ e.epoch = (s.group g.toNat).wepoch ∧ ((s.group g.toNat).wepoch - (s.group g.toNat).gepoch).toInt = 1) ∧
    (∃ (s : State) (n : Nat) (g : BitVec 6), s.runs ∧ n < 4 ∧ (s.on (EPC_LEASE_CTL_HELD n) = true ∨ s.on (EPC_LEASE_CTL_TAKE n) = true)) ∧
    (∃ (s : State) (n : Nat) (g : BitVec 6), s.runs ∧ n < 4 ∧ s.on (EPC_LEASE_CTL_HELD n) = false ∧ s.on (EPC_LEASE_CTL_TAKE n) = false ∧ s.epc.flip = none) ∧
    (∃ (s : State) (n : Nat) (g : BitVec 6), s.runs ∧ n < 4 ∧ s.on (EPC_LEASE_CTL_HELD n) = false ∧ s.on (EPC_LEASE_CTL_TAKE n) = false ∧ s.epc.flip ≠ none) ∧
    (∃ (s : State) (n : Nat) (g : BitVec 6), s.runs ∧ n < 4 ∧ s.on (EPC_LEASE_CTL_HELD n) = true) :=
  ⟨⟨ws0, 1, by unfold State.runs; decide +kernel⟩,
   ⟨up, 5, 325121, by unfold State.runs; decide +kernel⟩,
   ⟨up, 5, by unfold State.runs; decide +kernel⟩,
   ⟨up, 5, by unfold State.runs; decide +kernel⟩,
   ⟨w0, 1, 325121, by unfold State.runs; decide +kernel⟩,
   ⟨w0, 1, by unfold State.runs; decide +kernel⟩,
   ⟨w0, 1, by unfold State.runs; decide +kernel⟩,
   ⟨w0, 1, by unfold State.runs; decide +kernel⟩,
   ⟨ws1, 1, 325121, by unfold State.runs; decide +kernel⟩,
   ⟨w0, 1, e0, by unfold State.runs; decide +kernel⟩,
   ⟨(takeLease 1 5 up), 1, 5, by unfold State.runs; decide +kernel⟩,
   ⟨up, 3, 5, by unfold State.runs; decide +kernel⟩,
   ⟨(fl up), 3, 5, by unfold State.runs; decide +kernel⟩,
   ⟨(takeLease 1 5 up), 1, 5, by unfold State.runs; decide +kernel⟩⟩

/-- States and operands that meet the hypotheses of the clauses of `FreezeReleaseReclaim`. -/
theorem witness_FreezeReleaseReclaim :
    (∃ (s : State), s.runs ∧ s.on EPC_CTL_FREEZE = true) ∧
    (∃ (s : State) (g : Nat), s.runs ∧ s.on EPC_CTL_FREEZE = false ∧ s.epc.flip = none ∧ g < 64) ∧
    (∃ (s : State), s.runs ∧ s.on EPC_CTL_FREEZE = false ∧ s.epc.flip ≠ none) ∧
    (∃ (s : State) (f : Flip), s.runs ∧ s.epc.flip = some f ∧ s.epc.freezeWait = false ∧ s.epc.tickWait = false ∧ (∀ (l : Nat), l < 5 → (s.wlink l).held = []) ∧ (∀ (n : Nat), n < 4 → s.on (EPC_LEASE_CTL_TAKE n) = false) ∧ s.hif.casts = [] ∧ ((if f.freeze = true then List.filter Access.writes s.arb.held else []) = [] ∨ oneW (if f.freeze = true then List.filter Access.writes s.arb.held else []) = true) ∧ (if f.freeze = true then List.filter Access.writes s.arb.held else []) = []) ∧
    (∃ (s : State) (f : Flip) (a : Access), s.runs ∧ s.epc.flip = some f ∧ s.epc.freezeWait = false ∧ s.epc.tickWait = false ∧ (∀ (l : Nat), l < 5 → (s.wlink l).held = []) ∧ (∀ (n : Nat), n < 4 → s.on (EPC_LEASE_CTL_TAKE n) = false) ∧ s.hif.casts = [] ∧ ((if f.freeze = true then List.filter Access.writes s.arb.held else []) = [] ∨ oneW (if f.freeze = true then List.filter Access.writes s.arb.held else []) = true) ∧ a ∈ if f.freeze = true then List.filter Access.writes s.arb.held else []) ∧
    (∃ (s : State) (b : Nat) (k : Nat), s.runs ∧ b < 127 * s.build.slices ∧ s.on EPC_CTL_BG_EN = true ∧ Tbl.get false b s.epc.folding = false ∧ k ≠ 512 * b + Tbl.get 0 b s.epc.walk) ∧
    (∃ (s : State) (b : Nat), s.runs ∧ b < 127 * s.build.slices ∧ s.on EPC_CTL_BG_EN = true ∧ Tbl.get false b s.epc.folding = false ∧ s.estate (s.entry (512 * b + Tbl.get 0 b s.epc.walk)) = EState.stale) ∧
    (∃ (s : State) (b : Nat), s.runs ∧ b < 127 * s.build.slices ∧ s.on EPC_CTL_BG_EN = true ∧ Tbl.get false b s.epc.folding = false ∧ s.estate (s.entry (512 * b + Tbl.get 0 b s.epc.walk)) = EState.done) ∧
    (∃ (s : State) (b : Nat), s.runs ∧ b < 127 * s.build.slices ∧ s.on EPC_CTL_BG_EN = true ∧ Tbl.get false b s.epc.folding = false ∧ s.estate (s.entry (512 * b + Tbl.get 0 b s.epc.walk)) ≠ EState.stale ∧ s.estate (s.entry (512 * b + Tbl.get 0 b s.epc.walk)) ≠ EState.done) :=
  ⟨⟨ws2, by unfold State.runs; decide +kernel⟩,
   ⟨up, 8, by unfold State.runs; decide +kernel⟩,
   ⟨(fl up), by unfold State.runs; decide +kernel⟩,
   ⟨(fl up), (Option.get ((fl up).epc.flip) (by decide +kernel)), by unfold State.runs; decide +kernel⟩,
   ⟨frw, (Option.get (frw.epc.flip) (by decide +kernel)), ({ a0 with dest := Dest.core (CoreId.seq 0) 5, kind := Kind.write 7 65535 false }), by unfold State.runs; decide +kernel⟩,
   ⟨up, 635, 325121, by unfold State.runs; decide +kernel⟩,
   ⟨ws3, 635, by unfold State.runs; decide +kernel⟩,
   ⟨dn, 635, by unfold State.runs; decide +kernel⟩,
   ⟨up, 635, by unfold State.runs; decide +kernel⟩⟩

end GroupsAndLeases

namespace NpxRequests

def nb (be : BitVec 64) : NpxBeat := { data := BitVec.ofNat 512 (0x0102030405060708090A0B0C0D0E0F101112131415161718191A1B1C1D1E1F20 * (2^256 + 3)), be := be }
def o0 : State := { up with hif := { up.hif with next := 7 } }
def cw : State := { o0 with epc := { o0.epc with flip := some { set := 1, freeze := false, swaps := true, tb := 0 } } }


/-- States and operands that meet the hypotheses of the clauses of `NpxRequests`. -/
theorem witness_NpxRequests :
    (∃ (s : State) (id : BitVec 8) (addr : BitVec 28) (qos : BitVec 4) (beats : List NpxBeat), s.runs ∧ s.crp.phase = 2 ∧ s.hif.txns = [] ∧ s.castWaits = true ∧ inAperture (addr.toNat / 64 * 64) = true ∧ regHole (addr.toNat / 64 * 64) = false) ∧
    (∃ (s : State) (id : BitVec 8) (addr : BitVec 28) (qos : BitVec 4) (beats : List NpxBeat) (len : BitVec 6) (smem : Bool) (n : Nat), s.runs ∧ s.crp.phase = 2 ∧ s.hif.txns = [] ∧ s.epc.flip = none ∧ s.castWaits = false ∧ (smem = false ∧ 0 < len.toNat ∨ addr.toNat / 64 * 64 / 4096 ≠ (addr.toNat / 64 * 64 + 64 * len.toNat + 63) / 4096) ∧ n < 64) ∧
    (∃ (s : State) (id : BitVec 8) (addr : BitVec 28) (qos : BitVec 4) (beats : List NpxBeat), s.runs ∧ s.crp.phase = 2 ∧ s.hif.txns = [] ∧ s.epc.flip = none ∧ s.castWaits = false ∧ regHole (addr.toNat / 64 * 64) = false ∧ ((List.range 16).all fun j ↦ decide (s.hostGate false (addr.toNat / 64 * 64 + 4 * j) = Gate.pass ∧ (regRead false (addr.toNat / 64 * 64 + 4 * j) s).snd = s)) = true) ∧
    (∃ (s : State) (id : BitVec 8) (addr : BitVec 28) (qos : BitVec 4) (beats : List NpxBeat) (j : Nat), s.runs ∧ s.crp.phase = 2 ∧ s.hif.txns = [] ∧ s.epc.flip = none ∧ s.castWaits = false ∧ j < 16 ∧ regHole (addr.toNat / 64 * 64) = false ∧ inAperture (addr.toNat / 64 * 64) = false ∧ inlineSlot (addr.toNat / 64 * 64) = none ∧ (beats.getD 0 { data := 0, be := 0 }).be = BitVec.ofNat 64 (15 * 2 ^ (4 * j)) ∧ s.hostGate true (addr.toNat / 64 * 64 + 4 * j) = Gate.pass ∧ (regWrite Agent.host 0 (addr.toNat / 64 * 64 + 4 * j) (BitVec.extractLsb' (32 * j) 32 (beats.getD 0 { data := 0, be := 0 }).data) s).snd.hif = s.hif) ∧
    (∃ (s : State) (id : BitVec 8) (addr : BitVec 28) (qos : BitVec 4) (beats : List NpxBeat), s.runs ∧ s.crp.phase = 2 ∧ s.hif.txns = [] ∧ s.epc.flip = none ∧ s.castWaits = false ∧ addr.toNat / 64 * 64 < 134217728 ∧ addr.toNat / 64 * 64 / 16 + 4 ≤ s.build.granules ∧ s.on SEC_NARROW_H_CMT = false) ∧
    (∃ (s : State) (id : BitVec 8) (addr : BitVec 28) (qos : BitVec 4) (beats : List NpxBeat), s.runs ∧ s.crp.phase = 2 ∧ s.hif.txns = [] ∧ s.epc.flip = none ∧ s.castWaits = false ∧ 134217728 ≤ addr.toNat / 64 * 64 ∧ (addr.toNat / 64 * 64 - 134217728) / 16 + 4 ≤ s.build.granules ∧ s.on SEC_NARROW_H_STG = false ∧ (beats.getD 0 { data := 0, be := 0 }).be ≠ 0) :=
  ⟨⟨cw, 85, 8388704, 3, [], by unfold State.runs; decide +kernel⟩,
   ⟨o0, 85, 131072, 3, [], 63, false, 63, by unfold State.runs; decide +kernel⟩,
   ⟨o0, 85, 131072, 3, [], by unfold State.runs; decide +kernel⟩,
   ⟨o0, 85, 131072, 3, [nb 15], 0, by unfold State.runs; decide +kernel⟩,
   ⟨o0, 85, 131072, 3, [], by unfold State.runs; decide +kernel⟩,
   ⟨o0, 85, 134221765, 3, [nb 15], by unfold State.runs; decide +kernel⟩⟩

end NpxRequests

namespace HostRings

def evs (s : State) : State := { s with evc := { s.evc with src := (List.range 4).map (fun e => (240 + e, { s.source (240+e) with cfg := 0x11 })) } }
def ring (n sq cq : Nat) (s : State) : State := (((s.setFld (HIF_RING_CFG_EN n) 1).setFld (HIF_RING_CFG_SQSIZE n) sq).setFld (HIF_RING_CFG_CQSIZE n) cq).setReg (HIF_RING_SQBASE_LO n) 0x12345040
def ib (s : State) : State := (s.setFld HIF_CTL_EN 1).setFld HIF_INBOX_CFG_SIZE 3
def dt (n : Nat) (t h : Nat) (s : State) : State := (s.setFld (HIF_DB_SQTAIL_TAIL n) t).setFld (HIF_RING_PTR_SQ_HEAD n) h
def rg (n : Nat) (f : Ring → Ring) (s : State) : State := { s with hif := { s.hif with rings := Tbl.set Ring.init n (f (s.ring n)) s.hif.rings } }
def bind (n ls mb : Nat) (s : State) : State := ((s.setFld (HIF_RING_BIND_EN n) 1).setFld (HIF_RING_BIND_LS n) ls).setFld (HIF_RING_BIND_MBOX n) mb
def f0 (n slot count : Nat) (s : State) : State := rg n (fun x => { x with fetch := some { count := count, out := true, drop := false } }) s
def u := evs up
def r2 := evs (ib (ring 0 4 4 (ring 1 2 3 u)))
def d1 : BitVec 512 := BitVec.ofNat 512 (0xABCDEF0123456789 + 1 * 2^64 + 0x1234567 * 2^384)

def ws0 : State := { (f0 0 1 1 r2) with mem := { r2.mem with init := some 100 } }

/-- States and operands that meet the hypotheses of the clauses of `HostRings`. -/
theorem witness_HostRings :
    (∃ (s : State) (n : Nat) (v : Reg), s.runs ∧ n < 64 ∧ s.on HIF_CTL_EN = false ∧ (∀ (m : Nat), (s.ring m).due = [])) ∧
    (∃ (s : State) (n : Nat) (v : Reg) (m : Nat), s.runs ∧ n < 64 ∧ s.on (HIF_RING_CFG_EN n) = false ∧ m ≠ n) ∧
    (∃ (s : State) (n : Nat) (v : Reg), s.runs ∧ n < 64 ∧ s.on (HIF_RING_CFG_EN n) = true ∧ Option.map Prod.fst s.hif.inbox.head? ≠ some n) ∧
    (∃ (s : State) (n : Nat) (v : Reg), s.runs ∧ n < 64 ∧ s.on (HIF_RING_CFG_EN n) = true ∧ s.on (HIF_RING_BIND_EN n) = false ∧ BitVec.toNat v % 4096 < 2 ^ s.fld (HIF_RING_CFG_SQSIZE n)) ∧
    (∃ (s : State) (n : Nat) (v : Reg), s.runs ∧ n < 64 ∧ (¬(s.on (HIF_RING_CFG_EN n) = true ∧ s.on (HIF_RING_BIND_EN n) = false ∧ BitVec.toNat v % 4096 < 2 ^ s.fld (HIF_RING_CFG_SQSIZE n)))) ∧
    (∃ (s : State) (n : Nat) (v : Reg), s.runs ∧ n < 64 ∧ s.on (HIF_RING_CFG_EN n) = true ∧ BitVec.toNat v % 4096 < 2 ^ s.fld (HIF_RING_CFG_CQSIZE n)) ∧
    (∃ (s : State) (n : Nat) (v : Reg), s.runs ∧ n < 64 ∧ (¬(s.on (HIF_RING_CFG_EN n) = true ∧ BitVec.toNat v % 4096 < 2 ^ s.fld (HIF_RING_CFG_CQSIZE n)))) ∧
    (∃ (s : State) (n : Nat) (m : Nat), s.runs ∧ n < 64 ∧ s.on HIF_CTL_EN = true ∧ s.on HIF_STAT_INBOX_ERR = false ∧ 0 < s.inboxFree ∧ s.initOut < 128 ∧ (∃ i, i < 64 ∧ n = (s.hif.last + 1 + i) % 64 ∧ s.ringWants n = true ∧ ∀ (j : Nat), j < i → s.ringWants ((s.hif.last + 1 + j) % 64) = false) ∧ m ≠ n) ∧
    (∃ (s : State) (n : Nat) (f : Fetch) (beats : List RdBeat) (us : List Upset), s.runs ∧ n < 64 ∧ (s.ring n).fetch = some f ∧ f.out = true ∧ f.drop = false ∧ beats.length = f.count ∧ ∃ b, b ∈ beats ∧ b.resp ≠ 0) ∧
    (∃ (s : State) (n : Nat) (f : Fetch) (beats : List RdBeat) (d : BitVec 512) (us : List Upset), s.runs ∧ n < 64 ∧ (s.ring n).fetch = some f ∧ f.out = true ∧ f.drop = false ∧ beats.length = f.count ∧ beats = [{ resp := 0, data := d }] ∧ BitVec.extractLsb' 64 8 d = 1 ∧ s.on HIF_STAT_INBOX_ERR = false ∧ s.hif.inbox = [] ∧ s.epc.flip = none ∧ s.arb.reqs = [] ∧ s.arb.held = [] ∧ s.arb.ended = [] ∧ s.mem.init = none) ∧
    (∃ (s : State) (n : Nat) (f : Fetch) (beats : List RdBeat) (d : BitVec 512) (us : List Upset), s.runs ∧ n < 64 ∧ (s.ring n).fetch = some f ∧ f.out = true ∧ f.drop = false ∧ beats.length = f.count ∧ beats = [{ resp := 0, data := d }] ∧ BitVec.extractLsb' 64 8 d = 1 ∧ s.on HIF_STAT_INBOX_ERR = false ∧ s.hif.inbox = [] ∧ s.epc.flip = none ∧ s.arb.reqs = [] ∧ s.arb.held = [] ∧ s.arb.ended = [] ∧ s.mem.init ≠ none ∧ s.fld HIF_INBOX_CFG_BASE / 4 * 4 + 4 * s.fld HIF_INBOX_PTR_TAIL + 4 ≤ s.build.granules) ∧
    (∃ (s : State) (n : Nat) (f : Fetch) (beats : List RdBeat) (d : BitVec 512) (us : List Upset), s.runs ∧ n < 64 ∧ (s.ring n).fetch = some f ∧ f.out = true ∧ f.drop = false ∧ beats.length = f.count ∧ beats = [{ resp := 0, data := d }] ∧ BitVec.extractLsb' 64 8 d ≠ 1 ∧ s.hif.inbox = []) ∧
    (∃ (s : State) (n : Nat) (b : NpxBeat), s.runs ∧ n < 64 ∧ (¬(s.on (HIF_RING_BIND_EN n) = true ∧ b.be = 18446744073709551615 ∧ BitVec.extractLsb' 64 8 b.data = 1 ∧ s.fld (HIF_RING_BIND_LS n) < s.build.lss))) ∧
    (∃ (s : State) (n : Nat) (b : NpxBeat) (q : Nat), s.runs ∧ n < 64 ∧ s.on (HIF_RING_BIND_EN n) = true ∧ b.be = 18446744073709551615 ∧ BitVec.extractLsb' 64 8 b.data = 1 ∧ s.fld (HIF_RING_BIND_LS n) < s.build.lss ∧ q < 4) ∧
    (∃ (s : State) (n : Nat) (b : NpxBeat) (q : Nat), s.runs ∧ n < 64 ∧ s.on (HIF_RING_BIND_EN n) = true ∧ b.be = 18446744073709551615 ∧ BitVec.extractLsb' 64 8 b.data = 1 ∧ s.fld (HIF_RING_BIND_LS n) < s.build.lss ∧ q < 3) ∧
    (∃ (s : State) (n : Nat) (b : NpxBeat) (h : Nat), s.runs ∧ n < 64 ∧ s.on (HIF_RING_BIND_EN n) = true ∧ b.be = 18446744073709551615 ∧ BitVec.extractLsb' 64 8 b.data = 1 ∧ s.fld (HIF_RING_BIND_LS n) < s.build.lss ∧ (h < s.fld (HIF_RING_BIND_LS n) * 8192 + s.fld (HIF_RING_BIND_MBOX n) / 4 * 4 ∨ s.fld (HIF_RING_BIND_LS n) * 8192 + s.fld (HIF_RING_BIND_MBOX n) / 4 * 4 + 4 ≤ h)) :=
  ⟨⟨u, 3, 1281, by unfold State.runs; exact ⟨by decide +kernel, by decide +kernel, by decide +kernel, fun _ => rfl⟩⟩,
   ⟨u, 3, 1281, 98304, by unfold State.runs; decide +kernel⟩,
   ⟨r2, 1, 1281, by unfold State.runs; decide +kernel⟩,
   ⟨r2, 1, 3, by unfold State.runs; decide +kernel⟩,
   ⟨u, 3, 1281, by unfold State.runs; decide +kernel⟩,
   ⟨r2, 1, 4, by unfold State.runs; decide +kernel⟩,
   ⟨u, 3, 1281, by unfold State.runs; decide +kernel⟩,
   ⟨(dt 0 3 1 r2), 0, 98304, by unfold State.runs; decide +kernel⟩,
   ⟨(f0 0 1 1 r2), 0, (Option.get (((f0 0 1 1 r2).ring 0).fetch) (by decide +kernel)), [{ resp := 1, data := d1 }], [], by unfold State.runs; decide +kernel⟩,
   ⟨(f0 0 1 1 r2), 0, (Option.get (((f0 0 1 1 r2).ring 0).fetch) (by decide +kernel)), [{ resp := 0, data := d1 }], d1, [], by unfold State.runs; decide +kernel⟩,
   ⟨ws0, 0, (Option.get ((ws0.ring 0).fetch) (by decide +kernel)), [{ resp := 0, data := d1 }], d1, [], by unfold State.runs; decide +kernel⟩,
   ⟨(f0 0 1 1 r2), 0, (Option.get (((f0 0 1 1 r2).ring 0).fetch) (by decide +kernel)), [{ resp := 0, data := d1 ||| 2#512 <<< 64 }], (d1 ||| 2#512 <<< 64), [], by unfold State.runs; decide +kernel⟩,
   ⟨u, 3, ({ data := d1, be := 18446744073709551615 }), by unfold State.runs; decide +kernel⟩,
   ⟨(bind 0 3 17 r2), 0, ({ data := d1, be := 18446744073709551615 }), 3, by unfold State.runs; decide +kernel⟩,
   ⟨(bind 0 3 17 r2), 0, ({ data := d1, be := 18446744073709551615 }), 2, by unfold State.runs; decide +kernel⟩,
   ⟨(bind 0 3 17 r2), 0, ({ data := d1, be := 18446744073709551615 }), 98304, by unfold State.runs; decide +kernel⟩⟩

end HostRings

namespace CompletionRecords

def evs (s : State) : State := { s with evc := { s.evc with src := (List.range 4).map (fun e => (240 + e, { s.source (240+e) with cfg := 0x11 })) } }
def ring (n sq cq : Nat) (s : State) : State := (((s.setFld (HIF_RING_CFG_EN n) 1).setFld (HIF_RING_CFG_SQSIZE n) sq).setFld (HIF_RING_CFG_CQSIZE n) cq).setReg (HIF_RING_SQBASE_LO n) 0x12345040
def ib (s : State) : State := (s.setFld HIF_CTL_EN 1).setFld HIF_INBOX_CFG_SIZE 3
def rg (n : Nat) (f : Ring → Ring) (s : State) : State := { s with hif := { s.hif with rings := Tbl.set Ring.init n (f (s.ring n)) s.hif.rings } }
def q (n : Nat) (rel : Option Nat) (o : Bool := false) : Rec := { ring := n, group := 5, hifrec := false, tag := 5, status := 7, elems := 8, detail := 9, stamp := some (1, 0x12345678), rel := rel, batch := 0, skip := false, out := o, landed := false }
def hq (l : List Rec) (s : State) : State := { s with hif := { s.hif with queue := l } }
def u := evs up
def r2 := evs (ib (ring 0 4 4 (ring 1 2 3 u)))
def nm (k : Nat) (s : State) : State := (((s.setFld (HIF_RING_CFG_NMODE 0) k).setReg (HIF_RING_MSGADDR_LO 0) 0x1237).setReg (HIF_RING_MSGDATA 0) 0x55).setReg (HIF_RING_CQBASE_LO 0) 0x40000025

def ws0 : State := rg 0 (fun x ↦ { x with msgs := [0, 3] }) (hq [{ (q 0 (some 4)) with landed := true }, { (q 0 (some 5)) with batch := 1, landed := true }, q 0 (some 7)] (nm 2 r2))
def ws1 : State := (hq [q 0 (some 4) true] (nm 0 r2)).setFld HIF_CTL_EN 0
def ws2 : State := hq [q 0 (some 4) true] (nm 1 r2)
def ws3 : State := hq [q 0 (some 4) true] (nm 2 r2)
def ws4 : State := hq [q 0 (some 4) true] (nm 0 r2)

/-- States and operands that meet the hypotheses of the clauses of `CompletionRecords`. -/
theorem witness_CompletionRecords :
    (∃ (s : State) (n : Nat) (v : Reg), s.runs ∧ n < 64 ∧ BitVec.toNat v % 64 = n ∧ (1024 ≤ s.hif.queue.length ∨ s.on (HIF_RING_CFG_EN n) = false)) ∧
    (∃ (s : State) (n : Nat) (v : Reg), s.runs ∧ n < 64 ∧ BitVec.toNat v % 64 = n ∧ s.hif.queue.length < 1024 ∧ s.on (HIF_RING_CFG_EN n) = true) ∧
    (∃ (s : State) (n : Nat) (r : Rec) (e : BitVec 32) (b : BitVec 64), s.runs ∧ n < 64 ∧ s.nextRec n = some r ∧ s.on HIF_CTL_EN = true ∧ s.on (HIF_RING_CFG_EN n) = true ∧ s.on (HIF_RING_STAT_STOPPED n) = false ∧ s.cqFull n = false ∧ s.initOut < 128 ∧ r.stamp = some (e, b)) ∧
    (∃ (s : State) (n : Nat) (r : Rec) (resp : BitVec 2), s.runs ∧ n < 64 ∧ s.hif.queue = [r] ∧ r.ring = n ∧ r.out = true ∧ (s.ring n).stale = 0 ∧ (s.ring n).due = [] ∧ resp = 0 ∧ s.on HIF_CTL_EN = false) ∧
    (∃ (s : State) (n : Nat) (r : Rec) (resp : BitVec 2), s.runs ∧ n < 64 ∧ s.hif.queue = [r] ∧ r.ring = n ∧ r.out = true ∧ (s.ring n).stale = 0 ∧ (s.ring n).due = [] ∧ resp = 0 ∧ s.on HIF_CTL_EN = true ∧ s.fld (HIF_RING_CFG_NMODE n) = 1) ∧
    (∃ (s : State) (n : Nat) (r : Rec) (resp : BitVec 2), s.runs ∧ n < 64 ∧ s.hif.queue = [r] ∧ r.ring = n ∧ r.out = true ∧ (s.ring n).stale = 0 ∧ (s.ring n).due = [] ∧ resp = 0 ∧ s.on HIF_CTL_EN = true ∧ s.fld (HIF_RING_CFG_NMODE n) = 2) ∧
    (∃ (s : State) (n : Nat) (r : Rec) (resp : BitVec 2), s.runs ∧ n < 64 ∧ s.hif.queue = [r] ∧ r.ring = n ∧ r.out = true ∧ (s.ring n).stale = 0 ∧ (s.ring n).due = [] ∧ resp = 0 ∧ s.on HIF_CTL_EN = true ∧ s.fld (HIF_RING_CFG_NMODE n) = 0) ∧
    (∃ (s : State) (n : Nat) (r : Rec) (resp : BitVec 2), s.runs ∧ n < 64 ∧ s.hif.queue = [r] ∧ r.ring = n ∧ r.out = true ∧ (s.ring n).stale = 0 ∧ (s.ring n).due = [] ∧ resp ≠ 0) ∧
    (∃ (s : State) (n : Nat) (k : Nat) (ks : List Nat) (resp : BitVec 2), s.runs ∧ n < 64 ∧ (s.ring n).msgs = k :: ks ∧ resp = 0) ∧
    (∃ (s : State) (n : Nat) (k : Nat) (ks : List Nat) (resp : BitVec 2), s.runs ∧ n < 64 ∧ (s.ring n).msgs = k :: ks ∧ resp ≠ 0 ∧ s.on (HIF_RING_CFG_EN n) = true) :=
  ⟨⟨ws0, 3, 3, by unfold State.runs; decide +kernel⟩,
   ⟨ws0, 1, 1281, by unfold State.runs; decide +kernel⟩,
   ⟨ws0, 0, (Option.get (ws0.nextRec 0) (by decide +kernel)), 1, 305419896#64, by unfold State.runs; decide +kernel⟩,
   ⟨ws1, 0, (q 0 (some 4) true), 0#2, by unfold State.runs; decide +kernel⟩,
   ⟨ws2, 0, (q 0 (some 4) true), 0#2, by unfold State.runs; decide +kernel⟩,
   ⟨ws3, 0, (q 0 (some 4) true), 0#2, by unfold State.runs; decide +kernel⟩,
   ⟨ws4, 0, (q 0 (some 4) true), 0#2, by unfold State.runs; decide +kernel⟩,
   ⟨ws4, 0, (q 0 (some 4) true), 3#2, by unfold State.runs; decide +kernel⟩,
   ⟨ws0, 0, 0, [3], 0#2, by unfold State.runs; decide +kernel⟩,
   ⟨ws0, 0, 0, [3], 3#2, by unfold State.runs; decide +kernel⟩⟩

end CompletionRecords

namespace PerformanceMonitor

def evs (s : State) : State := { s with evc := { s.evc with src := ([240,368,369,370] : List Nat).map (fun e => (e, { s.source e with cfg := 0x11 })) } }
def pm (f : Pmu → Pmu) (s : State) : State := { s with pmu := f s.pmu }
def en (s : State) : State := s.setFld PMU_CTL_EN 1
def c1 (k : Nat) : State := let s := en (evs up); (List.range 6).foldl (fun s n => (((s.setFld (PMU_CFG_EN n) 1).setFld (PMU_CFG_CHAIN n) (if n % 2 = 1 then k % 2 else 0)).setFld (PMU_CFG_OVIE n) (k / 2 % 2)).setReg (PMU_CNT n) 0xFFFFFFFE) s
def trained (s : State) : State := ((List.range 8).foldl (fun s n => s.setFld (BMP_STAT_TRAINED n) 1 |>.setReg (BMP_CAP n) 1 |>.setFld (BMP_CTRL_EN n) 1) (s.setReg BMP_ILV 0x100))
def rl (wp rp mode : Nat) (b : Nat) (s : State) : State := (((((s.setFld PMU_RL_CFG_SIZE 2).setFld PMU_RL_PTR_WPTR wp).setFld PMU_RL_PTR_RPTR rp).setFld PMU_CTL_RL_MODE mode).setReg64 PMU_RL_BASE_LO PMU_RL_BASE_HI (BitVec.ofNat 64 b)).setFld PMU_CTL_RL_EN 1
def lt : PmuLatch := { tb := 5, tseq := 6, skip := 0, ovf := [(0, 3)], cnt := [(1, 4)] }
def st (l : Bool) (s : State) : State := pm (fun p => { p with latch := some lt, writing := l }) (s.setFld PMU_STAT_RL_BUSY 1)

def ws0 : State := { (pm (fun p ↦ { p with bytes := [(0, 5), (1, 2 ^ 40)] }) (c1 0)) with clk := { (c1 0).clk with bwDue := true } }
def ws1 : State := st false (rl 1 2 1 549755813888 (trained (evs up)))
def ws2 : State := st false (rl 1 2 0 549755813888 (trained (evs up)))
def ws3 : State := st true (rl 3 1 0 549755813895 (trained (evs up)))

/-- States and operands that meet the hypotheses of the clauses of `PerformanceMonitor`. -/
theorem witness_PerformanceMonitor :
    (∃ (s : State) (n : Nat) (v : BitVec 32) (o : Nat), s.runs ∧ n < 256 ∧ o ≠ PMU_SNAP_TB_LO ∧ o ≠ PMU_SNAP_TB_HI ∧ (∀ (k : Nat), k < 256 → o ≠ PMU_SNP k)) ∧
    (∃ (s : State) (n : Nat) (v : BitVec 32) (o : Nat), s.runs ∧ n < 256 ∧ (∀ (k : Nat), k < 256 → o ≠ PMU_CNT k)) ∧
    (∃ (s : State) (n : Nat) (v : BitVec 32), s.runs ∧ n < 256 ∧ s.on PMU_CTL_EN = true ∧ s.on (PMU_CFG_EN n) = true ∧ (n % 2 = 0 ∨ s.on (PMU_CFG_CHAIN n) = false) ∧ 2 ^ 32 ≤ BitVec.toNat (s.reg (PMU_CNT n)) + v.toNat ∧ n % 2 = 0 ∧ s.on (PMU_CFG_CHAIN (n + 1)) = true) ∧
    (∃ (s : State) (n : Nat) (v : BitVec 32), s.runs ∧ n < 256 ∧ s.on PMU_CTL_EN = true ∧ s.on (PMU_CFG_EN n) = true ∧ (n % 2 = 0 ∨ s.on (PMU_CFG_CHAIN n) = false) ∧ 2 ^ 32 ≤ BitVec.toNat (s.reg (PMU_CNT n)) + v.toNat ∧ (¬(n % 2 = 0 ∧ s.on (PMU_CFG_CHAIN (n + 1)) = true)) ∧ s.on (PMU_CFG_OVIE n) = true) ∧
    (∃ (s : State) (n : Nat) (v : BitVec 32), s.runs ∧ n < 256 ∧ s.on PMU_CTL_EN = true ∧ s.on (PMU_CFG_EN n) = true ∧ (n % 2 = 0 ∨ s.on (PMU_CFG_CHAIN n) = false) ∧ 2 ^ 32 ≤ BitVec.toNat (s.reg (PMU_CNT n)) + v.toNat ∧ (¬(n % 2 = 0 ∧ s.on (PMU_CFG_CHAIN (n + 1)) = true)) ∧ ¬s.on (PMU_CFG_OVIE n) = true) ∧
    (∃ (s : State) (n : Nat) (v : BitVec 32) (p : Nat) (o : Nat), s.runs ∧ n < 256 ∧ p < 20 ∧ s.clk.bwDue = true ∧ (∀ (q : Nat), q < 20 → o ≠ PMU_BW_LAST q ∧ o ≠ PMU_BW_MAX q)) ∧
    (∃ (s : State) (v : Reg) (x : PmuLatch), s.runs ∧ s.pmu.latch = some x ∧ s.pmu.writing = false ∧ s.epc.flip = none ∧ decide ((s.fld PMU_RL_PTR_WPTR + 1) % 2 ^ s.fld PMU_RL_CFG_SIZE = s.fld PMU_RL_PTR_RPTR) = true ∧ s.on PMU_CTL_RL_MODE = true) ∧
    (∃ (s : State) (v : Reg) (x : PmuLatch), s.runs ∧ s.pmu.latch = some x ∧ s.pmu.writing = false ∧ s.epc.flip = none ∧ (decide ((s.fld PMU_RL_PTR_WPTR + 1) % 2 ^ s.fld PMU_RL_CFG_SIZE = s.fld PMU_RL_PTR_RPTR) && decide (s.on PMU_CTL_RL_MODE = false)) = true ∧ 549755813888 ≤ (s.reg64 PMU_RL_BASE_LO PMU_RL_BASE_HI).toNat / 8 * 8 + 544 * s.fld PMU_RL_PTR_WPTR ∧ 2 * ((s.reg64 PMU_RL_BASE_LO PMU_RL_BASE_HI).toNat / 8 * 8 + 544 * s.fld PMU_RL_PTR_WPTR + 544 - 549755813888) ≤ s.bulkSize ∧ (∀ (n : Nat), n < 8 → s.on (BMP_CTRL_EN n) = true ∧ s.on (BMP_STAT_TRAINED n) = true) ∧ (∀ (a : Nat), a < s.bulkSize → (s.bulkPort a).isSome = true)) ∧
    (∃ (s : State) (v : Reg) (x : PmuLatch), s.runs ∧ s.pmu.writing = true ∧ s.pmu.ovf = false ∧ s.pmu.latch = some x) :=
  ⟨⟨up, 255, 4294967295, PMU_CTL, by unfold State.runs; decide +kernel⟩,
   ⟨up, 255, 4294967295, PMU_SNAP_TB_LO, by unfold State.runs; decide +kernel⟩,
   ⟨(c1 1), 4, 4294967295, by unfold State.runs; decide +kernel⟩,
   ⟨(c1 2), 5, 4294967295, by unfold State.runs; decide +kernel⟩,
   ⟨(c1 0), 5, 4294967295, by unfold State.runs; decide +kernel⟩,
   ⟨ws0, 255, 4294967295, 19, PMU_SNAP_TB_LO, by unfold State.runs; decide +kernel⟩,
   ⟨ws1, 4294967295, lt, by unfold State.runs; decide +kernel⟩,
   ⟨ws2, 4294967295, lt, by
     unfold State.runs
     and_intros <;> try decide +kernel
     intro a _
     have e : (List.range ws2.build.bmps).filter (fun n => decide (bitsOf (ws2.fld BMP_ILV_PORTS) n 1 = 1)) = [0] := by decide +kernel
     simp only [State.bulkPort, e]
     simp [Nat.mod_one]⟩,
   ⟨ws3, 4294967295, lt, by unfold State.runs; decide +kernel⟩⟩

end PerformanceMonitor

namespace PeerRequests

def evs (s : State) : State := { s with evc := { s.evc with src := ([220,221,225,226,227,228,229,403] : List Nat).map (fun e => (e, { s.source e with cfg := 0x11 })) } }
def ls (l st : Nat) (s : State) : State := s.setFld (WIAN_LINK_STAT_STATE l) st
def fab (s : State) : State := let s := (evs s).setFld WIAN_ID_ADDR 3; ls 1 3 (ls 0 3 (routeWrite 7 15 (routeWrite 6 0 (routeWrite 5 1 (routeWrite 3 4 (s.setFld WIAN_CTL_EN 1))))))
def sq (n : Nat) (f : Frame) : Frame := f.put 160 16 n
def pay (n : Nat) : List Gran := (List.range n).map (fun i => BitVec.ofNat 128 (0x1111111122222222 * (i+1)))
def wr (n dst src g seq : Nat) : Frame := sq seq (mkFrame 1 (n-1) 0 dst src 9 7 g (pay ((n+1)/2*2)))
def rd (n dst src g seq : Nat) : Frame := sq seq (mkFrame 3 (n-1) 0 dst src 9 7 g [])
def wrack (dst src seq : Nat) : Frame := sq seq (mkFrame 2 0 0 dst src 9 7 0 [])
def rdr (dst src seq : Nat) : Frame := sq seq (mkFrame 4 0 0 dst src 9 7 0 (pay 2))
def win (s : State) : State := (((((s.setFld (WIAN_INWIN_CTL_WR 2) 1).setFld (WIAN_INWIN_CTL_RD 2) 1).setFld (WIAN_INWIN_SRC_LO 2) 4).setFld (WIAN_INWIN_SRC_HI 2) 6).setFld (WIAN_INWIN_LEN_LEN 2) 1000).setFld WIAN_CTL_ING_EN 1


/-- States and operands that meet the hypotheses of the clauses of `PeerRequests`. -/
theorem witness_PeerRequests :
    (∃ (s : State) (l : Nat) (f : Frame) (us : List Upset), s.runs ∧ l < 4 ∧ f.ok = true ∧ s.lstate l = 3 ∧ (s.wlink l).check f = SeqCheck.next ∧ (s.wlink l).held = [] ∧ (s.wlink 4).held = [] ∧ s.wian.serving = [] ∧ s.discovering = false ∧ 1 ≤ f.type ∧ f.type ≤ 4 ∧ f.dst ≠ s.ownAddr ∧ s.routeOf f.dst < 4 ∧ s.routeOf f.dst ≠ l ∧ (s.fld WIAN_STAT_DSTATE ≠ 3 ∨ s.on (WIAN_LINK_STAT_TREE (s.routeOf f.dst)) = true)) ∧
    (∃ (s : State) (l : Nat) (f : Frame) (us : List Upset), s.runs ∧ l < 4 ∧ f.ok = true ∧ s.lstate l = 3 ∧ (s.wlink l).check f = SeqCheck.next ∧ (s.wlink l).held = [] ∧ (s.wlink 4).held = [] ∧ s.wian.serving = [] ∧ s.discovering = false ∧ f.type = 1 ∧ s.routeOf f.dst < 4 ∧ s.routeOf f.dst ≠ l ∧ (s.fld WIAN_STAT_DSTATE ≠ 3 ∨ s.on (WIAN_LINK_STAT_TREE (s.routeOf f.dst)) = true)) ∧
    (∃ (s : State) (l : Nat) (f : Frame) (us : List Upset), s.runs ∧ l < 4 ∧ f.ok = true ∧ s.lstate l = 3 ∧ (s.wlink l).check f = SeqCheck.next ∧ (s.wlink l).held = [] ∧ (s.wlink 4).held = [] ∧ s.wian.serving = [] ∧ s.discovering = false ∧ f.type = 3 ∧ s.routeOf f.dst < 4 ∧ s.routeOf f.dst ≠ l ∧ (s.fld WIAN_STAT_DSTATE ≠ 3 ∨ s.on (WIAN_LINK_STAT_TREE (s.routeOf f.dst)) = true)) ∧
    (∃ (s : State) (l : Nat) (f : Frame) (us : List Upset), s.runs ∧ l < 4 ∧ f.ok = true ∧ s.lstate l = 3 ∧ (s.wlink l).check f = SeqCheck.next ∧ (s.wlink l).held = [] ∧ (s.wlink 4).held = [] ∧ s.wian.serving = [] ∧ s.discovering = false ∧ f.type = 2 ∧ s.routeOf f.dst < 4 ∧ s.routeOf f.dst ≠ l ∧ (s.fld WIAN_STAT_DSTATE ≠ 3 ∨ s.on (WIAN_LINK_STAT_TREE (s.routeOf f.dst)) = true)) ∧
    (∃ (s : State) (l : Nat) (f : Frame) (us : List Upset), s.runs ∧ l < 4 ∧ f.ok = true ∧ s.lstate l = 3 ∧ (s.wlink l).check f = SeqCheck.next ∧ (s.wlink l).held = [] ∧ (s.wlink 4).held = [] ∧ s.wian.serving = [] ∧ s.discovering = false ∧ f.type = 4 ∧ s.routeOf f.dst < 4 ∧ s.routeOf f.dst ≠ l ∧ (s.fld WIAN_STAT_DSTATE ≠ 3 ∨ s.on (WIAN_LINK_STAT_TREE (s.routeOf f.dst)) = true)) ∧
    (∃ (s : State) (l : Nat) (f : Frame) (us : List Upset), s.runs ∧ l < 4 ∧ f.ok = true ∧ s.lstate l = 3 ∧ (s.wlink l).check f = SeqCheck.next ∧ (s.wlink l).held = [] ∧ (s.wlink 4).held = [] ∧ s.wian.serving = [] ∧ s.discovering = false ∧ (f.type = 1 ∨ f.type = 3) ∧ s.routeOf f.dst = 4 ∧ s.routeOf f.src < 4 ∧ s.peerCheck f ≠ 0) ∧
    (∃ (s : State) (l : Nat) (f : Frame) (us : List Upset), s.runs ∧ l < 4 ∧ f.ok = true ∧ s.lstate l = 3 ∧ (s.wlink l).check f = SeqCheck.next ∧ (s.wlink l).held = [] ∧ (s.wlink 4).held = [] ∧ s.wian.serving = [] ∧ s.discovering = false ∧ (f.type = 1 ∨ f.type = 3) ∧ s.routeOf f.dst = 4 ∧ s.routeOf f.src < 4 ∧ s.peerCheck f = 0 ∧ s.memIdle ∧ f.type = 1) ∧
    (∃ (s : State) (l : Nat) (f : Frame) (us : List Upset), s.runs ∧ l < 4 ∧ f.ok = true ∧ s.lstate l = 3 ∧ (s.wlink l).check f = SeqCheck.next ∧ (s.wlink l).held = [] ∧ (s.wlink 4).held = [] ∧ s.wian.serving = [] ∧ s.discovering = false ∧ (f.type = 1 ∨ f.type = 3) ∧ s.routeOf f.dst = 4 ∧ s.routeOf f.src < 4 ∧ s.peerCheck f = 0 ∧ s.memIdle ∧ f.type = 3) ∧
    (∃ (s : State) (l : Nat) (f : Frame) (us : List Upset), s.runs ∧ l < 4 ∧ f.ok = true ∧ s.lstate l = 3 ∧ (s.wlink l).check f = SeqCheck.next ∧ (s.wlink l).held = [] ∧ (s.wlink 4).held = [] ∧ s.wian.serving = [] ∧ s.discovering = false ∧ (f.type = 1 ∨ f.type = 3) ∧ (4 < s.routeOf f.dst ∨ s.routeOf f.dst = l ∨ s.routeOf f.dst < 4 ∧ ¬(s.fld WIAN_STAT_DSTATE ≠ 3 ∨ s.on (WIAN_LINK_STAT_TREE (s.routeOf f.dst)) = true)) ∧ s.routeOf f.src < 4) :=
  ⟨⟨(fab up), 1, (wr 1 6 5 5 0), [], by unfold State.runs; decide +kernel⟩,
   ⟨(fab up), 1, (wr 1 6 5 5 0), [], by unfold State.runs; decide +kernel⟩,
   ⟨(fab up), 1, (rd 2 6 5 5 0), [], by unfold State.runs; decide +kernel⟩,
   ⟨(fab up), 1, (wrack 6 5 0), [], by unfold State.runs; decide +kernel⟩,
   ⟨(fab up), 1, (rdr 6 5 0), [], by unfold State.runs; decide +kernel⟩,
   ⟨(fab up), 1, (wr 1 3 5 5 0), [], by unfold State.runs; decide +kernel⟩,
   ⟨(win (fab up)), 1, (wr 1 3 5 5 0), [], by unfold State.runs State.memIdle; decide +kernel⟩,
   ⟨(win (fab up)), 1, (rd 2 3 5 5 0), [], by unfold State.runs State.memIdle; decide +kernel⟩,
   ⟨(fab up), 1, (wr 1 5 5 5 0), [], by unfold State.runs; decide +kernel⟩⟩

end PeerRequests

namespace FrameSequence

def evs (s : State) : State := { s with evc := { s.evc with src := ([220,221,225,226,227,228,229,403] : List Nat).map (fun e => (e, { s.source e with cfg := 0x11 })) } }
def lk (l : Nat) (f : WLink → WLink) (s : State) : State := s.setWlink l (f (s.wlink l))
def ls (l st : Nat) (s : State) : State := s.setFld (WIAN_LINK_STAT_STATE l) st
def fab (s : State) : State := let s := (evs s).setFld WIAN_ID_ADDR 3; ls 1 3 (ls 0 3 (routeWrite 7 15 (routeWrite 6 0 (routeWrite 5 1 (routeWrite 3 4 (s.setFld WIAN_CTL_EN 1))))))
def sq (n : Nat) (f : Frame) : Frame := f.put 160 16 n
def pay (n : Nat) : List Gran := (List.range n).map (fun i => BitVec.ofNat 128 (0x1111111122222222 * (i+1)))
def wr (n dst src g seq : Nat) : Frame := sq seq (mkFrame 1 (n-1) 0 dst src 9 7 g (pay ((n+1)/2*2)))
def rd (n dst src g seq : Nat) : Frame := sq seq (mkFrame 3 (n-1) 0 dst src 9 7 g [])
def wrack (dst src seq : Nat) : Frame := sq seq (mkFrame 2 0 0 dst src 9 7 0 [])
def rdr (dst src seq : Nat) : Frame := sq seq (mkFrame 4 0 0 dst src 9 7 0 (pay 2))
def linkF (ack nak rb v0 v1 v2 : Nat) : Frame := mkFrame 0xC 0 0 0 0 0 0 (ack + rb * 2^16 + nak * 2^31 + v0 * 2^32 + v1 * 2^48 + v2 * 2^64) []
def ctl (t sqn : Nat) : Frame := sq sqn (mkFrame t 0 0 0 0 0 0 5 [])
def rp : List Frame := [wr 1 5 3 5 10, ctl 9 11, rd 1 5 3 5 12]
def wf (f : Frame) : Wire := { frame := f, hdr := (crc32 (bytesOf f.hdr.toNat 28 ++ payBytes f.pay)) ++ f.hdr, pay := f.pay, tag := none }
def rpw : List Wire := rp.map wf

def ws0 : State := lk 0 (fun k ↦ { k with txSeq := 13, credit := { vc0 := 5, vc1 := 6, vc2 := 7 }, txq := [wr 1 5 3 5 0], replay := rpw }) (fab up)
def ws1 : State := lk 0 (fun k ↦ { k with rxSeq := 65535, nakd := true, nakDue := true }) (fab up)
def ws2 : State := lk 0 (fun k ↦ { k with credit := { vc0 := 2, vc1 := 0, vc2 := 0 }, txq := [wr 1 5 3 5 0] }) (fab up)
def ws3 : State := lk 0 (fun k ↦ { k with txSeq := 65535, txq := [wr 1 5 3 5 0, wrack 5 3 0, ctl 9 0, wr 2 5 3 5 0], enc := true }) (fab up)
def ws4 : State := lk 0 (fun k ↦ { k with txSeq := 13, replay := rpw, resend := 3 }) (fab up)

/-- States and operands that meet the hypotheses of the clauses of `FrameSequence`. -/
theorem witness_FrameSequence :
    (∃ (s : State) (l : Nat) (f : Frame) (m : Nat), s.runs ∧ l < 4 ∧ s.lstate l = 3 ∧ f.type = 1 ∧ (s.wlink l).check f = SeqCheck.old ∧ m ≠ l) ∧
    (∃ (s : State) (l : Nat) (f : Frame) (m : Nat), s.runs ∧ l < 4 ∧ s.lstate l = 3 ∧ f.type = 1 ∧ (s.wlink l).check f = SeqCheck.gap ∧ m ≠ l) ∧
    (∃ (s : State) (l : Nat) (f : Frame) (m : Nat), s.runs ∧ l < 4 ∧ s.lstate l = 3 ∧ f.type = 3 ∧ (s.wlink l).check f = SeqCheck.old ∧ m ≠ l) ∧
    (∃ (s : State) (l : Nat) (f : Frame) (m : Nat), s.runs ∧ l < 4 ∧ s.lstate l = 3 ∧ f.type = 3 ∧ (s.wlink l).check f = SeqCheck.gap ∧ m ≠ l) ∧
    (∃ (s : State) (l : Nat) (f : Frame) (m : Nat), s.runs ∧ l < 4 ∧ s.lstate l = 3 ∧ f.type = 2 ∧ (s.wlink l).check f = SeqCheck.old ∧ m ≠ l) ∧
    (∃ (s : State) (l : Nat) (f : Frame) (m : Nat), s.runs ∧ l < 4 ∧ s.lstate l = 3 ∧ f.type = 2 ∧ (s.wlink l).check f = SeqCheck.gap ∧ m ≠ l) ∧
    (∃ (s : State) (l : Nat) (f : Frame) (m : Nat), s.runs ∧ l < 4 ∧ s.lstate l = 3 ∧ f.type = 4 ∧ (s.wlink l).check f = SeqCheck.old ∧ m ≠ l) ∧
    (∃ (s : State) (l : Nat) (f : Frame) (m : Nat), s.runs ∧ l < 4 ∧ s.lstate l = 3 ∧ f.type = 4 ∧ (s.wlink l).check f = SeqCheck.gap ∧ m ≠ l) ∧
    (∃ (s : State) (l : Nat) (f : Frame) (m : Nat), s.runs ∧ l < 4 ∧ s.lstate l = 3 ∧ f.type = 13 ∧ (s.wlink l).check f = SeqCheck.old ∧ m ≠ l) ∧
    (∃ (s : State) (l : Nat) (f : Frame) (m : Nat), s.runs ∧ l < 4 ∧ s.lstate l = 3 ∧ f.type = 13 ∧ (s.wlink l).check f = SeqCheck.gap ∧ m ≠ l) ∧
    (∃ (s : State) (l : Nat) (f : Frame) (m : Nat), s.runs ∧ l < 4 ∧ s.lstate l = 3 ∧ f.type = 8 ∧ (s.wlink l).check f = SeqCheck.old ∧ m ≠ l) ∧
    (∃ (s : State) (l : Nat) (f : Frame) (m : Nat), s.runs ∧ l < 4 ∧ s.lstate l = 3 ∧ f.type = 8 ∧ (s.wlink l).check f = SeqCheck.gap ∧ m ≠ l) ∧
    (∃ (s : State) (l : Nat) (f : Frame) (m : Nat), s.runs ∧ l < 4 ∧ s.lstate l = 3 ∧ f.type = 9 ∧ (s.wlink l).check f = SeqCheck.old ∧ m ≠ l) ∧
    (∃ (s : State) (l : Nat) (f : Frame) (m : Nat), s.runs ∧ l < 4 ∧ s.lstate l = 3 ∧ f.type = 9 ∧ (s.wlink l).check f = SeqCheck.gap ∧ m ≠ l) ∧
    (∃ (s : State) (l : Nat) (f : Frame) (m : Nat), s.runs ∧ l < 4 ∧ s.lstate l = 3 ∧ f.type = 10 ∧ (s.wlink l).check f = SeqCheck.old ∧ m ≠ l) ∧
    (∃ (s : State) (l : Nat) (f : Frame) (m : Nat), s.runs ∧ l < 4 ∧ s.lstate l = 3 ∧ f.type = 10 ∧ (s.wlink l).check f = SeqCheck.gap ∧ m ≠ l) ∧
    (∃ (s : State) (l : Nat) (f : Frame) (m : Nat), s.runs ∧ l < 4 ∧ s.lstate l = 3 ∧ f.type = 11 ∧ (s.wlink l).check f = SeqCheck.old ∧ m ≠ l) ∧
    (∃ (s : State) (l : Nat) (f : Frame) (m : Nat), s.runs ∧ l < 4 ∧ s.lstate l = 3 ∧ f.type = 11 ∧ (s.wlink l).check f = SeqCheck.gap ∧ m ≠ l) ∧
    (∃ (s : State) (l : Nat) (f : Frame) (m : Nat), s.runs ∧ l < 4 ∧ s.lstate l = 3 ∧ m ≠ l) ∧
    (∃ (s : State) (l : Nat) (f : Frame), s.runs ∧ l < 4 ∧ s.lstate l = 3 ∧ (s.wlink l).check f = SeqCheck.next ∧ f.ok = false) ∧
    (∃ (s : State) (l : Nat) (f : Frame) (m : Nat), s.runs ∧ l < 4 ∧ s.lstate l = 3 ∧ f.type = 12 ∧ f.ok = true ∧ f.fld 95 1 = 0 ∧ m ≠ l) ∧
    (∃ (s : State) (l : Nat) (f : Frame) (j : Nat) (x : Wire) (m : Nat), s.runs ∧ l < 4 ∧ s.lstate l = 3 ∧ f.type = 12 ∧ f.ok = true ∧ (dropAcked (f.fld 64 16) (s.wlink l).replay)[j]? = some x ∧ f.fld 95 1 = 1 ∧ x.frame.seq % 2 ^ 15 = f.fld 80 15 ∧ (∀ (m : Nat) (y : Wire), m < j → (dropAcked (f.fld 64 16) (s.wlink l).replay)[m]? = some y → y.frame.seq % 2 ^ 15 ≠ f.fld 80 15) ∧ (s.wlink l).failSeq ≠ BitVec.ofNat 16 x.frame.seq ∧ m ≠ l) ∧
    (∃ (s : State) (l : Nat) (f : Frame) (m : Nat), s.runs ∧ l < 4 ∧ s.lstate l = 3 ∧ ((s.wlink l).ackDue = true ∨ (s.wlink l).nakDue = true) ∧ m ≠ l) ∧
    (∃ (s : State) (l : Nat) (f : Frame) (vc : BitVec 2) (x : Frame), s.runs ∧ l < 4 ∧ s.lstate l = 3 ∧ vc ≠ 2 ∧ (s.wlink l).resend = 0 ∧ List.find? (fun y ↦ decide (y.vc = vc.toNat)) (s.wlink l).txq = some x ∧ x.type ≠ 11 ∧ vc.toNat < 2 ∧ x.flits (s.wlink l).enc ≤ (s.wlink l).credit.get vc.toNat ∧ x.flits (s.wlink l).enc ≤ 8192 ∧ (s.wlink l).replay = [] ∧ ((s.wlink l).enc = false ∨ x.type = 12)) ∧
    (∃ (s : State) (l : Nat) (f : Frame) (vc : BitVec 2) (x : Frame), s.runs ∧ l < 4 ∧ s.lstate l = 3 ∧ vc ≠ 2 ∧ (s.wlink l).resend = 0 ∧ List.find? (fun y ↦ decide (y.vc = vc.toNat)) (s.wlink l).txq = some x ∧ x.type ≠ 11 ∧ vc.toNat < 2 ∧ x.flits (s.wlink l).enc ≤ (s.wlink l).credit.get vc.toNat ∧ x.flits (s.wlink l).enc ≤ 8192 ∧ (s.wlink l).replay = [] ∧ (s.wlink l).enc = true ∧ x.type ≠ 12) ∧
    (∃ (s : State) (l : Nat) (f : Frame) (vc : BitVec 2) (x : Frame) (m : Nat), s.runs ∧ l < 4 ∧ s.lstate l = 3 ∧ vc ≠ 2 ∧ (s.wlink l).resend = 0 ∧ List.find? (fun y ↦ decide (y.vc = vc.toNat)) (s.wlink l).txq = some x ∧ x.type ≠ 11 ∧ vc.toNat < 2 ∧ x.flits (s.wlink l).enc ≤ (s.wlink l).credit.get vc.toNat ∧ x.flits (s.wlink l).enc ≤ 8192 ∧ (s.wlink l).replay = [] ∧ m ≠ l) ∧
    (∃ (s : State) (l : Nat) (f : Frame) (vc : BitVec 2) (g : Wire), s.runs ∧ l < 4 ∧ s.lstate l = 3 ∧ vc ≠ 2 ∧ (s.wlink l).replay[(s.wlink l).replay.length - (s.wlink l).resend]? = some g ∧ 0 < (s.wlink l).resend ∧ (s.wlink l).resend ≤ (s.wlink l).replay.length ∧ g.frame.vc = vc.toNat) :=
  ⟨⟨(lk 0 id (fab up)), 1, (wr 1 3 5 5 65534), 3, by unfold State.runs; decide +kernel⟩,
   ⟨(lk 0 id (fab up)), 1, (wr 1 3 5 5 1), 3, by unfold State.runs; decide +kernel⟩,
   ⟨(lk 0 id (fab up)), 1, (rd 1 3 5 5 65534), 3, by unfold State.runs; decide +kernel⟩,
   ⟨(lk 0 id (fab up)), 1, (rd 1 3 5 5 1), 3, by unfold State.runs; decide +kernel⟩,
   ⟨(lk 0 id (fab up)), 1, (wrack 3 5 65534), 3, by unfold State.runs; decide +kernel⟩,
   ⟨(lk 0 id (fab up)), 1, (wrack 3 5 1), 3, by unfold State.runs; decide +kernel⟩,
   ⟨(lk 0 id (fab up)), 1, (rdr 3 5 65534), 3, by unfold State.runs; decide +kernel⟩,
   ⟨(lk 0 id (fab up)), 1, (rdr 3 5 1), 3, by unfold State.runs; decide +kernel⟩,
   ⟨(lk 0 id (fab up)), 1, (ctl 13 65534), 3, by unfold State.runs; decide +kernel⟩,
   ⟨(lk 0 id (fab up)), 1, (ctl 13 1), 3, by unfold State.runs; decide +kernel⟩,
   ⟨(lk 0 id (fab up)), 1, (ctl 8 65534), 3, by unfold State.runs; decide +kernel⟩,
   ⟨(lk 0 id (fab up)), 1, (ctl 8 1), 3, by unfold State.runs; decide +kernel⟩,
   ⟨(lk 0 id (fab up)), 1, (ctl 9 65534), 3, by unfold State.runs; decide +kernel⟩,
   ⟨(lk 0 id (fab up)), 1, (ctl 9 1), 3, by unfold State.runs; decide +kernel⟩,
   ⟨(lk 0 id (fab up)), 1, (ctl 10 65534), 3, by unfold State.runs; decide +kernel⟩,
   ⟨(lk 0 id (fab up)), 1, (ctl 10 1), 3, by unfold State.runs; decide +kernel⟩,
   ⟨(lk 0 id (fab up)), 1, (ctl 11 65534), 3, by unfold State.runs; decide +kernel⟩,
   ⟨(lk 0 id (fab up)), 1, (ctl 11 1), 3, by unfold State.runs; decide +kernel⟩,
   ⟨(lk 0 id (fab up)), 1, (wr 1 3 5 5 0), 3, by unfold State.runs; decide +kernel⟩,
   ⟨(lk 0 id (fab up)), 1, (ctl 6 0), by unfold State.runs; decide +kernel⟩,
   ⟨(lk 0 id (fab up)), 1, (linkF 10 0 0 1 2 3), 3, by unfold State.runs; decide +kernel⟩,
   ⟨ws0, 0, (linkF 11 1 12 1 0 0), 0, (Option.get ((dropAcked ((linkF 11 1 12 1 0 0).fld 64 16) (ws0.wlink 0).replay)[0]?) (by decide +kernel)), 3, by
     unfold State.runs
     and_intros <;> first | decide +kernel | exact fun m y h => absurd h (Nat.not_lt_zero _)⟩,
   ⟨ws1, 0, (wr 1 3 5 5 0), 3, by unfold State.runs; decide +kernel⟩,
   ⟨ws2, 0, (wr 1 3 5 5 0), 0#2, (Option.get (List.find? (fun y ↦ decide (y.vc = (0#2).toNat)) (ws2.wlink 0).txq) (by decide +kernel)), by unfold State.runs; decide +kernel⟩,
   ⟨ws3, 0, (wr 1 3 5 5 0), 1#2, (Option.get (List.find? (fun y ↦ decide (y.vc = (1#2).toNat)) (ws3.wlink 0).txq) (by decide +kernel)), by unfold State.runs; decide +kernel⟩,
   ⟨ws3, 0, (wr 1 3 5 5 0), 1#2, (Option.get (List.find? (fun y ↦ decide (y.vc = (1#2).toNat)) (ws3.wlink 0).txq) (by decide +kernel)), 3, by unfold State.runs; decide +kernel⟩,
   ⟨ws4, 0, (wr 1 3 5 5 0), 0#2, (Option.get ((ws4.wlink 0).replay[(ws4.wlink 0).replay.length - (ws4.wlink 0).resend]?) (by decide +kernel)), by unfold State.runs; decide +kernel⟩⟩

end FrameSequence

namespace LinkStatesAndAuthentication

def evs (s : State) : State := { s with evc := { s.evc with src := ([220,221,225,226,227,228,229,403] : List Nat).map (fun e => (e, { s.source e with cfg := 0x11 })) } }
def lk (l : Nat) (f : WLink → WLink) (s : State) : State := s.setWlink l (f (s.wlink l))
def ls (l st : Nat) (s : State) : State := s.setFld (WIAN_LINK_STAT_STATE l) st
def fab (s : State) : State := let s := (evs s).setFld WIAN_ID_ADDR 3; ls 1 3 (ls 0 3 (routeWrite 7 15 (routeWrite 6 0 (routeWrite 5 1 (routeWrite 3 4 (s.setFld WIAN_CTL_EN 1))))))
def sq (n : Nat) (f : Frame) : Frame := f.put 160 16 n
def capx (step need enc num seq p0 p1 : Nat) : Frame := sq seq (mkFrame 0xD 0 0 0 0 0 0 (0x12345678 + 0x1122334455667788 * 2^32 + (need * 2^7 + num * 16 + enc * 8 + 5) * 2^112 + step * 2^120) (if step = 1 ∨ step = 2 then [BitVec.ofNat 128 p0, BitVec.ofNat 128 p1] else []))
def au (s : State) : State := s.setFld SEC_CTL_LINK_AUTH 1
def fk (s : State) : State := s.setFld SEC_STAT_FABKEY 1
def a2 (s : State) : State := ls 0 2 s
def tbs (n : Nat) (s : State) : State := { s with clk := { s.clk with tb := BitVec.ofNat 64 n } }
def n1 : BitVec 256 := 0x5555
def tree (s : State) : State := (s.setFld (WIAN_LINK_STAT_TREE 0) 1).setFld (WIAN_LINK_STAT_PARENT 0) 1

def ws0 : State := (ls 0 0 (fab up)).setFld (WIAN_LINK_STAT_LANE_DEG 0) 1
def ws1 : State := (ls 0 2 (fab up)).setFld HLT_CTL_AUTO 1
def ws2 : State := lk 0 (fun k ↦ { k with nonce := some n1 }) (a2 (fk (fab up)))
def ws3 : State := lk 0 (fun k ↦ { k with nonce := some n1, peerNon := some 7, tagSent := true }) (a2 (fk (fab up)))
def ws4 : State := (tree (fab up)).setFld WIAN_CTL_AUTO 0
def ws5 : State := tbs 1000000 (ls 0 0 ((fab up).setFld (WIAN_LINK_CTL_EN 0) 1))
def ws6 : State := ls 0 1 ((fab up).setFld (WIAN_LINK_CTL_EN 0) 1)
def ws7 : State := ((tbs 1000000 (a2 (fab up))).setFld HLT_LANE_CFG_THR 9).setFld (WIAN_LINK_CNT_DOWNS 0) 65535
def ws8 : State := ((fab up).setFld HLT_LANE_CFG_THR 9).setFld HLT_CTL_AUTO 0

/-- States and operands that meet the hypotheses of the clauses of `LinkStatesAndAuthentication`. -/
theorem witness_LinkStatesAndAuthentication :
    (∃ (s : State) (l : Nat) (f : Frame), s.runs ∧ l < 4 ∧ f.ok = true ∧ f.type = 13 ∧ (s.wlink l).check f = SeqCheck.next ∧ s.lstate l = 3) ∧
    (∃ (s : State) (l : Nat) (f : Frame), s.runs ∧ l < 4 ∧ f.ok = true ∧ f.type = 13 ∧ (s.wlink l).check f = SeqCheck.next ∧ s.lstate l = 2 ∧ f.fld 184 2 = 0 ∧ (s.on SEC_CTL_LINK_AUTH || s.on SEC_CTL_LINK_ENC) = false ∧ f.fld 183 1 = 0) ∧
    (∃ (s : State) (l : Nat) (f : Frame), s.runs ∧ l < 4 ∧ f.ok = true ∧ f.type = 13 ∧ (s.wlink l).check f = SeqCheck.next ∧ s.lstate l = 2 ∧ f.fld 184 2 = 0 ∧ ((s.on SEC_CTL_LINK_AUTH || s.on SEC_CTL_LINK_ENC) = true ∨ f.fld 183 1 = 1) ∧ s.on SEC_STAT_FABKEY = false) ∧
    (∃ (s : State) (l : Nat) (f : Frame), s.runs ∧ l < 4 ∧ f.ok = true ∧ f.type = 13 ∧ (s.wlink l).check f = SeqCheck.next ∧ s.lstate l = 2 ∧ f.fld 184 2 = 0 ∧ ((s.on SEC_CTL_LINK_AUTH || s.on SEC_CTL_LINK_ENC) = true ∨ f.fld 183 1 = 1) ∧ s.on SEC_STAT_FABKEY = true ∧ s.on SEC_STAT_ENT_FAIL = false ∧ s.sec.drawn < 2 ^ 20) ∧
    (∃ (s : State) (l : Nat) (f : Frame) (n : BitVec 256), s.runs ∧ l < 4 ∧ f.ok = true ∧ f.type = 13 ∧ (s.wlink l).check f = SeqCheck.next ∧ s.lstate l = 2 ∧ f.fld 184 2 = 1 ∧ (s.wlink l).nonce = some n) ∧
    (∃ (s : State) (l : Nat) (f : Frame) (n : BitVec 256) (p : BitVec 256), s.runs ∧ l < 4 ∧ f.ok = true ∧ f.type = 13 ∧ (s.wlink l).check f = SeqCheck.next ∧ s.lstate l = 2 ∧ f.fld 184 2 = 2 ∧ (s.wlink l).nonce = some n ∧ (s.wlink l).peerNon = some p ∧ (s.wlink l).tagSent = true) ∧
    (∃ (s : State) (l : Nat) (lane : Option (BitVec 3)) (m : Nat), s.runs ∧ l < 4 ∧ s.lstate l ≠ 0 ∧ s.lstate l ≠ 4 ∧ s.on WIAN_CTL_AUTO = false ∧ m ≠ l) ∧
    (∃ (s : State) (l : Nat) (lane : Option (BitVec 3)), s.runs ∧ l < 4 ∧ s.lstate l ≠ 0 ∧ s.lstate l ≠ 4 ∧ s.on WIAN_CTL_AUTO = false ∧ s.on (WIAN_LINK_STAT_PARENT l) = true) ∧
    (∃ (s : State) (l : Nat) (lane : Option (BitVec 3)), s.runs ∧ l < 4 ∧ s.lstate l ≠ 0 ∧ s.lstate l ≠ 4 ∧ s.on WIAN_CTL_AUTO = true ∧ s.on WIAN_CTL_EN = true ∧ s.on (WIAN_LINK_STAT_TREE l) = true) ∧
    (∃ (s : State) (l : Nat), s.runs ∧ l < 4 ∧ s.lstate l = 4) ∧
    (∃ (s : State) (l : Nat) (n : BitVec 3), s.runs ∧ l < 4 ∧ s.on HLT_CTL_AUTO = true ∧ (match exec (Instr.linkDown (l, none)) s with       | Host.Outcome.next u => u       | x => s).swapCause     4 l n.toNat 0 =   none) ∧
    (∃ (s : State) (l : Nat), s.runs ∧ l < 4 ∧ s.lstate l = 0 ∧ s.on (WIAN_LINK_STAT_LANE_DEG l) = true) ∧
    (∃ (s : State) (l : Nat) (m : Nat), s.runs ∧ l < 4 ∧ s.lstate l = 0 ∧ s.on (WIAN_LINK_STAT_LANE_DEG l) = false ∧ s.on WIAN_CTL_EN = true ∧ s.on (WIAN_LINK_CTL_EN l) = true ∧ 1000000 ≤ (s.clk.tb - (s.wlink l).since).toNat ∧ m ≠ l) ∧
    (∃ (s : State) (l : Nat) (lanes : BitVec 5), s.runs ∧ l < 4 ∧ s.lstate l = 1 ∧ ∃ n, n < 5 ∧ (n ≠ if s.hlt.laneUsed.getLsbD l = true then s.fld (WIAN_LINK_STAT_SPARE l) else 4) ∧ lanes.getLsbD n = false) ∧
    (∃ (s : State) (l : Nat) (lanes : BitVec 5) (m : Nat), s.runs ∧ l < 4 ∧ s.lstate l = 1 ∧ (∀ (n : Nat), n < 5 → (n ≠ if s.hlt.laneUsed.getLsbD l = true then s.fld (WIAN_LINK_STAT_SPARE l) else 4) → lanes.getLsbD n = true) ∧ m ≠ l) ∧
    (∃ (s : State) (l : Nat), s.runs ∧ l < 4 ∧ s.on WIAN_CTL_EN = true ∧ s.on (WIAN_LINK_CTL_EN l) = true ∧ s.lstate l ≠ 0 ∧ s.on WIAN_CTL_AUTO = false) ∧
    (∃ (s : State) (l : Nat) (m : Nat), s.runs ∧ l < 4 ∧ s.lstate l = 2 ∧ 1000000 ≤ (s.clk.tb - (s.wlink l).since).toNat ∧ m ≠ l) ∧
    (∃ (s : State) (l : Nat) (lane : BitVec 3) (m : BitVec 8), s.runs ∧ l < 4 ∧ lane.toNat < 5 ∧ m.toNat < s.fld HLT_LANE_CFG_THR ∧ s.hlt.log.length < 64 ∧ s.on HLT_CTL_AUTO = false) :=
  ⟨⟨ws0, 1, (capx 0 0 0 1 0 0 0), by unfold State.runs; decide +kernel⟩,
   ⟨ws1, 0, (capx 0 0 0 1 0 0 0), by unfold State.runs; decide +kernel⟩,
   ⟨ws1, 0, (capx 0 1 0 1 0 0 0), by unfold State.runs; decide +kernel⟩,
   ⟨(a2 (fk (au (fab up)))), 0, (capx 0 0 0 1 0 0 0), by unfold State.runs; decide +kernel⟩,
   ⟨ws2, 0, (capx 1 0 0 1 0 9 10), (Option.get ((ws2.wlink 0).nonce) (by decide +kernel)), by unfold State.runs; decide +kernel⟩,
   ⟨ws3, 0, (capx 2 0 0 1 0 0 10), (Option.get ((ws3.wlink 0).nonce) (by decide +kernel)), (Option.get ((ws3.wlink 0).peerNon) (by decide +kernel)), by unfold State.runs; decide +kernel⟩,
   ⟨ws4, 1, none, 3, by unfold State.runs; decide +kernel⟩,
   ⟨ws4, 0, none, by unfold State.runs; decide +kernel⟩,
   ⟨(tree (fab up)), 0, none, by unfold State.runs; decide +kernel⟩,
   ⟨(ls 0 4 (fab up)), 0, by unfold State.runs; decide +kernel⟩,
   ⟨ws0, 3, 4, by unfold State.runs; decide +kernel⟩,
   ⟨ws0, 0, by unfold State.runs; decide +kernel⟩,
   ⟨ws5, 3, 2, by unfold State.runs; decide +kernel⟩,
   ⟨ws6, 0, 30, by unfold State.runs; decide +kernel⟩,
   ⟨ws6, 0, 15, 3, by unfold State.runs; decide +kernel⟩,
   ⟨ws4, 1, by unfold State.runs; decide +kernel⟩,
   ⟨ws7, 0, 3, by unfold State.runs; decide +kernel⟩,
   ⟨ws8, 3, 4, 8, by unfold State.runs; decide +kernel⟩⟩

end LinkStatesAndAuthentication

namespace Discovery

def evs (s : State) : State := { s with evc := { s.evc with src := ([220,221,225,226,227,228,229,403] : List Nat).map (fun e => (e, { s.source e with cfg := 0x11 })) } }
def ls (l st : Nat) (s : State) : State := s.setFld (WIAN_LINK_STAT_STATE l) st
def fab (s : State) : State := let s := (evs s).setFld WIAN_ID_ADDR 3; ls 1 3 (ls 0 3 (routeWrite 7 15 (routeWrite 6 0 (routeWrite 5 1 (routeWrite 3 4 (s.setFld WIAN_CTL_EN 1))))))
def sq (n : Nat) (f : Frame) : Frame := f.put 160 16 n
def S (f : Wian → Wian) (s : State) : State := { s with wian := f s.wian }
def tbs (n : Nat) (s : State) : State := { s with clk := { s.clk with tb := BitVec.ofNat 64 n } }
def own : BitVec 64 := 0x64
def disc (s : State) : State := (s.setFld WIAN_STAT_DSTATE 1).setFld WIAN_CTL_DISC 1
def rnd (n : Nat) (s : State) : State := s.setFld WIAN_STAT_ROUND n
def body (ser : BitVec 64) (d18 : Nat) (d16 : Nat := 0) (p : Nat := 0) (r : Nat := 0) : Nat := ser.toNat + d18 * 2^64 + d16 * 2^80 + p * 2^112 + r * 2^144
def discF (r hops : Nat) (best ser : BitVec 64) (seq : Nat) : Frame := sq seq (mkFrame 8 0 0 0 0 (r % 256) (r / 256) (ser.toNat + (best.toNat % 2^32) * 2^64 + (best.toNat / 2^32) * 2^112 + hops * 2^144) [])
def joinF (ser : BitVec 64) (d r seq : Nat) : Frame := sq seq (mkFrame 9 0 0 0 0 0 0 (body ser d 0 0 r) [])
def asgF (ser : BitVec 64) (a n p r src seq : Nat) : Frame := sq seq (mkFrame 0xA 0 0 a src 0 0 (body ser a n p r) [])
def q (s : State) : State := tbs 100000000 s
def can (s : State) : State := s.setFld WIAN_CTL_CAND 1
def F := (fab up).setReg64 WIAN_SERIAL_LO WIAN_SERIAL_HI 0x64

def ws0 : State := F.setFld WIAN_CTL_AUTO 0
def ws1 : State := q (S (fun w ↦ { w with best := some own, joins := [(own + 5, 3, 1)] }) ((disc (can F)).setFld WIAN_CTL_MAXDEPTH 2))
def ws2 : State := q (S (fun w ↦ { w with best := some 7, hops := 3, parent := some 1, joined := true }) (disc (rnd 258 F)))
def ws3 : State := F.setFld WIAN_CTL_AUTO 1
def ws4 : State := q (S (fun w ↦ { w with best := some 7, hops := 3, parent := some 1 }) (disc (rnd 258 F)))
def ws5 : State := q (S (fun w ↦ { w with best := some own }) (disc (can F)))
def ws6 : State := q (S (fun w ↦ { w with best := some own, joins := [(own + 5, 3, 1)] }) (disc (can F)))
def ws7 : State := q (S (fun w ↦ { w with best := some own, joins := [(own, 3, 1)] }) (disc (can F)))
def ws8 : State := q (S (fun w ↦ { w with best := some own, parent := some 1, joins := [(9, 3, 1), (own + 5, 2, 0)] }) (disc (rnd 258 F)))

/-- States and operands that meet the hypotheses of the clauses of `Discovery`. -/
theorem witness_Discovery :
    (∃ (s : State) (l : Nat) (f : Frame), s.runs ∧ l < 4 ∧ s.on WIAN_CTL_EN = true) ∧
    (∃ (s : State) (l : Nat) (f : Frame) (m : Nat), s.runs ∧ l < 4 ∧ s.discovering = true ∧ (∀ (x : BitVec 64), s.wian.lastDisc = some x → 1000 ≤ (s.clk.tb - x).toNat) ∧ m < 4) ∧
    (∃ (s : State) (l : Nat) (f : Frame), s.runs ∧ l < 4 ∧ f.ok = true ∧ s.lstate l = 3 ∧ (s.wlink l).check f = SeqCheck.next ∧ f.type = 8 ∧ f.tag + 256 * f.tick < s.fld WIAN_STAT_ROUND) ∧
    (∃ (s : State) (l : Nat) (f : Frame), s.runs ∧ l < 4 ∧ f.ok = true ∧ s.lstate l = 3 ∧ (s.wlink l).check f = SeqCheck.next ∧ f.type = 8 ∧ s.fld WIAN_STAT_ROUND < f.tag + 256 * f.tick ∧ s.on WIAN_CTL_AUTO = false ∧ s.discovering = false) ∧
    (∃ (s : State) (l : Nat) (f : Frame), s.runs ∧ l < 4 ∧ f.ok = true ∧ s.lstate l = 3 ∧ (s.wlink l).check f = SeqCheck.next ∧ f.type = 8 ∧ s.fld WIAN_STAT_ROUND < f.tag + 256 * f.tick ∧ (s.on WIAN_CTL_AUTO = true ∨ s.discovering = true)) ∧
    (∃ (s : State) (l : Nat) (f : Frame), s.runs ∧ l < 4 ∧ f.ok = true ∧ s.lstate l = 3 ∧ (s.wlink l).check f = SeqCheck.next ∧ f.type = 8 ∧ s.fld WIAN_STAT_ROUND = f.tag + 256 * f.tick ∧ s.discovering = true) ∧
    (∃ (s : State) (l : Nat) (f : Frame) (p : Nat), s.runs ∧ l < 4 ∧ f.ok = true ∧ s.lstate l = 3 ∧ (s.wlink l).check f = SeqCheck.next ∧ f.type = 9 ∧ s.discovering = true ∧ f.fld 208 16 = s.fld WIAN_STAT_ROUND ∧ s.wian.parent = some p ∧ s.isBest = false) ∧
    (∃ (s : State) (l : Nat) (f : Frame) (p : Nat), s.runs ∧ l < 4 ∧ s.wian.parent = some p ∧ s.discovering = true ∧ s.isBest = false ∧ s.wian.joined = false ∧ s.quiet s.wian.changed = true) ∧
    (∃ (s : State) (l : Nat) (f : Frame), s.runs ∧ l < 4 ∧ s.discovering = true ∧ s.isBest = true ∧ s.quiet s.wian.changed = true ∧ s.quiet s.wian.lastJoin = true ∧ (∀ (j : Nat), j < 5 → (s.wlink j).held = []) ∧ s.wian.joins = []) ∧
    (∃ (s : State) (l : Nat) (f : Frame) (ser : BitVec 64) (d : Nat) (m : Nat), s.runs ∧ l < 4 ∧ s.discovering = true ∧ s.isBest = true ∧ s.quiet s.wian.changed = true ∧ s.quiet s.wian.lastJoin = true ∧ (∀ (j : Nat), j < 5 → (s.wlink j).held = []) ∧ s.wian.joins = [(ser, d, m)] ∧ ser ≠ s.serial ∧ m < 4 ∧ d ≤ s.fld WIAN_CTL_MAXDEPTH) ∧
    (∃ (s : State) (l : Nat) (f : Frame) (ser : BitVec 64) (d : Nat) (m : Nat), s.runs ∧ l < 4 ∧ s.discovering = true ∧ s.isBest = true ∧ s.quiet s.wian.changed = true ∧ s.quiet s.wian.lastJoin = true ∧ (∀ (j : Nat), j < 5 → (s.wlink j).held = []) ∧ s.wian.joins = [(ser, d, m)] ∧ ser ≠ s.serial ∧ m < 4 ∧ s.fld WIAN_CTL_MAXDEPTH < d) ∧
    (∃ (s : State) (l : Nat) (f : Frame) (d : Nat) (m : Nat), s.runs ∧ l < 4 ∧ s.discovering = true ∧ s.isBest = true ∧ s.quiet s.wian.changed = true ∧ s.quiet s.wian.lastJoin = true ∧ (∀ (j : Nat), j < 5 → (s.wlink j).held = []) ∧ s.wian.joins = [(s.serial, d, m)] ∧ d ≤ s.fld WIAN_CTL_MAXDEPTH) ∧
    (∃ (s : State) (l : Nat) (f : Frame), s.runs ∧ l < 4 ∧ s.discovering = true ∧ s.isBest = false ∧ s.wian.joined = true ∧ (∀ (j : Nat), j < 5 → (s.wlink j).held = [])) ∧
    (∃ (s : State) (l : Nat) (f : Frame), s.runs ∧ l < 4 ∧ f.ok = true ∧ s.lstate l = 3 ∧ (s.wlink l).check f = SeqCheck.next ∧ f.type = 10 ∧ f.fld 208 16 = s.fld WIAN_STAT_ROUND ∧ BitVec.ofNat 64 (f.fld 64 64) = s.serial ∧ s.discovering = true ∧ f.fld 128 16 < 4096 ∧ (∀ (j : Nat), j < 5 → (s.wlink j).held = [])) ∧
    (∃ (s : State) (l : Nat) (f : Frame) (j : BitVec 64 × Nat × Nat), s.runs ∧ l < 4 ∧ f.ok = true ∧ s.lstate l = 3 ∧ (s.wlink l).check f = SeqCheck.next ∧ f.type = 10 ∧ f.fld 208 16 = s.fld WIAN_STAT_ROUND ∧ BitVec.ofNat 64 (f.fld 64 64) ≠ s.serial ∧ List.find? (fun j ↦ decide (j.fst = BitVec.ofNat 64 (f.fld 64 64))) s.wian.joins = some j) :=
  ⟨⟨ws0, 3, (discF 0 2 5 6 0), by unfold State.runs; decide +kernel⟩,
   ⟨ws1, 3, (discF 0 2 5 6 0), 3, by unfold State.runs; decide +kernel, by decide +kernel, by decide +kernel, (fun x h => by
      rw [show ws1.wian.lastDisc = none by decide +kernel] at h; cases h), by decide +kernel⟩,
   ⟨ws2, 1, (discF 0 2 5 6 0), by unfold State.runs; decide +kernel⟩,
   ⟨ws0, 1, (discF 258 2 5 6 0), by unfold State.runs; decide +kernel⟩,
   ⟨ws3, 1, (discF 258 2 5 6 0), by unfold State.runs; decide +kernel⟩,
   ⟨ws1, 1, (discF 0 2 5 6 0), by unfold State.runs; decide +kernel⟩,
   ⟨ws2, 1, (joinF 9 4 258 0), (Option.get (ws2.wian.parent) (by decide +kernel)), by unfold State.runs; decide +kernel⟩,
   ⟨ws4, 3, (discF 0 2 5 6 0), (Option.get (ws4.wian.parent) (by decide +kernel)), by unfold State.runs; decide +kernel⟩,
   ⟨ws5, 3, (discF 0 2 5 6 0), by unfold State.runs; decide +kernel⟩,
   ⟨ws6, 3, (discF 0 2 5 6 0), (own + 5), 3, 1, by unfold State.runs; decide +kernel⟩,
   ⟨ws1, 3, (discF 0 2 5 6 0), (own + 5), 3, 1, by unfold State.runs; decide +kernel⟩,
   ⟨ws7, 3, (discF 0 2 5 6 0), 3, 1, by unfold State.runs; decide +kernel⟩,
   ⟨ws2, 3, (discF 0 2 5 6 0), by unfold State.runs; decide +kernel⟩,
   ⟨ws1, 1, (asgF own 7 20 1000 0 3 0), by unfold State.runs; decide +kernel⟩,
   ⟨ws8, 1, (asgF 9 7 20 1000 258 3 0), (Option.get (List.find? (fun j ↦ decide (j.fst = BitVec.ofNat 64 ((asgF 9 7 20 1000 258 3 0).fld 64 64))) ws8.wian.joins) (by decide +kernel)), by unfold State.runs; decide +kernel⟩⟩

end Discovery

namespace TimeSynchronisation

def evs (s : State) : State := { s with evc := { s.evc with src := ([220,221,225,226,227,228,229,403] : List Nat).map (fun e => (e, { s.source e with cfg := 0x11 })) } }
def lk (l : Nat) (f : WLink → WLink) (s : State) : State := s.setWlink l (f (s.wlink l))
def ls (l st : Nat) (s : State) : State := s.setFld (WIAN_LINK_STAT_STATE l) st
def fab (s : State) : State := let s := (evs s).setFld WIAN_ID_ADDR 3; ls 1 3 (ls 0 3 (routeWrite 7 15 (routeWrite 6 0 (routeWrite 5 1 (routeWrite 3 4 (s.setFld WIAN_CTL_EN 1))))))
def sq (n : Nat) (f : Frame) : Frame := f.put 160 16 n
def pay (n : Nat) : List Gran := (List.range n).map (fun i => BitVec.ofNat 128 (0x1111111122222222 * (i+1)))
def wr (n dst src g seq : Nat) : Frame := sq seq (mkFrame 1 (n-1) 0 dst src 9 7 g (pay ((n+1)/2*2)))
def rd (n dst src g seq : Nat) : Frame := sq seq (mkFrame 3 (n-1) 0 dst src 9 7 g [])
def wrack (dst src seq : Nat) : Frame := sq seq (mkFrame 2 0 0 dst src 9 7 0 [])
def rdr (dst src seq : Nat) : Frame := sq seq (mkFrame 4 0 0 dst src 9 7 0 (pay 2))
def resL : Nat → Nat → State → List Upset → (Nat → Access) → List MemRes
  | 0, _, _, _, _ => []
  | k + 1, i, z, us, acc => match perform (acc i) (strike (bankOf z.build (acc i).gran) us z) with
    | (r, z') => r :: resL k (i + 1) z' us acc
def S (f : Wian → Wian) (s : State) : State := { s with wian := f s.wian }
def tbs (n : Nat) (s : State) : State := { s with clk := { s.clk with tb := BitVec.ofNat 64 n, tclk := n } }
def F := fab up
def ts (seq op : Nat) (t1 t3 : Nat) : Frame := sq seq (mkFrame 0xB 0 0 0 0 0 0 (t1 + (t3 % 2^32) * 2^64 + (t3 / 2^32) * 2^112 + op * 2^152) [])
def std (s : State) : State := (s.setReg (WIAN_LINK_PART_SER_LO 0) 0xFFFFFFFF).setReg (WIAN_LINK_PART_SER_HI 0) 0xFFFFFFFF
def sy (c : Int) (fr : Nat) (s : State) : State := S (fun w => { w with corr := c, lastCorr := 0 }) ((s.setFld WIAN_STAT_SYNC 2).setFld TBU_TB_STAT_FRAC fr)
def tx (loc rem len dev : Nat) (s : State) : State := (((s.setFld (WIAN_TX_LOC_LOC 0) loc).setFld (WIAN_TX_REM_REM 0) rem).setFld (WIAN_TX_CMD_LEN 0) len).setFld (WIAN_TX_CMD_DEV 0) dev
def bz (dir lim : Nat) (s : State) : State := (((s.setFld (WIAN_TX_STAT_BUSY 0) 1).setFld (WIAN_TX_CTL_GO 0) 1).setFld (WIAN_TX_CTL_DIR 0) dir).setFld (WIAN_TX_CTL_TIMEOUT 0) lim
def ch (f : TxChan → TxChan) (s : State) : State := s.setChan 0 (f (s.chan 0))
def x1 (tag n : Nat) : TxFrame := { tag := BitVec.ofNat 8 tag, n := n, since := 5, res := none }
def ack (st idx seq : Nat) : Frame := sq seq (mkFrame 2 0 st 3 5 9 7 idx [])
def dat (n st idx seq : Nat) : Frame := sq seq (mkFrame 4 (n-1) st 3 5 9 7 idx (pay ((n+1)/2*2)))

def ws0 : State := tbs 1000000 (lk 0 (fun k ↦ { k with t1 := some 15999000, lastTs := some 7 }) (std F))
def ws1 : State := tbs 1000000 (id (tx 5 14 3 5 F))
def ws2 : State := tbs 1000000 (id (tx 5 14 0 5 F))
def ws3 : State := tbs 1000000 (ch (fun k ↦ { frames := [x1 9 2], issued := 2, count := 70, abort := k.abort }) (bz 1 1 (tx 5 14 3 5 F)))
def ws4 : State := tbs 1000000 (ch (fun k ↦ { frames := [x1 9 3], issued := 3, count := 70, abort := k.abort }) (bz 0 1 (tx 5 30 20 5 F)))
def ws5 : State := { (tbs 1000000 (bz 0 1 (tx 5 14 3 5 F))) with mem := { (tbs 1000000 (bz 0 1 (tx 5 14 3 5 F))).mem with ecc := [((tbs 1000000 (bz 0 1 (tx 5 14 3 5 F))).rowKey (bankOf (tbs 1000000 (bz 0 1 (tx 5 14 3 5 F))).build 6) (homeOf (tbs 1000000 (bz 0 1 (tx 5 14 3 5 F))).build 6), some Ecc.double)] } }
def ws6 : State := tbs 1000000 (bz 0 1 (tx 5 14 3 5 F))
def ws7 : State := tbs 1000000 (ch (fun k ↦ { frames := [x1 9 3], issued := 3, count := 70, abort := k.abort }) (bz 0 1 (tx 5 14 3 5 F)))

/-- States and operands that meet the hypotheses of the clauses of `TimeSynchronisation`. -/
theorem witness_TimeSynchronisation :
    (∃ (s : State) (l : Nat) (f : Frame), s.runs ∧ l < 4 ∧ f.ok = true ∧ s.lstate l = 3 ∧ (s.wlink l).check f = SeqCheck.next ∧ f.type = 11 ∧ f.fld 216 8 = 0) ∧
    (∃ (s : State) (l : Nat) (f : Frame) (t1 : BitVec 64), s.runs ∧ l < 4 ∧ f.ok = true ∧ s.lstate l = 3 ∧ (s.wlink l).check f = SeqCheck.next ∧ f.type = 11 ∧ f.fld 216 8 ≠ 0 ∧ (s.wlink l).t1 = some t1 ∧ s.on (WIAN_LINK_STAT_PARENT l) = false ∧ (s.wlink l).delays = [] ∧ 0 ≤ (s.tb16 - t1 - (BitVec.ofNat 64 (f.fld 128 32 + f.fld 176 32 * 2 ^ 32) - BitVec.ofNat 64 (f.fld 64 64))).toInt ∧ (s.tb16 - t1 - (BitVec.ofNat 64 (f.fld 128 32 + f.fld 176 32 * 2 ^ 32) - BitVec.ofNat 64 (f.fld 64 64))).toInt < 2 ^ 24) ∧
    (∃ (s : State) (l : Nat) (f : Frame), s.runs ∧ l < 4 ∧ s.lstate l = 3 ∧ s.exchanges l = true ∧ (∀ (x : BitVec 64), (s.wlink l).lastTs = some x → 2 ^ s.fld WIAN_TS_CFG_PER * 1000 ≤ (s.clk.tb - x).toNat)) ∧
    (∃ (s : State) (l : Nat) (f : Frame), s.runs ∧ l < 4 ∧ s.fld WIAN_STAT_SYNC ≠ 0 ∧ s.wian.corr ≠ 0 ∧ s.wian.lastCorr + 2 ^ s.fld WIAN_TS_CFG_SLEW ≤ s.clk.tclk + 1) :=
  ⟨⟨F, 1, (ts 0 0 0 0), by unfold State.runs; decide +kernel⟩,
   ⟨ws0, 0, (ts 0 1 15999100 15999300), (Option.get ((ws0.wlink 0).t1) (by decide +kernel)), by unfold State.runs; decide +kernel⟩,
   ⟨ws0, 0, (ts 0 0 0 0), by unfold State.runs; decide +kernel, by decide +kernel, by decide +kernel, by decide +kernel, (fun x h => by
      obtain rfl : (7 : BitVec 64) = x := Option.some.inj ((show (ws0.wlink 0).lastTs = some 7 by decide +kernel).symm.trans h)
      decide +kernel)⟩,
   ⟨(tbs 1000000 (sy 5 3 F)), 3, (ts 0 0 0 0), by unfold State.runs; decide +kernel⟩⟩

/-- States and operands that meet the hypotheses of the clauses of `TransferChannels`. -/
theorem witness_TransferChannels :
    (∃ (s : State) (c : Nat) (v : Reg), s.runs ∧ c < 4 ∧ s.on (WIAN_TX_STAT_BUSY c) = false ∧ (s.build.granules < s.fld (WIAN_TX_LOC_LOC c) + s.fld (WIAN_TX_CMD_LEN c) ∨ BitVec.toNat v / 256 % 4 = 3 ∨ BitVec.toNat v / 256 % 4 = 1 ∧ BitVec.getLsbD v 12 = true ∨ 4 < s.routeOf (s.fld (WIAN_TX_CMD_DEV c)))) ∧
    (∃ (s : State) (c : Nat) (v : Reg), s.runs ∧ c < 4 ∧ s.on (WIAN_TX_STAT_BUSY c) = false ∧ (¬(s.build.granules < s.fld (WIAN_TX_LOC_LOC c) + s.fld (WIAN_TX_CMD_LEN c) ∨ BitVec.toNat v / 256 % 4 = 3 ∨ BitVec.toNat v / 256 % 4 = 1 ∧ BitVec.getLsbD v 12 = true ∨ 4 < s.routeOf (s.fld (WIAN_TX_CMD_DEV c)))) ∧ s.fld (WIAN_TX_CMD_LEN c) = 0) ∧
    (∃ (s : State) (c : Nat) (v : Reg), s.runs ∧ c < 4 ∧ s.on (WIAN_TX_STAT_BUSY c) = false ∧ (¬(s.build.granules < s.fld (WIAN_TX_LOC_LOC c) + s.fld (WIAN_TX_CMD_LEN c) ∨ BitVec.toNat v / 256 % 4 = 3 ∨ BitVec.toNat v / 256 % 4 = 1 ∧ BitVec.getLsbD v 12 = true ∨ 4 < s.routeOf (s.fld (WIAN_TX_CMD_DEV c)))) ∧ s.fld (WIAN_TX_CMD_LEN c) ≠ 0) ∧
    (∃ (s : State) (c : Nat) (v : Reg) (us : List Upset) (y : TxFrame), s.runs ∧ c < 4 ∧ s.on (WIAN_TX_STAT_BUSY c) = true ∧ (s.chan c).abort = false ∧ firstFail (s.chan c).frames = none ∧ (s.chan c).issued < s.fld (WIAN_TX_CMD_LEN c) ∧ List.countP (fun f ↦ f.res.isNone) (s.chan c).frames < 16 ∧ s.discovering = false ∧ s.routeOf (s.fld (WIAN_TX_CMD_DEV c)) < 4 ∧ (s.fld WIAN_STAT_DSTATE ≠ 3 ∨ s.on (WIAN_LINK_STAT_TREE (s.routeOf (s.fld (WIAN_TX_CMD_DEV c)))) = true) ∧ s.on (WIAN_TX_CTL_DIR c) = true ∧ y ∈ (s.chan c).frames ∧ y.res = none) ∧
    (∃ (s : State) (c : Nat) (v : Reg) (us : List Upset) (y : TxFrame), s.runs ∧ c < 4 ∧ s.on (WIAN_TX_STAT_BUSY c) = true ∧ (s.chan c).abort = false ∧ firstFail (s.chan c).frames = none ∧ (s.chan c).issued < s.fld (WIAN_TX_CMD_LEN c) ∧ List.countP (fun f ↦ f.res.isNone) (s.chan c).frames < 16 ∧ s.discovering = false ∧ s.routeOf (s.fld (WIAN_TX_CMD_DEV c)) < 4 ∧ (s.fld WIAN_STAT_DSTATE ≠ 3 ∨ s.on (WIAN_LINK_STAT_TREE (s.routeOf (s.fld (WIAN_TX_CMD_DEV c)))) = true) ∧ s.on (WIAN_TX_CTL_DIR c) = false ∧ s.memIdle ∧ ((resL (min (s.fld (WIAN_TX_CMD_LEN c) - (s.chan c).issued) (16 - (s.fld (WIAN_TX_REM_REM c) + (s.chan c).issued) % 2 ^ 23 % 16)) 0 s us fun i ↦ s.txAccess c (s.fld (WIAN_TX_LOC_LOC c) + (s.chan c).issued + i) (Dest.tx c i) Kind.read).all fun x ↦ x.good) = true ∧ y ∈ (s.chan c).frames ∧ y.res = none) ∧
    (∃ (s : State) (c : Nat) (v : Reg) (us : List Upset) (b : Nat × Nat), s.runs ∧ c < 4 ∧ s.on (WIAN_TX_STAT_BUSY c) = true ∧ (s.chan c).abort = false ∧ firstFail (s.chan c).frames = none ∧ (s.chan c).issued < s.fld (WIAN_TX_CMD_LEN c) ∧ List.countP (fun f ↦ f.res.isNone) (s.chan c).frames < 16 ∧ s.discovering = false ∧ s.routeOf (s.fld (WIAN_TX_CMD_DEV c)) < 4 ∧ (s.fld WIAN_STAT_DSTATE ≠ 3 ∨ s.on (WIAN_LINK_STAT_TREE (s.routeOf (s.fld (WIAN_TX_CMD_DEV c)))) = true) ∧ s.on (WIAN_TX_CTL_DIR c) = false ∧ s.memIdle ∧ badGran (List.map (fun i ↦ (resL (min (s.fld (WIAN_TX_CMD_LEN c) - (s.chan c).issued) (16 - (s.fld (WIAN_TX_REM_REM c) + (s.chan c).issued) % 2 ^ 23 % 16)) 0 s us fun i ↦ s.txAccess c (s.fld (WIAN_TX_LOC_LOC c) + (s.chan c).issued + i) (Dest.tx c i) Kind.read).getD i MemRes.ue) (List.range (min (s.fld (WIAN_TX_CMD_LEN c) - (s.chan c).issued) (16 - (s.fld (WIAN_TX_REM_REM c) + (s.chan c).issued) % 2 ^ 23 % 16)))) = some b ∧ (s.chan c).frames = []) ∧
    (∃ (s : State) (c : Nat) (v : Reg), s.runs ∧ c < 4 ∧ s.on (WIAN_TX_STAT_BUSY c) = true ∧ (s.chan c).frames = [] ∧ s.fld (WIAN_TX_CMD_LEN c) ≠ 0) ∧
    (∃ (s : State) (c : Nat) (v : Reg) (x : TxFrame), s.runs ∧ c < 4 ∧ (s.chan c).frames.head? = some x ∧ s.on (WIAN_TX_STAT_BUSY c) = true ∧ (s.chan c).frames = [x] ∧ x.res = none ∧ s.fld (WIAN_TX_CMD_LEN c) ≠ 0 ∧ s.fld (WIAN_TX_CTL_TIMEOUT c) * 64000 ≤ (s.clk.tb - x.since).toNat) ∧
    (∃ (s : State) (l : Nat) (c : Nat) (f : Frame) (x : TxFrame), (s.chan c).frames.head? = some x ∧ s.runs ∧ l < 4 ∧ c < 4 ∧ f.ok = true ∧ s.lstate l = 3 ∧ (s.wlink l).check f = SeqCheck.next ∧ (s.wlink l).held = [] ∧ (s.wlink 4).held = [] ∧ s.wian.serving = [] ∧ s.discovering = false ∧ s.routeOf f.dst = 4 ∧ s.txOwner f.tag f.src = some c ∧ (s.chan c).frames = [x] ∧ x.n ≤ s.fld (WIAN_TX_CMD_LEN c) ∧ s.fld (WIAN_TX_LOC_LOC c) + x.n < 2 ^ 23 ∧ s.fld (WIAN_TX_REM_REM c) + x.n < 2 ^ 23 ∧ f.type = 2 ∧ f.status = 0 ∧ s.fld (WIAN_TX_CMD_LEN c) = x.n) ∧
    (∃ (s : State) (l : Nat) (c : Nat) (f : Frame) (x : TxFrame), (s.chan c).frames.head? = some x ∧ s.runs ∧ l < 4 ∧ c < 4 ∧ f.ok = true ∧ s.lstate l = 3 ∧ (s.wlink l).check f = SeqCheck.next ∧ (s.wlink l).held = [] ∧ (s.wlink 4).held = [] ∧ s.wian.serving = [] ∧ s.discovering = false ∧ s.routeOf f.dst = 4 ∧ s.txOwner f.tag f.src = some c ∧ (s.chan c).frames = [x] ∧ x.n ≤ s.fld (WIAN_TX_CMD_LEN c) ∧ s.fld (WIAN_TX_LOC_LOC c) + x.n < 2 ^ 23 ∧ s.fld (WIAN_TX_REM_REM c) + x.n < 2 ^ 23 ∧ f.type = 2 ∧ f.status = 0 ∧ ¬s.fld (WIAN_TX_CMD_LEN c) = x.n ∧ (s.chan c).abort = false) ∧
    (∃ (s : State) (l : Nat) (c : Nat) (f : Frame) (x : TxFrame), (s.chan c).frames.head? = some x ∧ s.runs ∧ l < 4 ∧ c < 4 ∧ f.ok = true ∧ s.lstate l = 3 ∧ (s.wlink l).check f = SeqCheck.next ∧ (s.wlink l).held = [] ∧ (s.wlink 4).held = [] ∧ s.wian.serving = [] ∧ s.discovering = false ∧ s.routeOf f.dst = 4 ∧ s.txOwner f.tag f.src = some c ∧ (s.chan c).frames = [x] ∧ x.n ≤ s.fld (WIAN_TX_CMD_LEN c) ∧ s.fld (WIAN_TX_LOC_LOC c) + x.n < 2 ^ 23 ∧ s.fld (WIAN_TX_REM_REM c) + x.n < 2 ^ 23 ∧ f.type = 2 ∧ f.status ≠ 0 ∧ f.fld 64 4 < x.n) ∧
    (∃ (s : State) (l : Nat) (c : Nat) (f : Frame) (x : TxFrame) (us : List Upset), (s.chan c).frames.head? = some x ∧ s.runs ∧ l < 4 ∧ c < 4 ∧ f.ok = true ∧ s.lstate l = 3 ∧ (s.wlink l).check f = SeqCheck.next ∧ (s.wlink l).held = [] ∧ (s.wlink 4).held = [] ∧ s.wian.serving = [] ∧ s.discovering = false ∧ s.routeOf f.dst = 4 ∧ s.txOwner f.tag f.src = some c ∧ (s.chan c).frames = [x] ∧ x.n ≤ s.fld (WIAN_TX_CMD_LEN c) ∧ s.fld (WIAN_TX_LOC_LOC c) + x.n < 2 ^ 23 ∧ s.fld (WIAN_TX_REM_REM c) + x.n < 2 ^ 23 ∧ f.type = 4 ∧ f.status = 0 ∧ x.n = s.fld (WIAN_TX_CMD_LEN c) ∧ (s.chan c).abort = false ∧ s.memIdle) :=
  ⟨⟨ws1, 3, 34603071, by unfold State.runs; decide +kernel⟩,
   ⟨ws2, 0, 34603071, by unfold State.runs; decide +kernel⟩,
   ⟨ws1, 0, 34603071, by unfold State.runs; decide +kernel⟩,
   ⟨ws3, 0, 34603071, [], (x1 9 2), by unfold State.runs; decide +kernel⟩,
   ⟨ws4, 0, 34603071, [], (x1 9 3), by unfold State.runs State.memIdle; decide +kernel⟩,
   ⟨ws5, 0, 34603071, [], (Option.get (badGran (List.map (fun i ↦ (resL (min (ws5.fld (WIAN_TX_CMD_LEN 0) - (ws5.chan 0).issued) (16 - (ws5.fld (WIAN_TX_REM_REM 0) + (ws5.chan 0).issued) % 2 ^ 23 % 16)) 0 ws5 [] fun i ↦ ws5.txAccess 0 (ws5.fld (WIAN_TX_LOC_LOC 0) + (ws5.chan 0).issued + i) (Dest.tx 0 i) Kind.read).getD i MemRes.ue) (List.range (min (ws5.fld (WIAN_TX_CMD_LEN 0) - (ws5.chan 0).issued) (16 - (ws5.fld (WIAN_TX_REM_REM 0) + (ws5.chan 0).issued) % 2 ^ 23 % 16))))) (by decide +kernel)), by unfold State.runs State.memIdle; decide +kernel⟩,
   ⟨ws6, 0, 34603071, by unfold State.runs; decide +kernel⟩,
   ⟨ws7, 0, 34603071, (Option.get ((ws7.chan 0).frames.head?) (by decide +kernel)), by unfold State.runs; decide +kernel⟩,
   ⟨ws7, 1, 0, (ack 0 0 0), (Option.get ((ws7.chan 0).frames.head?) (by decide +kernel)), by unfold State.runs; decide +kernel⟩,
   ⟨ws3, 1, 0, (ack 0 0 0), (Option.get ((ws3.chan 0).frames.head?) (by decide +kernel)), by unfold State.runs; decide +kernel⟩,
   ⟨ws7, 1, 0, (ack 3 1 0), (Option.get ((ws7.chan 0).frames.head?) (by decide +kernel)), by unfold State.runs; decide +kernel⟩,
   ⟨ws7, 1, 0, (dat 3 0 0 0), (Option.get ((ws7.chan 0).frames.head?) (by decide +kernel)), [], by unfold State.runs State.memIdle; decide +kernel⟩⟩

end TimeSynchronisation

namespace EventsStacksWakes

def src (e : Nat) (f : Source → Source) (s : State) : State := { s with evc := { s.evc with src := Tbl.set (State.reset.source 9) e (f (s.source e)) s.evc.src } }
def evs (s : State) : State := [5,6,32,448,450].foldl (fun s e => src e (fun x => { x with cfg := 0x11 }) s) s
def rz (l : List (Nat × BitVec 64)) (s : State) : State := { s with evc := { s.evc with raised := l } }
def tg (t : Nat) (l : List (BitVec 3)) (s : State) : State := { s with evc := { s.evc with tgt := Tbl.set (s.target t) t { s.target t with stack := l } s.evc.tgt } }
def tbs (n : Nat) (s : State) : State := { s with clk := { s.clk with tb := BitVec.ofNat 64 n } }
def u := evs up
def wk (l : List Nat) (s : State) : State := { s with evc := { s.evc with wakes := l } }
def pw (n : Nat) (s : State) : State := s.setFld CRP_PWR_STAT_STATE n

def ws0 : State := rz [(32, 5), (33, 6), (32, 7)] u
def ws1 : State := rz [(32, 5), (33, 6), (32, 7)] (src 32 (fun x ↦ { cfg := x.cfg, pend := true, count := 5, ts := x.ts }) u)
def ws2 : State := tbs 1000000 (src 32 (fun x ↦ { cfg := 65539, pend := true, count := 5, ts := x.ts }) u)
def ws3 : State := (wk [3] (withCore CoreId.moth (fun k ↦ { k with waiting := true }) (pw 4 u))).setFld MOTH_WAKE_CFG_MSTOP 1
def ws4 : State := (wk [3] (withCore CoreId.moth (fun k ↦ { k with waiting := true }) u)).setFld MOTH_WAKE_STAT_WOKE 1
def ws5 : State := (wk [3] (pw 2 u)).setFld MOTH_WAKE_CFG_HW 1
def ws6 : State := { (withCore CoreId.moth (fun k ↦ { k with waiting := true }) (pw 4 u)) with crp := { u.crp with waking := true } }
def ws7 : State := { (pw 4 u) with crp := { u.crp with waking := true } }

/-- States and operands that meet the hypotheses of the clauses of `EventsStacksWakes`. -/
theorem witness_EventsStacksWakes :
    (∃ (s : State) (e : Nat) (p : BitVec 64 × List (Nat × BitVec 64)) (d : Nat), s.runs ∧ takeRaise e s.evc.raised = some p ∧ eventBuilt s.build e = true ∧ d ≠ e) ∧
    (∃ (s : State) (e : Nat) (p : BitVec 64 × List (Nat × BitVec 64)), s.runs ∧ takeRaise e s.evc.raised = some p ∧ eventBuilt s.build e = true ∧ (s.source e).pend = false) ∧
    (∃ (s : State) (e : Nat) (p : BitVec 64 × List (Nat × BitVec 64)), s.runs ∧ takeRaise e s.evc.raised = some p ∧ eventBuilt s.build e = true ∧ (s.source e).pend = true) ∧
    (∃ (s : State) (e : Nat), s.runs ∧ eventBuilt s.build e = true ∧ (s.source e).pend = true ∧ (s.source e).cfg.getLsbD 0 = true ∧ bitsOf (s.source e).cfg.toNat 1 3 ≠ 0 ∧ bitsOf (s.source e).cfg.toNat 16 12 ≠ 0 ∧ (s.source e).ts.toNat + bitsOf (s.source e).cfg.toNat 16 12 * 1024 ≤ s.clk.tb.toNat) ∧
    (∃ (s : State) (e : Nat) (d : Nat), s.runs ∧ d ≠ s.fld EVC_SRC_SEL_SRC) ∧
    (∃ (s : State) (e : Nat) (w : BitVec 9), s.runs ∧ 448 ≤ w.toNat) ∧
    (∃ (s : State) (e : Nat) (w : BitVec 9), s.runs ∧ w.toNat < 448) ∧
    (∃ (s : State) (a : Agent) (t : Nat) (x : BitVec 3), s.runs ∧ s.hasTarget t = true ∧ s.writes a (EVC_TGT_DONE t) ∧ t < 32) ∧
    (∃ (s : State) (a : Agent) (t : Nat) (x : BitVec 3), s.runs ∧ s.hasTarget t = true ∧ s.writes a (EVC_TGT_DONE t) ∧ 32 ≤ t ∧ (s.target t).stack = [] ∧ ¬a = Agent.core (if t = 32 then CoreId.sup else CoreId.moth)) ∧
    (∃ (s : State) (a : Agent) (t : Nat) (x : BitVec 3), s.runs ∧ s.hasTarget t = true ∧ s.writes a (EVC_TGT_DONE t) ∧ 32 ≤ t ∧ (s.target t).stack = [] ∧ a = Agent.core (if t = 32 then CoreId.sup else CoreId.moth)) ∧
    (∃ (s : State) (a : Agent) (t : Nat) (x : BitVec 3) (top : BitVec 3) (rest : List (BitVec 3)) (j : Nat), s.runs ∧ s.hasTarget t = true ∧ s.writes a (EVC_TGT_DONE t) ∧ 32 ≤ t ∧ (s.target t).stack = top :: rest ∧ top = x ∧ j ≠ t) ∧
    (∃ (s : State) (a : Agent) (t : Nat) (x : BitVec 3) (top : BitVec 3) (rest : List (BitVec 3)), s.runs ∧ s.hasTarget t = true ∧ s.writes a (EVC_TGT_DONE t) ∧ 32 ≤ t ∧ (s.target t).stack = top :: rest ∧ ¬top = x ∧ ¬a = Agent.core (if t = 32 then CoreId.sup else CoreId.moth)) ∧
    (∃ (s : State) (a : Agent) (t : Nat) (x : BitVec 3), s.runs ∧ s.hasTarget t = true ∧ s.writes a (EVC_TGT_PUSH t) ∧ t < 32) ∧
    (∃ (s : State) (a : Agent) (t : Nat) (x : BitVec 3) (j : Nat), s.runs ∧ s.hasTarget t = true ∧ s.writes a (EVC_TGT_PUSH t) ∧ 32 ≤ t ∧ (s.target t).top < x.toNat ∧ j ≠ t) ∧
    (∃ (s : State) (a : Agent) (t : Nat) (x : BitVec 3), s.runs ∧ s.hasTarget t = true ∧ s.writes a (EVC_TGT_PUSH t) ∧ 32 ≤ t ∧ ¬(s.target t).top < x.toNat ∧ ¬a = Agent.core (if t = 32 then CoreId.sup else CoreId.moth)) ∧
    (∃ (s : State) (a : Agent) (t : Nat) (x : BitVec 3), s.runs ∧ s.hasTarget t = true ∧ s.writes a (EVC_TGT_PUSH t) ∧ 32 ≤ t ∧ ¬(s.target t).top < x.toNat ∧ a = Agent.core (if t = 32 then CoreId.sup else CoreId.moth)) ∧
    (∃ (s : State) (k : BitVec 5), s.crp.live = true ∧ k.toNat ∈ s.evc.wakes ∧ s.on MOTH_WAKE_CFG_HW = false ∧ s.fld CRP_PWR_STAT_STATE = 4 ∧ s.on MOTH_WAKE_CFG_MSTOP = true ∧ (s.core CoreId.moth).waiting = true) ∧
    (∃ (s : State) (k : BitVec 5) (c : CoreId), s.crp.live = true ∧ k.toNat ∈ s.evc.wakes ∧ s.on MOTH_WAKE_CFG_HW = false ∧ (¬(s.fld CRP_PWR_STAT_STATE = 4 ∧ s.on MOTH_WAKE_CFG_MSTOP = true ∧ (s.core CoreId.moth).waiting = true)) ∧ coreKey c ≠ 37) ∧
    (∃ (s : State) (k : BitVec 5), s.crp.live = true ∧ k.toNat ∈ s.evc.wakes ∧ s.on MOTH_WAKE_CFG_HW = false ∧ (¬(s.fld CRP_PWR_STAT_STATE = 4 ∧ s.on MOTH_WAKE_CFG_MSTOP = true ∧ (s.core CoreId.moth).waiting = true)) ∧ (s.core CoreId.moth).waiting = false) ∧
    (∃ (s : State) (k : BitVec 5) (v : View), s.crp.live = true ∧ k.toNat ∈ s.evc.wakes ∧ s.on MOTH_WAKE_CFG_HW = false ∧ (¬(s.fld CRP_PWR_STAT_STATE = 4 ∧ s.on MOTH_WAKE_CFG_MSTOP = true ∧ (s.core CoreId.moth).waiting = true)) ∧ (s.core CoreId.moth).waiting = true ∧ s.view CoreId.moth = some v) ∧
    (∃ (s : State) (k : BitVec 5), s.crp.live = true ∧ k.toNat ∈ s.evc.wakes ∧ s.on MOTH_WAKE_CFG_HW = true ∧ s.fld CRP_PWR_STAT_STATE = 2 ∧ s.crp.entry = none ∧ s.crp.exiting = false) ∧
    (∃ (s : State) (c : CoreId), s.crp.live = true ∧ s.crp.waking = true ∧ coreKey c ≠ 37) ∧
    (∃ (s : State), s.crp.live = true ∧ s.crp.waking = true ∧ (s.core CoreId.moth).waiting = false) ∧
    (∃ (s : State) (v : View), s.crp.live = true ∧ s.crp.waking = true ∧ (s.core CoreId.moth).waiting = true ∧ s.view CoreId.moth = some v) ∧
    (∃ (s : State) (v : Reg), s.crp.live = true ∧ ¬38 ∈ s.crp.islandOff ∧ s.fld CRP_PWR_STAT_STATE ≠ 4) ∧
    (∃ (s : State) (v : Reg), s.crp.live = true ∧ ¬38 ∈ s.crp.islandOff ∧ s.fld CRP_PWR_STAT_STATE = 4 ∧ BitVec.getLsbD (s.reg MOTH_WPEND) 6 = false) :=
  ⟨⟨ws0, 33, (Option.get (takeRaise 33 ws0.evc.raised) (by decide +kernel)), 34, by unfold State.runs; decide +kernel⟩,
   ⟨ws0, 33, (Option.get (takeRaise 33 ws0.evc.raised) (by decide +kernel)), by unfold State.runs; decide +kernel⟩,
   ⟨ws1, 32, (Option.get (takeRaise 32 ws1.evc.raised) (by decide +kernel)), by unfold State.runs; decide +kernel⟩,
   ⟨ws2, 32, by unfold State.runs; decide +kernel⟩,
   ⟨u, 34, 34, by unfold State.runs; decide +kernel⟩,
   ⟨u, 34, 511, by unfold State.runs; decide +kernel⟩,
   ⟨u, 34, 447, by unfold State.runs; decide +kernel⟩,
   ⟨u, (Agent.core CoreId.sup), 31, 7#3, by and_intros <;> first | decide +kernel | (unfold State.allows; decide +kernel) | (intro c h; cases h <;> decide +kernel)⟩,
   ⟨u, (Agent.core CoreId.sup), 33, 7#3, by and_intros <;> first | decide +kernel | (unfold State.allows; decide +kernel) | (intro c h; cases h <;> decide +kernel)⟩,
   ⟨u, (Agent.core CoreId.sup), 32, 7#3, by and_intros <;> first | decide +kernel | (unfold State.allows; decide +kernel) | (intro c h; cases h <;> decide +kernel)⟩,
   ⟨(tg 32 [5, 2] u), (Agent.core CoreId.sup), 32, 5#3, 5#3, [2], 34, by and_intros <;> first | decide +kernel | (unfold State.allows; decide +kernel) | (intro c h; cases h <;> decide +kernel)⟩,
   ⟨(tg 32 [5, 2] u), Agent.host, 32, 7#3, 5#3, [2], by and_intros <;> first | decide +kernel | (unfold State.allows; decide +kernel) | (intro c h; cases h <;> decide +kernel)⟩,
   ⟨u, (Agent.core CoreId.sup), 31, 7#3, by and_intros <;> first | decide +kernel | (unfold State.allows; decide +kernel) | (intro c h; cases h <;> decide +kernel)⟩,
   ⟨u, (Agent.core CoreId.sup), 33, 7#3, 34, by and_intros <;> first | decide +kernel | (unfold State.allows; decide +kernel) | (intro c h; cases h <;> decide +kernel)⟩,
   ⟨u, (Agent.core CoreId.sup), 33, 0#3, by and_intros <;> first | decide +kernel | (unfold State.allows; decide +kernel) | (intro c h; cases h <;> decide +kernel)⟩,
   ⟨u, (Agent.core CoreId.sup), 32, 0#3, by and_intros <;> first | decide +kernel | (unfold State.allows; decide +kernel) | (intro c h; cases h <;> decide +kernel)⟩,
   ⟨ws3, 3, by decide +kernel⟩,
   ⟨(wk [3, 5] u), 5, (CoreId.seq 0), by decide +kernel⟩,
   ⟨(wk [3, 5] u), 5, by decide +kernel⟩,
   ⟨ws4, 3, (Option.get (ws4.view CoreId.moth) (by decide +kernel)), by decide +kernel⟩,
   ⟨ws5, 3, by decide +kernel⟩,
   ⟨ws6, (CoreId.seq 0), by decide +kernel⟩,
   ⟨ws7, by decide +kernel⟩,
   ⟨ws6, (Option.get (ws6.view CoreId.moth) (by decide +kernel)), by decide +kernel⟩,
   ⟨u, 12576#32, by decide +kernel⟩,
   ⟨(wk [3, 5, 3] (pw 4 u)), 12576#32, by decide +kernel⟩⟩

end EventsStacksWakes

namespace DebugPortAndMaster

def evs (s : State) : State := { s with evc := { s.evc with src := ([384,385,386,387,391] : List Nat).map (fun e => (e, { s.source e with cfg := 0x11 })) } }
def D (f : Dbg → Dbg) (s : State) : State := { s with dbg := f s.dbg }
def g (s : State) : State := s.setFld DBG_AUTH_STAT_GRANTED 1
def u := evs up
def ir (n : BitVec 5) (s : State) : State := D (fun d => { d with ir := n, data := 0x1234, off := 0x55, stat := 2 }) s
def mop (w : Bool) (a : BitVec 40) (c : Reg) (s : State) : State := D (fun d => { d with mop := some { write := w, addr := a, data := 0xCAFEF00D, ctl := c } }) ((s.setFld DBG_MSTAT_BUSY 1).setReg64 DBG_MADDR_LO DBG_MADDR_HI (a.setWidth 64))
def sc (s : State) : State := s.setScr (scrGranOfWord 0x10000010) 0x123456789ABCDEF0FEDCBA9876543210 0xFFFF true

def ws0 : State := g (mop true 268435473 0 u)
def ws1 : State := g (mop true 268435474 2 (sc u))
def ws2 : State := g (mop false 268435478 0 (sc u))

/-- States and operands that meet the hypotheses of the clauses of `DebugPortAndMaster`. -/
theorem witness_DebugPortAndMaster :
    (∃ (s : State) (off : BitVec 14) (v : Reg), s.runs ∧ s.dbg.ir ≠ 6) ∧
    (∃ (s : State) (off : BitVec 14) (v : Reg), s.runs ∧ s.dbg.ir = 6) ∧
    (∃ (s : State) (off : BitVec 14) (v : Reg), s.runs ∧ (s.on DBG_AUTH_STAT_GRANTED = true ∨ ¬(DBG_VT_DDATA 0 ≤ 458752 + 4 * off.toNat ∧ 458752 + 4 * off.toNat ≤ DBG_VT_DDATA 3 ∧ (458752 + 4 * off.toNat) % 16 = 4)) ∧ s.dbg.ir = 6) ∧
    (∃ (s : State) (off : BitVec 14) (v : Reg), s.runs ∧ ¬s.on DBG_AUTH_STAT_GRANTED = true ∧ (off.toNat < 896 ∨ 960 ≤ off.toNat) ∧ 458752 + 4 * off.toNat ≠ DBG_MDATA ∧ 458752 + 4 * off.toNat ≠ DBG_MCTL ∧ s.dbg.ir = 6) ∧
    (∃ (s : State) (off : BitVec 14) (v : Reg), s.runs ∧ s.on DBG_AUTH_STAT_GRANTED = true ∧ s.dbg.ir = 6 ∧ 458752 + 4 * off.toNat = DBG_MADDR_LO) ∧
    (∃ (s : State) (off : BitVec 14) (v : Reg), s.runs ∧ s.on DBG_AUTH_STAT_GRANTED = true ∧ 458752 + 4 * off.toNat = DBG_MADDR_LO) ∧
    (∃ (s : State) (v : Reg), s.runs ∧ s.on DBG_AUTH_STAT_GRANTED = false) ∧
    (∃ (s : State) (v : Reg), s.runs ∧ s.on DBG_AUTH_STAT_GRANTED = true ∧ s.on DBG_MSTAT_BUSY = true) ∧
    (∃ (s : State) (v : Reg), s.runs ∧ s.on DBG_AUTH_STAT_GRANTED = true ∧ s.on DBG_MSTAT_BUSY = false) ∧
    (∃ (s : State) (v : Reg) (o : MasterOp) (d : Reg) (st : BitVec 2) (us : List Upset), s.runs ∧ s.dbg.mop = some o ∧ s.underway Dest.master = false ∧ o.addr.toNat % 2 = 1) ∧
    (∃ (s : State) (v : Reg) (o : MasterOp) (d : Reg) (st : BitVec 2) (us : List Upset) (h : Nat), s.runs ∧ s.dbg.mop = some o ∧ s.underway Dest.master = false ∧ o.addr.toNat % 2 = 0 ∧ s.region CoreId.sup o.addr.toNat = Region.scratch ∧ o.write = true ∧ h ≠ scrGranOfWord o.addr.toNat) ∧
    (∃ (s : State) (v : Reg) (o : MasterOp) (d : Reg) (st : BitVec 2) (us : List Upset), s.runs ∧ s.dbg.mop = some o ∧ s.underway Dest.master = false ∧ o.addr.toNat % 2 = 0 ∧ s.region CoreId.sup o.addr.toNat = Region.scratch ∧ o.write = false) ∧
    (∃ (s : State) (v : Reg) (o : MasterOp) (d : Reg) (st : BitVec 2) (us : List Upset), s.runs ∧ s.dbg.mop = some o ∧ s.underway Dest.master = false ∧ o.addr.toNat % 2 = 0 ∧ s.region CoreId.sup o.addr.toNat = Region.stream ∧ (BitVec.extractLsb' 8 2 o.ctl = 3 ∨ o.write = true ∧ BitVec.extractLsb' 8 2 o.ctl = 1)) ∧
    (∃ (s : State) (v : Reg) (o : MasterOp) (d : Reg) (st : BitVec 2) (us : List Upset), s.runs ∧ s.dbg.mop = some o ∧ s.underway Dest.master = false ∧ o.addr.toNat % 2 = 0 ∧ s.region CoreId.sup o.addr.toNat = Region.stream ∧ BitVec.extractLsb' 8 2 o.ctl ≠ 3 ∧ (o.write = true → BitVec.extractLsb' 8 2 o.ctl ≠ 1) ∧ s.memIdle) :=
  ⟨⟨(g (mop false 32 0 u)), 16383, 12576#32, by unfold State.runs; decide +kernel⟩,
   ⟨(ir 6 u), 16383, 12576#32, by unfold State.runs; decide +kernel⟩,
   ⟨(ir 6 u), 16383, 12576#32, by unfold State.runs; decide +kernel⟩,
   ⟨(ir 6 u), 16383, 12576#32, by unfold State.runs; decide +kernel⟩,
   ⟨(ir 6 (g u)), (BitVec.ofNat 14 ((DBG_MADDR_LO - 458752) / 4)), 12576#32, by unfold State.runs; decide +kernel⟩,
   ⟨(g (mop false 32 0 u)), (BitVec.ofNat 14 ((DBG_MADDR_LO - 458752) / 4)), 12576#32, by unfold State.runs; decide +kernel⟩,
   ⟨u, 12576#32, by unfold State.runs; decide +kernel⟩,
   ⟨(g (mop false 32 0 u)), 12576#32, by unfold State.runs; decide +kernel⟩,
   ⟨(g u), 12576#32, by unfold State.runs; decide +kernel⟩,
   ⟨ws0, 12576#32, (Option.get (ws0.dbg.mop) (by decide +kernel)), 12576#32, 3#2, [], by unfold State.runs; decide +kernel⟩,
   ⟨ws1, 12576#32, (Option.get (ws1.dbg.mop) (by decide +kernel)), 12576#32, 3#2, [], 3, by unfold State.runs; decide +kernel⟩,
   ⟨ws2, 12576#32, (Option.get (ws2.dbg.mop) (by decide +kernel)), 12576#32, 3#2, [], by unfold State.runs; decide +kernel⟩,
   ⟨(g (mop false 32 768 u)), 12576#32, (Option.get ((g (mop false 32 768 u)).dbg.mop) (by decide +kernel)), 12576#32, 3#2, [], by unfold State.runs; decide +kernel⟩,
   ⟨(g (mop false 32 0 u)), 12576#32, (Option.get ((g (mop false 32 0 u)).dbg.mop) (by decide +kernel)), 12576#32, 3#2, [], by unfold State.runs State.memIdle; decide +kernel⟩⟩

end DebugPortAndMaster

namespace RunControlAndTriggers

def evs (s : State) : State := { s with evc := { s.evc with src := ([384,385,386,387,391] : List Nat).map (fun e => (e, { s.source e with cfg := 0x11 })) } }
def D (f : Dbg → Dbg) (s : State) : State := { s with dbg := f s.dbg }
def g (s : State) : State := s.setFld DBG_AUTH_STAT_GRANTED 1
def u := evs up
def hr (c : CoreId) (mode : Nat) (s : State) : State := withCore c (fun k => { k with haltReq := some (4, 2), dbg := Tbl.set 0 DBG_RUN_CTL (BitVec.ofNat 32 (mode * 256)) k.dbg }) s
def sv0 : SaveSet := { r := { pc := 0x105, fl := ⟨true,false,true,false⟩, rc := 3, lc := 4, ls := 5, le := 6 }, level := 3, bank := 1, cpl := 3, base := 1, rbase := 1, valid := true, caps := caps8 [capOf 16 8 3], cset := 2 }
def halted (c : CoreId) (lvl : BitVec 4) (s : State) : State := withCore c (fun k => { k with dstate := 2, sv := Tbl.set SaveSet.init 10 { sv0 with level := lvl } k.sv }) s
def big (s : State) : State := withCore (.seq 0) (fun k => { k with sbh := bank (List.replicate 32 7) [] }) s

def ws0 : State := hr (CoreId.seq 0) 0 (run [1, 2])
def ws1 : State := hr (CoreId.seq 0) 1 (evs (run [1, 2]))
def ws2 : State := big (hr (CoreId.seq 0) 1 u)
def ws3 : State := g (halted (CoreId.seq 0) 0 u)
def ws4 : State := ((D (fun d ↦ { d with trig := [CoreId.seq 0, CoreId.sup] }) (u.setReg DBG_XTRIG_POD 53)).setReg DBG_XTRIG_CORE 3).setReg DBG_XTRIG_CTL 4294967295
def ws5 : State := D (fun d ↦ { d with trig := [CoreId.seq 0, CoreId.sup] }) (u.setReg DBG_XTRIG_POD 53)
def ws6 : State := D (fun d ↦ { d with tx := [(0, List.replicate 64 7), (1, [4])], rx := [(0, List.replicate 64 7), (1, [4])] }) (g u)

/-- States and operands that meet the hypotheses of the clauses of `RunControlAndTriggers`. -/
theorem witness_RunControlAndTriggers :
    (∃ (s : State) (c : CoreId) (ci : BitVec 3 × BitVec 2) (k : Nat), s.runs ∧ coreBuilt s.build c = true ∧ (s.core c).haltReq = some ci ∧ (s.core c).released = true ∧ (s.core c).dstate = 0 ∧ (s.core c).niw = none ∧ (s.core c).need = none ∧ (s.core c).flight = [] ∧ (bitsOf (BitVec.toNat (Tbl.get 0 DBG_RUN_CTL (s.core c).dbg)) 8 1 = 0 ∨ c = CoreId.moth) ∧ k ≠ coreKey c) ∧
    (∃ (s : State) (c : CoreId) (ci : BitVec 3 × BitVec 2) (k : Nat), s.runs ∧ coreBuilt s.build c = true ∧ (s.core c).haltReq = some ci ∧ (s.core c).released = true ∧ (s.core c).dstate = 0 ∧ (s.core c).niw = none ∧ (s.core c).need = none ∧ (s.core c).flight = [] ∧ bitsOf (BitVec.toNat (Tbl.get 0 DBG_RUN_CTL (s.core c).dbg)) 8 1 = 1 ∧ c ≠ CoreId.moth ∧ (s.core c).sbh.opd < 32 ∧ k ≠ coreKey c) ∧
    (∃ (s : State) (c : CoreId) (ci : BitVec 3 × BitVec 2) (k : Nat), s.runs ∧ coreBuilt s.build c = true ∧ (s.core c).haltReq = some ci ∧ (s.core c).released = true ∧ (s.core c).dstate = 0 ∧ (s.core c).niw = none ∧ (s.core c).need = none ∧ (s.core c).flight = [] ∧ bitsOf (BitVec.toNat (Tbl.get 0 DBG_RUN_CTL (s.core c).dbg)) 8 1 = 1 ∧ c ≠ CoreId.moth ∧ 32 ≤ (s.core c).sbh.opd ∧ k ≠ coreKey c) ∧
    (∃ (s : State) (c : CoreId) (k : Nat), s.runs ∧ coreBuilt s.build c = true ∧ s.on DBG_AUTH_STAT_GRANTED = true ∧ s.selected = some c ∧ (s.core c).haltReq = none ∧ (s.core c).dstate ≠ 2 ∧ (s.core c).released = true ∧ k ≠ coreKey c) ∧
    (∃ (s : State) (c : CoreId) (k : Nat), s.runs ∧ coreBuilt s.build c = true ∧ s.on DBG_AUTH_STAT_GRANTED = true ∧ s.selected = some c ∧ (s.core c).dstate = 2 ∧ k ≠ coreKey c) ∧
    (∃ (s : State) (c : CoreId) (v : Reg) (k : Nat), s.runs ∧ coreBuilt s.build c = true ∧ s.on DBG_AUTH_STAT_GRANTED = true ∧ s.selected = some c ∧ (s.core c).dstate = 2 ∧ k ≠ coreKey c) ∧
    (∃ (s : State) (c : CoreId) (v : Reg), s.runs ∧ coreBuilt s.build c = true ∧ s.on DBG_AUTH_STAT_GRANTED = true ∧ s.selected = some c ∧ (s.core c).dstate ≠ 2) ∧
    (∃ (s : State) (m : BitVec 16), s.runs ∧ s.on DBG_AUTH_STAT_GRANTED = true) ∧
    (∃ (s : State) (c : CoreId) (d : CoreId), s.runs ∧ c ∈ s.dbg.trig ∧ coreBuilt s.build c = true ∧ d ∈ s.xtrigCores ∧ (s.core d).released = true ∧ (s.core d).haltReq = none ∧ (s.core d).dstate ≠ 2) ∧
    (∃ (s : State) (c : CoreId) (d : CoreId), s.runs ∧ c ∈ s.dbg.trig ∧ coreBuilt s.build c = true ∧ coreBuilt s.build d = true ∧ ¬d ∈ s.xtrigCores) ∧
    (∃ (s : State) (a : Agent) (n : Nat) (v : Reg) (m : Nat), s.runs ∧ n < 4 ∧ s.writes a (DBG_VT_CDATA n) ∧ (a = Agent.dap → s.on DBG_AUTH_STAT_GRANTED = true) ∧ (s.vtTx n).length < 64 ∧ m ≠ n) ∧
    (∃ (s : State) (a : Agent) (n : Nat) (v : Reg), s.runs ∧ n < 4 ∧ s.writes a (DBG_VT_CDATA n) ∧ (a = Agent.dap → s.on DBG_AUTH_STAT_GRANTED = true) ∧ 64 ≤ (s.vtTx n).length) ∧
    (∃ (s : State) (n : Nat) (v : Reg) (m : Nat), s.runs ∧ n < 4 ∧ s.on DBG_AUTH_STAT_GRANTED = true ∧ (s.vtRx n).length < 64 ∧ m ≠ n) ∧
    (∃ (s : State) (n : Nat) (v : Reg), s.runs ∧ n < 4 ∧ s.on DBG_AUTH_STAT_GRANTED = true ∧ 64 ≤ (s.vtRx n).length) :=
  ⟨⟨ws0, (CoreId.seq 0), (Option.get ((ws0.core (CoreId.seq 0)).haltReq) (by decide +kernel)), 37, by unfold State.runs; decide +kernel⟩,
   ⟨ws1, (CoreId.seq 0), (Option.get ((ws1.core (CoreId.seq 0)).haltReq) (by decide +kernel)), 37, by unfold State.runs; decide +kernel⟩,
   ⟨ws2, (CoreId.seq 0), (Option.get ((ws2.core (CoreId.seq 0)).haltReq) (by decide +kernel)), 37, by unfold State.runs; decide +kernel⟩,
   ⟨(g u), (CoreId.seq 0), 37, by unfold State.runs; decide +kernel⟩,
   ⟨ws3, (CoreId.seq 0), 37, by unfold State.runs; decide +kernel⟩,
   ⟨ws3, (CoreId.seq 0), 305419896, 37, by unfold State.runs; decide +kernel⟩,
   ⟨(g u), (CoreId.seq 0), 305419896, by unfold State.runs; decide +kernel⟩,
   ⟨(g u), 5, by unfold State.runs; decide +kernel⟩,
   ⟨ws4, (CoreId.seq 0), (CoreId.seq 0), by unfold State.runs; decide +kernel⟩,
   ⟨ws5, (CoreId.seq 0), (CoreId.seq 0), by unfold State.runs; decide +kernel⟩,
   ⟨u, (Agent.core (CoreId.seq 0)), 3, 305419896, 37, by and_intros <;> first | decide +kernel | (unfold State.allows; decide +kernel) | (intro c h; cases h <;> decide +kernel)⟩,
   ⟨ws6, (Agent.core (CoreId.seq 0)), 0, 305419896, by and_intros <;> first | decide +kernel | (unfold State.allows; decide +kernel) | (intro c h; cases h <;> decide +kernel)⟩,
   ⟨(g u), 3, 305419896, 37, by unfold State.runs; decide +kernel⟩,
   ⟨ws6, 0, 305419896, by unfold State.runs; decide +kernel⟩⟩

end RunControlAndTriggers

namespace SwapsAndImage

def evs (s : State) : State := { s with evc := { s.evc with src := ([416,417,418,421,422,423,400,401,405,420,2,3,131,135,139,143,199] : List Nat).map (fun e => (e, { s.source e with cfg := 0x11 })) } }
def u := evs up
def H (f : Hlt → Hlt) (s : State) : State := { s with hlt := f s.hlt }
def fl (s : State) : State := { s with epc := { s.epc with flip := some { set := 1, freeze := false, swaps := true, tb := 0 } } }
def sg (kind g un row : Nat) (ready : Bool) (s : State) : State :=
  (((((s.setFld HLT_SWAP_KIND kind).setFld HLT_SWAP_GRP g).setFld HLT_SWAP_UNIT un).setFld HLT_SWAP_ROW row).setFld HLT_SWAP_STAT_STAGED 1).setFld HLT_SWAP_STAT_READY (if ready then 1 else 0)
def row1 (s : State) : State := s.setRow (s.rowKey 0 7) 0x1234567890 true
def img (s : State) : State := H (fun h => { h with img := [(0, 0x5A170204), (1, 0xFFFFFFFF), (2, 0xF3F7), (3, 0x8005), (4, 0xFFFFFFFF), (19, 2), (1035, 0x00090005)] }) s

def ws0 : State := fl (sg 3 0 0 7 true (row1 u))
def ws1 : State := u.setFld TBU_TICK_STAT_STARTED 1

/-- States and operands that meet the hypotheses of the clauses of `SwapsAndImage`. -/
theorem witness_SwapsAndImage :
    (∃ (s : State) (v : Reg) (c : Nat), s.runs ∧ s.swapCause (BitVec.toNat v % 8) (BitVec.toNat v / 16 % 16) (BitVec.toNat v / 256 % 128) (BitVec.toNat v / 65536 % 4096) = some c) ∧
    (∃ (s : State) (v : Reg), s.runs ∧ 5 ≤ BitVec.toNat v % 8 ∧ s.on HLT_SWAP_STAT_STAGED = false) ∧
    (∃ (s : State) (v : Reg), s.runs ∧ s.swapCause (BitVec.toNat v % 8) (BitVec.toNat v / 16 % 16) (BitVec.toNat v / 256 % 128) (BitVec.toNat v / 65536 % 4096) = none) ∧
    (∃ (s : State) (v : Reg), s.runs ∧ s.on HLT_SWAP_STAT_STAGED = true ∧ s.fld HLT_SWAP_KIND = 2 ∧ s.on HLT_SWAP_STAT_READY = false) ∧
    (∃ (s : State) (v : Reg) (us : List Upset), s.runs ∧ Option.any Flip.swaps s.epc.flip = false) ∧
    (∃ (s : State) (v : Reg) (us : List Upset), s.runs ∧ Option.any Flip.swaps s.epc.flip = true ∧ s.on HLT_SWAP_STAT_STAGED = true ∧ s.on HLT_SWAP_STAT_READY = true ∧ s.swapReady = true ∧ s.fld HLT_SWAP_KIND = 0 ∧ s.fld HLT_SWAP_UNIT < 17) ∧
    (∃ (s : State) (v : Reg) (us : List Upset) (k : Nat), s.runs ∧ Option.any Flip.swaps s.epc.flip = true ∧ s.on HLT_SWAP_STAT_STAGED = true ∧ s.on HLT_SWAP_STAT_READY = true ∧ s.swapReady = true ∧ s.fld HLT_SWAP_KIND = 3 ∧ s.fld HLT_SWAP_UNIT < 127 ∧ (s.sparesOf (s.fld HLT_SWAP_GRP * 127 + s.fld HLT_SWAP_UNIT)).length < 64 ∧ k ≠ 512 * (s.fld HLT_SWAP_GRP * 127 + s.fld HLT_SWAP_UNIT) + (511 - (s.sparesOf (s.fld HLT_SWAP_GRP * 127 + s.fld HLT_SWAP_UNIT)).length)) ∧
    (∃ (s : State) (v : Reg) (us : List Upset), s.runs ∧ Option.any Flip.swaps s.epc.flip = true ∧ s.on HLT_SWAP_STAT_STAGED = true ∧ s.on HLT_SWAP_STAT_READY = true ∧ s.swapReady = true ∧ s.fld HLT_SWAP_KIND = 4 ∧ s.fld HLT_SWAP_GRP < 4 ∧ s.fld HLT_SWAP_UNIT < 8) ∧
    (∃ (s : State) (v : Reg) (j : Nat), s.runs ∧ s.on TBU_TICK_STAT_STARTED = false ∧ s.fld HLT_IMG_SEL_WORD < 66060 ∧ j ≠ s.fld HLT_IMG_SEL_WORD) ∧
    (∃ (s : State) (v : Reg), s.runs ∧ (s.on TBU_TICK_STAT_STARTED = true ∨ 66060 ≤ s.fld HLT_IMG_SEL_WORD)) ∧
    (∃ (s : State) (v : Reg), s.runs ∧ s.on TBU_TICK_STAT_STARTED = true) ∧
    (∃ (s : State) (v : Reg) (j : Nat), s.runs ∧ s.on TBU_TICK_STAT_STARTED = false ∧ s.img 0 = 1511457284 ∧ j < 16) ∧
    (∃ (s : State) (v : Reg) (j : Nat), s.runs ∧ s.on TBU_TICK_STAT_STARTED = false ∧ s.img 0 ≠ 1511457284 ∧ j < 16) :=
  ⟨⟨u, 4294967295, (Option.get (u.swapCause (4294967295 % 8) (4294967295 / 16 % 16) (4294967295 / 256 % 128) (4294967295 / 65536 % 4096)) (by decide +kernel)), by unfold State.runs; decide +kernel⟩,
   ⟨u, 4294967295, by unfold State.runs; decide +kernel⟩,
   ⟨u, 2147483648, by unfold State.runs; decide +kernel⟩,
   ⟨(sg 2 0 3 0 false u), 2147483648, by unfold State.runs; decide +kernel⟩,
   ⟨u, 2147483648, [], by unfold State.runs; decide +kernel⟩,
   ⟨(fl (sg 0 0 2 0 true u)), 2147483648, [], by unfold State.runs; decide +kernel⟩,
   ⟨ws0, 2147483648, [], 66059, by unfold State.runs; decide +kernel⟩,
   ⟨(fl (sg 4 1 3 0 true u)), 2147483648, [], by unfold State.runs; decide +kernel⟩,
   ⟨u, 2147483648, 66059, by unfold State.runs; decide +kernel⟩,
   ⟨ws1, 2147483648, by unfold State.runs; decide +kernel⟩,
   ⟨ws1, 2147483648, by unfold State.runs; decide +kernel⟩,
   ⟨(img u), 2147483648, 15, by unfold State.runs; decide +kernel⟩,
   ⟨u, 2147483648, 15, by unfold State.runs; decide +kernel⟩⟩

end SwapsAndImage

namespace SelfTestsAndSensors

def evs (s : State) : State := { s with evc := { s.evc with src := ([416,417,418,421,422,423,400,401,405,420,2,3,131,135,139,143,199] : List Nat).map (fun e => (e, { s.source e with cfg := 0x11 })) } }
def u := evs up
def H (f : Hlt → Hlt) (s : State) : State := { s with hlt := f s.hlt }
def b (n : Nat) : BitVec 12 := BitVec.ofNat 12 n
def rl (k : List Nat) (a : Option Nat) (ar : Bool) (s : State) : State := H (fun h => { h with rail := k.map b, railA := a, armed := ar }) ((((s.setFld MOTH_RAIL_CFG_EN 1).setFld MOTH_RAIL_LIM_VLOW 2000).setFld MOTH_RAIL_LIM_VMIN 1800).setFld MOTH_RAIL_CFG_TPRED 100)

def ws0 : State := H (fun h ↦ { h with spareDue := true }) (u.setFld HLT_CTL_ST_EN 1)
def ws1 : State := ((u.setFld (POD_STAT_SELFTEST 0) 1).setFld HLT_CTL_AUTO 0).setFld (POD_STAT_SELFTEST 16) 1
def ws2 : State := u.setFld HLT_CTL_LS_RST 0
def ws3 : State := u.setFld MOTH_RAIL_CFG_EN 0
def ws4 : State := rl (List.replicate 31 2100) (some 2100) true u

/-- States and operands that meet the hypotheses of the clauses of `SelfTestsAndSensors`. -/
theorem witness_SelfTestsAndSensors :
    (∃ (s : State) (p : Nat), s.runs ∧ s.hasPod p = true ∧ s.on (POD_STAT_SELFTEST p) = false ∧ s.sparePod = some p ∧ s.on HLT_CTL_ST_EN = true ∧ s.hlt.spareDue = true) ∧
    (∃ (s : State) (p : Nat), s.runs ∧ s.hasPod p = true ∧ s.on (POD_STAT_SELFTEST p) = true ∧ s.hlt.log.length < 64 ∧ s.sparePod ≠ some p ∧ s.on HLT_CTL_AUTO = false) ∧
    (∃ (s : State) (p : Nat), s.runs ∧ s.hasPod p = true ∧ s.on (POD_STAT_SELFTEST p) = true ∧ s.sparePod = some p ∧ p < 17) ∧
    (∃ (s : State) (p : Nat), s.runs ∧ s.hasPod p = true ∧ s.on HLT_CTL_LS_RST = false ∧ s.hlt.log.length < 64) ∧
    (∃ (s : State) (p : Nat), s.runs ∧ s.hasPod p = true ∧ s.on HLT_CTL_LS_RST = true ∧ s.crp.phase = 2) ∧
    (∃ (s : State) (code : BitVec 12), s.runs ∧ s.on MOTH_RAIL_CFG_EN = false) ∧
    (∃ (s : State) (code : BitVec 12), s.runs ∧ s.on MOTH_RAIL_CFG_EN = true ∧ (List.take 32 (code :: s.hlt.rail)).length < 16) ∧
    (∃ (s : State) (code : BitVec 12), s.runs ∧ s.on MOTH_RAIL_CFG_EN = true ∧ (List.take 32 (code :: s.hlt.rail)).length = 32 ∧ List.foldl (fun n x ↦ n + x.toNat) 0 (List.take 16 (List.take 32 (code :: s.hlt.rail))) / 16 < s.fld MOTH_RAIL_LIM_VLOW ∧ (∀ (p : Nat), s.hlt.railA = some p → s.fld MOTH_RAIL_LIM_VLOW ≤ p)) ∧
    (∃ (s : State) (code : BitVec 12), s.runs ∧ s.on MOTH_RAIL_CFG_EN = true ∧ (List.take 32 (code :: s.hlt.rail)).length = 32 ∧ (s.hlt.armed = true ∨ s.fld MOTH_RAIL_LIM_VLOW < List.foldl (fun n x ↦ n + x.toNat) 0 (List.take 16 (List.take 32 (code :: s.hlt.rail))) / 16) ∧ s.railFires (List.foldl (fun n x ↦ n + x.toNat) 0 (List.take 16 (List.take 32 (code :: s.hlt.rail))) / 16) (Int.ofNat (List.foldl (fun n x ↦ n + x.toNat) 0 (List.take 16 (List.take 32 (code :: s.hlt.rail))) / 16) - Int.ofNat (List.foldl (fun n x ↦ n + x.toNat) 0 (List.take 16 (List.drop 16 (List.take 32 (code :: s.hlt.rail)))) / 16)) = true ∧ s.on MOTH_RAIL_CFG_FREEZE_EN = true) ∧
    (∃ (s : State) (code : BitVec 12), s.runs ∧ s.on MOTH_RAIL_CFG_EN = true ∧ (List.take 32 (code :: s.hlt.rail)).length = 32 ∧ ¬s.railFires (List.foldl (fun n x ↦ n + x.toNat) 0 (List.take 16 (List.take 32 (code :: s.hlt.rail))) / 16) (Int.ofNat (List.foldl (fun n x ↦ n + x.toNat) 0 (List.take 16 (List.take 32 (code :: s.hlt.rail))) / 16) - Int.ofNat (List.foldl (fun n x ↦ n + x.toNat) 0 (List.take 16 (List.drop 16 (List.take 32 (code :: s.hlt.rail)))) / 16)) = true) ∧
    (∃ (s : State) (n : BitVec 4) (x : BitVec 12), s.runs ∧ ((BitVec.ofNat 12 (s.fld { off := HLT_THERM_CFG, lo := 0, w := 12 })).sle x = true ∧ ∀ (p : BitVec 12), Tbl.get none n.toNat s.hlt.temp = some p → (BitVec.ofNat 12 (s.fld { off := HLT_THERM_CFG, lo := 0, w := 12 })).sle p = false)) ∧
    (∃ (s : State) (n : BitVec 4) (x : BitVec 12), s.runs ∧ ((BitVec.ofNat 12 (s.fld { off := HLT_THERM_CFG, lo := 16, w := 12 })).sle x = true ∧ ∀ (p : BitVec 12), Tbl.get none n.toNat s.hlt.temp = some p → (BitVec.ofNat 12 (s.fld { off := HLT_THERM_CFG, lo := 16, w := 12 })).sle p = false)) ∧
    (∃ (s : State) (n : BitVec 4) (x : BitVec 12), s.runs ∧ (¬((BitVec.ofNat 12 (s.fld { off := HLT_THERM_CFG, lo := 0, w := 12 })).sle x = true ∧ ∀ (p : BitVec 12), Tbl.get none n.toNat s.hlt.temp = some p → (BitVec.ofNat 12 (s.fld { off := HLT_THERM_CFG, lo := 0, w := 12 })).sle p = false)) ∧ (¬((BitVec.ofNat 12 (s.fld { off := HLT_THERM_CFG, lo := 16, w := 12 })).sle x = true ∧ ∀ (p : BitVec 12), Tbl.get none n.toNat s.hlt.temp = some p → (BitVec.ofNat 12 (s.fld { off := HLT_THERM_CFG, lo := 16, w := 12 })).sle p = false))) :=
  ⟨⟨ws0, 16, by unfold State.runs; decide +kernel⟩,
   ⟨ws1, 0, by unfold State.runs; decide +kernel⟩,
   ⟨ws1, 16, by unfold State.runs; decide +kernel⟩,
   ⟨ws2, 16, by unfold State.runs; decide +kernel⟩,
   ⟨ws3, 16, by unfold State.runs; decide +kernel⟩,
   ⟨ws3, (b 2500), by unfold State.runs; decide +kernel⟩,
   ⟨u, (b 2500), by unfold State.runs; decide +kernel⟩,
   ⟨ws4, (b 256), by unfold State.runs; decide +kernel⟩,
   ⟨ws4, (b 513), by unfold State.runs; decide +kernel⟩,
   ⟨ws4, (b 2500), by unfold State.runs; decide +kernel⟩,
   ⟨ws3, 15, (b 1990), by unfold State.runs; decide +kernel⟩,
   ⟨ws3, 15, (b 1990), by unfold State.runs; decide +kernel⟩,
   ⟨ws3, 15, (b 2500), by unfold State.runs; decide +kernel⟩⟩

end SelfTestsAndSensors

namespace DebugAuthentication

def evs (s : State) : State := { s with evc := { s.evc with src := ([390,416,417,418,421,422,423,400,401,405,420,2,3,390,401,131,135,139,143,199] : List Nat).map (fun e => (e, { s.source e with cfg := 0x11 })) } }
def u := evs up
def A (f : Sec → Sec) (s : State) : State := { s with sec := f s.sec }

def ws0 : State := ((u.setFld DBG_AUTH_ERR_FAILS 0).setFld DBG_AUTH_ERR_LOCKED 0).setReg DBG_AUTH_STAT 0#32
def ws1 : State := (((u.setFld SEC_STAT_ENT_FAIL 1).setFld DBG_AUTH_ERR_FAILS 0).setFld DBG_AUTH_ERR_LOCKED 0).setReg DBG_AUTH_STAT 0#32
def ws2 : State := ((u.setFld DBG_AUTH_ERR_FAILS 0).setFld DBG_AUTH_ERR_LOCKED 1).setReg DBG_AUTH_STAT 0#32
def ws3 : State := (((A (fun a ↦ { a with verify := some (false, false) }) (u.setFld DBG_AUTH_ERR_BUSY 1)).setFld DBG_AUTH_ERR_FAILS 0).setFld DBG_AUTH_ERR_LOCKED 0).setReg DBG_AUTH_STAT 0#32

/-- States and operands that meet the hypotheses of the clauses of `DebugAuthentication`. -/
theorem witness_DebugAuthentication :
    (∃ (s : State) (m : Nat), s.runs ∧ s.sec.audit.length < 191 ∧ s.reg DBG_AUTH_CTL &&& 7 = 0 ∧ s.on DBG_AUTH_ERR_BUSY = false ∧ s.on SEC_STAT_ENT_FAIL = false ∧ s.sec.drawn < 2 ^ 20 ∧ m < 12) ∧
    (∃ (s : State) (o : Nat), s.runs ∧ s.sec.audit.length < 191 ∧ s.reg DBG_AUTH_CTL &&& 7 = 0 ∧ s.on DBG_AUTH_ERR_BUSY = false ∧ s.on SEC_STAT_ENT_FAIL = false ∧ s.sec.drawn < 2 ^ 20 ∧ (∀ (m : Nat), m < 12 → o ≠ DBG_AUTH_CHAL m)) ∧
    (∃ (s : State), s.runs ∧ s.sec.audit.length < 191 ∧ s.reg DBG_AUTH_CTL &&& 7 = 0 ∧ s.on DBG_AUTH_ERR_BUSY = false ∧ (s.on SEC_STAT_ENT_FAIL = true ∨ 2 ^ 20 ≤ s.sec.drawn)) ∧
    (∃ (s : State) (level : Bool), s.runs ∧ s.sec.audit.length < 191 ∧ s.on DBG_AUTH_ERR_BUSY = false ∧ s.on DBG_AUTH_ERR_LOCKED = false) ∧
    (∃ (s : State) (level : Bool), s.runs ∧ s.sec.audit.length < 191 ∧ s.on DBG_AUTH_ERR_BUSY = false ∧ s.on DBG_AUTH_ERR_LOCKED = true) ∧
    (∃ (s : State) (level : Bool) (was : Bool), s.runs ∧ s.sec.audit.length < 191 ∧ s.sec.verify = some (level, was) ∧ (¬(was = true ∧ Config.sha384 (bytesOf (BitVec.ofNat 768 (s.respWords 0 24)).toNat 96) = s.dbgHash ∧ Config.ecdsaOk (BitVec.ofNat 768 (s.respWords 0 24)) (BitVec.ofNat 768 (s.respWords 24 24)) (bytesOf (s.challenge 0 12) 48 ++ bytesOf s.serial.toNat 8 ++ [BitVec.ofNat 8 level.toNat]) = true ∧ s.on SEC_STAT_DBG_OFF = false)) ∧ was = false) :=
  ⟨⟨ws0, 5, by unfold State.runs; decide +kernel⟩,
   ⟨ws0, 5, by unfold State.runs; decide +kernel⟩,
   ⟨ws1, by unfold State.runs; decide +kernel⟩,
   ⟨ws0, false, by unfold State.runs; decide +kernel⟩,
   ⟨ws2, false, by unfold State.runs; decide +kernel⟩,
   ⟨ws3, false, false, by unfold State.runs; decide +kernel⟩⟩

end DebugAuthentication

namespace EntropyKeysAudit

def evs (s : State) : State := { s with evc := { s.evc with src := ([416,417,418,421,422,423,400,401,405,420,2,3,131,135,139,143,199] : List Nat).map (fun e => (e, { s.source e with cfg := 0x11 })) } }
def u := evs up
def A (f : Sec → Sec) (s : State) : State := { s with sec := f s.sec }

def ws0 : State := u.setFld SEC_STAT_ENT_FAIL 1
def ws1 : State := A (fun a ↦ { a with drawn := 2 ^ 20 }) u
def ws2 : State := A (fun a ↦ { a with drawn := 2 ^ 20, newWait := true }) (u.setFld DBG_AUTH_ERR_BUSY 1)
def ws3 : State := A (fun a ↦ { a with otp := [(34, 1)] }) ((u.setFld SEC_STAT_BOOT 1).setFld SEC_VER_VERSION 40)

/-- States and operands that meet the hypotheses of the clauses of `EntropyKeysAudit`. -/
theorem witness_EntropyKeysAudit :
    (∃ (s : State), s.runs ∧ s.sec.audit.length < 190 ∧ s.on SEC_STAT_ENT_FAIL = true ∧ s.sec.newWait = false) ∧
    (∃ (s : State), s.runs ∧ s.sec.audit.length < 190 ∧ s.on SEC_STAT_ENT_FAIL = false ∧ 2 ^ 20 ≤ s.sec.drawn ∧ s.sec.newWait = false) ∧
    (∃ (s : State), s.runs ∧ s.sec.audit.length < 190 ∧ s.on SEC_STAT_ENT_FAIL = false ∧ 2 ^ 20 ≤ s.sec.drawn ∧ s.sec.newWait = true) ∧
    (∃ (s : State) (a : Agent), s.runs ∧ s.sec.audit.length < 190 ∧ s.writes a SEC_LOCK) ∧
    (∃ (s : State) (a : Agent) (k : Nat), s.runs ∧ s.sec.audit.length < 190 ∧ s.writes a SEC_VERADV ∧ s.fld SEC_STAT_BOOT = 1 ∧ s.minVer < s.fld SEC_VER_VERSION ∧ s.fld SEC_VER_VERSION ≤ 64 ∧ k ≠ 34 ∧ k ≠ 35) ∧
    (∃ (s : State) (a : Agent) (j : Nat), s.runs ∧ s.sec.audit.length < 190 ∧ s.writes a SEC_VERADV ∧ s.fld SEC_STAT_BOOT = 1 ∧ s.minVer < s.fld SEC_VER_VERSION ∧ s.fld SEC_VER_VERSION ≤ 64 ∧ j < 32 ∧ (s.otp 34).getLsbD j = true) ∧
    (∃ (s : State) (a : Agent), s.runs ∧ s.sec.audit.length < 190 ∧ s.writes a SEC_VERADV ∧ (s.fld SEC_STAT_BOOT ≠ 1 ∨ s.fld SEC_VER_VERSION ≤ s.minVer)) ∧
    (∃ (s : State) (a : Agent), s.runs ∧ s.sec.audit.length < 190 ∧ s.writes a SEC_AUD_POP ∧ a ≠ Agent.mgmt) :=
  ⟨⟨ws0, by unfold State.runs; decide +kernel⟩,
   ⟨ws1, by unfold State.runs; decide +kernel⟩,
   ⟨ws2, by unfold State.runs; decide +kernel⟩,
   ⟨u, (Agent.core (CoreId.seq 0)), by and_intros <;> first | decide +kernel | (unfold State.allows; decide +kernel) | (intro c h; cases h <;> decide +kernel)⟩,
   ⟨ws3, (Agent.core (CoreId.seq 0)), 36, by and_intros <;> first | decide +kernel | (unfold State.allows; decide +kernel) | (intro c h; cases h <;> decide +kernel)⟩,
   ⟨ws3, (Agent.core (CoreId.seq 0)), 0, by and_intros <;> first | decide +kernel | (unfold State.allows; decide +kernel) | (intro c h; cases h <;> decide +kernel)⟩,
   ⟨u, (Agent.core (CoreId.seq 0)), by and_intros <;> first | decide +kernel | (unfold State.allows; decide +kernel) | (intro c h; cases h <;> decide +kernel)⟩,
   ⟨u, (Agent.core (CoreId.seq 0)), by and_intros <;> first | decide +kernel | (unfold State.allows; decide +kernel) | (intro c h; cases h <;> decide +kernel)⟩⟩

end EntropyKeysAudit

namespace PowerStates

def evs (s : State) : State := { s with evc := { s.evc with src := ([416,417,418,421,422,423,400,401,405,420,2,3,131,135,139,143,199] : List Nat).map (fun e => (e, { s.source e with cfg := 0x11 })) } }
def u := evs up
def K (f : Crp → Crp) (s : State) : State := { s with crp := f s.crp }
def idl (s : State) : State := withCore (.seq 0) (fun k => { k with live := none, resident := [] }) ((s.setFld WIAN_CTL_ING_EN 0).setFld HIF_CTL_EN 0)
def tk (s : State) : State := { s with clk := { s.clk with tb := 0x123456789 } }
def nap (s : State) : State := (tk (s.setFld CRP_PWR_STAT_STATE 3)).setFld CRP_PWR_STAT_BUSY 1
def slp (s : State) : State := (tk (s.setFld CRP_PWR_STAT_STATE 4)).setFld CRP_PWR_STAT_BUSY 1
def busy (s : State) : State := ((s.setFld (POD_STAT_BUSY 1) 1).setReg (POD_TICKET 1) 5).setReg (POD_FLAGS 1) 7

def ws0 : State := (idl u).setFld HIF_CTL_EN 1
def ws1 : State := K (fun c ↦ { c with entry := some 3, srWait := [0, 1] }) (idl u)
def ws2 : State := K (fun c ↦ { c with entry := some 3 }) (idl u)
def ws3 : State := K (fun c ↦ { c with entry := some 3, wantRun := true }) (idl u)
def ws4 : State := { (K (fun c ↦ { c with entry := some 4, lfEdges := 2 }) (idl u)) with clk := { (idl u).clk with lfAcc := 40000 } }
def ws5 : State := K (fun c ↦ { c with entry := some 4, lfEdges := 2 }) (tk (idl u))
def ws6 : State := K (fun c ↦ { c with exiting := true, ackWait := [0, 1, 40] }) (nap (busy u))
def ws7 : State := K (fun c ↦ { c with exiting := true, ackWait := [] }) (nap (busy u))
def ws8 : State := K (fun c ↦ { c with exiting := true, ackWait := [2], islandOff := [3, 2] }) (slp (u.setFld CRP_PWR_CFG_RET 1))
def ws9 : State := K (fun c ↦ { c with exiting := true, ackWait := [2], islandOff := [3, 2] }) (slp (u.setFld CRP_PWR_CFG_RET 0))

/-- States and operands that meet the hypotheses of the clauses of `PowerStates`. -/
theorem witness_PowerStates :
    (∃ (s : State) (a : Agent), s.writes a CRP_PWR_CTL ∧ s.runs ∧ s.crp.phase = 2 ∧ s.crp.exiting = false ∧ s.crp.entry = none ∧ s.entryCause false = 0) ∧
    (∃ (s : State) (a : Agent), s.writes a CRP_PWR_CTL ∧ s.runs ∧ s.crp.phase = 2 ∧ s.crp.exiting = false ∧ s.crp.entry = none ∧ s.entryCause false ≠ 0) ∧
    (∃ (s : State) (a : Agent), s.writes a CRP_PWR_CTL ∧ s.runs ∧ s.crp.phase = 2 ∧ s.crp.exiting = false ∧ s.crp.entry = none ∧ s.entryCause true = 0) ∧
    (∃ (s : State) (a : Agent), s.writes a CRP_PWR_CTL ∧ s.runs ∧ s.crp.phase = 2 ∧ s.crp.exiting = false ∧ s.crp.entry = none ∧ s.entryCause true ≠ 0) ∧
    (∃ (s : State) (a : Agent), s.writes a CRP_PWR_CTL ∧ s.runs ∧ s.crp.phase = 2 ∧ s.crp.exiting = false ∧ s.crp.entry = none ∧ ∃ n, n < s.build.lss ∧ s.lsIdle n = false) ∧
    (∃ (s : State) (a : Agent), s.writes a CRP_PWR_CTL ∧ s.runs ∧ s.crp.phase = 2 ∧ s.crp.exiting = false ∧ s.crp.entry = none ∧ s.on HIF_CTL_EN = true ∧ s.entryCause false = 0) ∧
    (∃ (s : State) (a : Agent), s.writes a CRP_PWR_CTL ∧ s.runs ∧ s.crp.phase = 2 ∧ s.crp.exiting = false ∧ s.crp.entry ≠ none) ∧
    (∃ (s : State), s.crp.live = true ∧ s.crp.entry = some 3 ∧ s.crp.srWait = [] ∧ s.crp.wantRun = false) ∧
    (∃ (s : State), s.crp.live = true ∧ s.crp.entry = some 3 ∧ s.crp.srWait = [] ∧ s.crp.wantRun = true) ∧
    (∃ (s : State), s.crp.live = true ∧ s.crp.entry = some 4 ∧ s.atLfEdge = false) ∧
    (∃ (s : State) (l : Nat), s.crp.live = true ∧ s.crp.entry = some 4 ∧ s.crp.srWait = [] ∧ 2 ≤ s.crp.lfEdges ∧ s.atLfEdge = true ∧ s.crp.wantRun = false ∧ l < 4) ∧
    (∃ (s : State) (n : Nat), s.crp.live = true ∧ s.hasBmp n = true) ∧
    (∃ (s : State) (i : BitVec 6) (j : Nat), s.crp.live = true ∧ i.toNat < 41 ∧ j ≠ i.toNat) ∧
    (∃ (s : State) (i : BitVec 6), s.crp.live = true ∧ i.toNat < 41 ∧ i.toNat ∈ s.crp.ackWait) ∧
    (∃ (s : State) (p : Nat), s.crp.live = true ∧ s.fld CRP_PWR_STAT_STATE = 3 ∧ s.crp.exiting = true ∧ s.crp.ackWait = [] ∧ p < s.build.pods) ∧
    (∃ (s : State), s.crp.live = true ∧ s.fld CRP_PWR_STAT_STATE = 4 ∧ s.crp.exiting = true ∧ s.on CRP_PWR_CFG_RET = true) ∧
    (∃ (s : State), s.crp.live = true ∧ s.fld CRP_PWR_STAT_STATE = 4 ∧ s.crp.exiting = true ∧ s.on CRP_PWR_CFG_RET = false) :=
  ⟨⟨(idl u), (Agent.core (CoreId.seq 0)), by and_intros <;> first | decide +kernel | (unfold State.allows; decide +kernel) | (intro c h; cases h <;> decide +kernel)⟩,
   ⟨u, (Agent.core (CoreId.seq 0)), by and_intros <;> first | decide +kernel | (unfold State.allows; decide +kernel) | (intro c h; cases h <;> decide +kernel)⟩,
   ⟨(idl u), (Agent.core (CoreId.seq 0)), by and_intros <;> first | decide +kernel | (unfold State.allows; decide +kernel) | (intro c h; cases h <;> decide +kernel)⟩,
   ⟨u, (Agent.core (CoreId.seq 0)), by and_intros <;> first | decide +kernel | (unfold State.allows; decide +kernel) | (intro c h; cases h <;> decide +kernel)⟩,
   ⟨u, (Agent.core (CoreId.seq 0)), by and_intros <;> first | decide +kernel | (unfold State.allows; decide +kernel) | (intro c h; cases h <;> decide +kernel)⟩,
   ⟨ws0, (Agent.core (CoreId.seq 0)), by and_intros <;> first | decide +kernel | (unfold State.allows; decide +kernel) | (intro c h; cases h <;> decide +kernel)⟩,
   ⟨ws1, (Agent.core (CoreId.seq 0)), by and_intros <;> first | decide +kernel | (unfold State.allows; decide +kernel) | (intro c h; cases h <;> decide +kernel)⟩,
   ⟨ws2, by decide +kernel⟩,
   ⟨ws3, by decide +kernel⟩,
   ⟨ws4, by decide +kernel⟩,
   ⟨ws5, 3, by decide +kernel⟩,
   ⟨u, 3, by decide +kernel⟩,
   ⟨u, 40, 39, by decide +kernel⟩,
   ⟨ws6, 40, by decide +kernel⟩,
   ⟨ws7, 16, by decide +kernel⟩,
   ⟨ws8, by decide +kernel⟩,
   ⟨ws9, by decide +kernel⟩⟩

end PowerStates

namespace ResetsAndStartUp

def evs (s : State) : State := { s with evc := { s.evc with src := ([416,417,418,421,422,423,400,401,405,420,2,3,131,135,139,143,199] : List Nat).map (fun e => (e, { s.source e with cfg := 0x11 })) } }
def u := evs up
def H (f : Hlt → Hlt) (s : State) : State := { s with hlt := f s.hlt }
def K (f : Crp → Crp) (s : State) : State := { s with crp := f s.crp }
def tk (s : State) : State := { s with clk := { s.clk with tb := 0x123456789 } }
def memo (s : State) : State := { (s.setRow 7 0x1234 true) with code := { s.code with store := Tbl.set 0 5 77 s.code.store } }
def ex (s : State) : State := { s with clk := { s.clk with expDue := true } }
def busy (s : State) : State := ((s.setFld (POD_STAT_BUSY 1) 1).setReg (POD_TICKET 1) 5).setReg (POD_FLAGS 1) 7
def v := memo (tk (busy (evs (run [1,2,3] [4]))))
def otp (l : Tbl (BitVec 32)) (s : State) : State := { s with sec := { s.sec with otp := l } }
def ph (n : Nat) (s : State) : State := K (fun c => { c with phase := n }) s
def bv2 (magic ver mb lines : Nat) : BootImage := ⟨BitVec.ofNat 2048 (magic + ver * 2^32 + mb * 2^48 + lines * 2^64), 5, false⟩

def ws0 : State := (ex v).setFld MOTH_WDG_CFG_ACTION 1
def ws1 : State := H (fun h ↦ { h with railA := some 3000 }) State.reset
def ws2 : State := ph 1 (otp [(36, 3)] (memo State.reset))
def ws3 : State := K (fun c ↦ { c with relWait := true }) (u.setFld CRP_STAT_SCR_INIT 0)
def ws4 : State := (u.setFld CRP_STAT_SCR_INIT 1).setFld CRP_STAT_SEQ_REL 0

/-- States and operands that meet the hypotheses of the clauses of `ResetsAndStartUp`. -/
theorem witness_ResetsAndStartUp :
    (∃ (s : State) (c : CoreId), s.crp.live = true ∧ s.clk.expDue = true ∧ s.on MOTH_WDG_CFG_ACTION = true ∧ c ≠ CoreId.moth ∧ coreBuilt s.build c = true) ∧
    (∃ (s : State), s.crp.live = true ∧ s.clk.expDue = true ∧ s.on MOTH_WDG_CFG_ACTION = false ∧ s.crp.phase = 2 ∧ s.code.write = none) ∧
    (∃ (s : State), s.crp.live = true ∧ s.clk.expDue = true ∧ s.on MOTH_WDG_CFG_ACTION = false ∧ s.crp.phase = 2 ∧ s.mem.init = none) ∧
    (∃ (s : State) (c : CoreId), s.crp.live = true ∧ s.clk.expDue = true ∧ s.on MOTH_WDG_CFG_ACTION = false ∧ s.crp.phase = 2 ∧ c ≠ CoreId.moth ∧ coreBuilt s.build c = true) ∧
    (∃ (s : State) (c : CoreId), s.crp.live = true ∧ s.crp.porLow = false ∧ c ≠ CoreId.moth ∧ coreBuilt s.build c = true) ∧
    (∃ (s : State), s.crp.live = true ∧ s.crp.wrsLow = false ∧ s.crp.phase = 2 ∧ s.code.write = none) ∧
    (∃ (s : State), s.crp.live = true ∧ s.crp.wrsLow = false ∧ s.crp.phase = 2 ∧ s.mem.init = none) ∧
    (∃ (s : State) (c : CoreId), s.crp.live = true ∧ s.crp.wrsLow = false ∧ s.crp.phase = 2 ∧ c ≠ CoreId.moth ∧ coreBuilt s.build c = true) ∧
    (∃ (s : State), s.crp.live = true ∧ s.crp.wrsLow = false ∧ s.crp.phase = 3) ∧
    (∃ (s : State) (a : Agent) (c : CoreId), s.writes a CRP_RST_CTL ∧ c ≠ CoreId.moth ∧ coreBuilt s.build c = true) ∧
    (∃ (s : State) (a : Agent), s.writes a CRP_RST_CTL ∧ s.crp.phase = 2 ∧ s.code.write = none) ∧
    (∃ (s : State) (a : Agent), s.writes a CRP_RST_CTL ∧ s.crp.phase = 2 ∧ s.mem.init = none) ∧
    (∃ (s : State) (a : Agent) (c : CoreId), s.writes a CRP_RST_CTL ∧ s.crp.phase = 2 ∧ c ≠ CoreId.moth ∧ coreBuilt s.build c = true) ∧
    (∃ (s : State) (a : Agent) (v : Reg) (p : Nat), s.writes a CRP_RST_CTL ∧ s.runs ∧ s.crp.phase = 2 ∧ BitVec.getLsbD v 15 = false ∧ bitsOf (BitVec.toNat v) 8 6 < s.build.pods ∧ p < 17 ∧ p ≠ bitsOf (BitVec.toNat v) 8 6) ∧
    (∃ (s : State) (a : Agent) (v : Reg), s.writes a CRP_RST_CTL ∧ s.runs ∧ s.crp.phase = 2 ∧ BitVec.getLsbD v 15 = true ∧ bitsOf (BitVec.toNat v) 8 6 < s.build.seqs) ∧
    (∃ (s : State) (a : Agent) (v : Reg), s.writes a CRP_RST_CTL ∧ s.runs ∧ s.crp.phase = 2 ∧ (BitVec.getLsbD v 15 = false ∧ s.build.pods ≤ bitsOf (BitVec.toNat v) 8 6 ∨ BitVec.getLsbD v 15 = true ∧ s.build.seqs ≤ bitsOf (BitVec.toNat v) 8 6)) ∧
    (∃ (s : State) (c : CoreId), s.crp.live = false ∧ c ≠ CoreId.moth ∧ coreBuilt s.build c = true) ∧
    (∃ (s : State) (p : Nat) (m : Nat) (a : Nat) (x : BitVec 16), s.crp.live = true ∧ p < 4096 ∧ s.crp.phase = 0 ∧ s.crp.porLow = false ∧ s.hlt.railA = some a ∧ m = 1500 ∧ 98 * m ≤ 100 * p ∧ 100 * p ≤ 102 * m ∧ -200 ≤ x.toInt ∧ x.toInt ≤ 200 ∧ s.fld MOTH_RAIL_LIM_VLOW ≤ a) ∧
    (∃ (s : State) (p : Nat) (m : Nat) (a : Nat) (x : BitVec 16), s.crp.live = true ∧ p < 4096 ∧ s.crp.phase = 0 ∧ s.crp.porLow = false ∧ s.hlt.railA = some a ∧ m = 1500 ∧ (¬(98 * m ≤ 100 * p ∧ 100 * p ≤ 102 * m ∧ -200 ≤ x.toInt ∧ x.toInt ≤ 200 ∧ s.fld MOTH_RAIL_LIM_VLOW ≤ a))) ∧
    (∃ (s : State) (m : BootImage), s.crp.live = true ∧ s.crp.porLow = false ∧ s.crp.wrsLow = false ∧ s.crp.phase = 3 ∧ s.on DBG_CTL_RSTHALT = false) ∧
    (∃ (s : State) (m : BootImage) (g : Nat), s.crp.live = true ∧ s.crp.porLow = false ∧ s.crp.wrsLow = false ∧ s.crp.phase = 1 ∧ s.sec.audit.length < 190 ∧ ((otpRead s).bootCode m = 1 ∨ (otpRead s).bootCode m = 2) ∧ g < mothGran0) ∧
    (∃ (s : State) (m : BootImage), s.crp.live = true ∧ s.crp.porLow = false ∧ s.crp.wrsLow = false ∧ s.crp.phase = 1 ∧ s.sec.audit.length < 190 ∧ (otpRead s).bootCode m ≠ 1 ∧ (otpRead s).bootCode m ≠ 2 ∧ s.fld CRP_PWR_STAT_STATE ≠ 4) ∧
    (∃ (s : State), s.crp.live = true ∧ s.crp.phase = 2 ∧ s.on CRP_STAT_SCR_INIT = false ∧ s.crp.relWait = false) ∧
    (∃ (s : State) (n : Nat), s.crp.live = true ∧ s.crp.phase = 2 ∧ s.on CRP_STAT_SCR_INIT = false ∧ s.crp.relWait = true ∧ n < s.build.seqs) ∧
    (∃ (s : State) (a : Agent) (n : Nat), s.crp.live = true ∧ s.writes a CRP_RST_CTL ∧ s.on CRP_STAT_SEQ_REL = false ∧ s.on CRP_STAT_SCR_INIT = true ∧ n < s.build.seqs) ∧
    (∃ (s : State) (a : Agent), s.crp.live = true ∧ s.writes a CRP_RST_CTL ∧ s.on CRP_STAT_SEQ_REL = false ∧ s.on CRP_STAT_SCR_INIT = false) :=
  ⟨⟨ws0, (CoreId.seq 0), by decide +kernel⟩,
   ⟨(ex v), by decide +kernel⟩,
   ⟨(ex v), by decide +kernel⟩,
   ⟨(ex v), (CoreId.seq 0), by decide +kernel⟩,
   ⟨v, (CoreId.seq 0), by decide +kernel⟩,
   ⟨v, by decide +kernel⟩,
   ⟨v, by decide +kernel⟩,
   ⟨v, (CoreId.seq 0), by decide +kernel⟩,
   ⟨(ph 3 v), by decide +kernel⟩,
   ⟨v, (Agent.core (CoreId.seq 0)), (CoreId.seq 0), by and_intros <;> first | decide +kernel | (unfold State.allows; decide +kernel) | (intro c h; cases h <;> decide +kernel)⟩,
   ⟨v, (Agent.core (CoreId.seq 0)), by and_intros <;> first | decide +kernel | (unfold State.allows; decide +kernel) | (intro c h; cases h <;> decide +kernel)⟩,
   ⟨v, (Agent.core (CoreId.seq 0)), by and_intros <;> first | decide +kernel | (unfold State.allows; decide +kernel) | (intro c h; cases h <;> decide +kernel)⟩,
   ⟨v, (Agent.core (CoreId.seq 0)), (CoreId.seq 0), by and_intros <;> first | decide +kernel | (unfold State.allows; decide +kernel) | (intro c h; cases h <;> decide +kernel)⟩,
   ⟨v, (Agent.core (CoreId.seq 0)), 65536, 16, by and_intros <;> first | decide +kernel | (unfold State.allows; decide +kernel) | (intro c h; cases h <;> decide +kernel)⟩,
   ⟨v, (Agent.core (CoreId.seq 0)), 32768, by and_intros <;> first | decide +kernel | (unfold State.allows; decide +kernel) | (intro c h; cases h <;> decide +kernel)⟩,
   ⟨v, (Agent.core (CoreId.seq 0)), 48896, by and_intros <;> first | decide +kernel | (unfold State.allows; decide +kernel) | (intro c h; cases h <;> decide +kernel)⟩,
   ⟨(supplyLoss v), (CoreId.seq 0), by decide +kernel⟩,
   ⟨ws1, 1500, 1500, (Option.get (ws1.hlt.railA) (by decide +kernel)), 5, by decide +kernel⟩,
   ⟨ws1, 3001, 1500, (Option.get (ws1.hlt.railA) (by decide +kernel)), 5, by decide +kernel⟩,
   ⟨(ph 3 v), (bv2 1515602481 3 0 7), by decide +kernel⟩,
   ⟨(ph 1 State.reset), (bv2 1515602481 3 0 7), 3001, by decide +kernel⟩,
   ⟨ws2, (bv2 0 3 0 7), by decide +kernel⟩,
   ⟨v, by decide +kernel⟩,
   ⟨ws3, 35, by decide +kernel⟩,
   ⟨ws4, (Agent.core (CoreId.seq 0)), 35, by and_intros <;> first | decide +kernel | (unfold State.allows; decide +kernel) | (intro c h; cases h <;> decide +kernel)⟩,
   ⟨v, (Agent.core (CoreId.seq 0)), by and_intros <;> first | decide +kernel | (unfold State.allows; decide +kernel) | (intro c h; cases h <;> decide +kernel)⟩⟩

end ResetsAndStartUp

end Sys2Proof.Tests
end

section
/-! PROOF of O18. A CURRENT write changes no PRIOR version (R78, R90 to R93). What PRIOR reads of a home row is its committed version. The steps of a
write are of three kinds: corrections and counts, which leave every version (`State.SameVersions`); the freeing of the entry that the write takes,
which keeps or folds the committed version (`State.Vacates`); and the write of a twin row that no PRIOR read uses. -/

namespace Sys2Proof.Machine

/-! ### The first number that satisfies a test -/

theorem firstBelow_eq_none {p : Nat → Bool} {n : Nat} : firstBelow p n = none ↔ ∀ i, i < n → p i = false := by
  induction n with
  | zero => simp [firstBelow]
  | succ n ih =>
    simp only [firstBelow, Nat.lt_succ_iff_lt_or_eq, or_imp, forall_and, forall_eq, ← ih]
    cases firstBelow p n <;> cases p n <;> simp

theorem firstBelow_spec {p : Nat → Bool} {n i : Nat} (h : firstBelow p n = some i) : i < n ∧ p i = true ∧ ∀ j, j < i → p j = false := by
  induction n with
  | zero => cases h
  | succ n ih =>
    rw [firstBelow] at h
    split at h
    · next e =>
      cases h
      obtain ⟨hn, hp, hlow⟩ := ih e
      exact ⟨by omega, hp, hlow⟩
    · next e =>
      split at h
      · next hp => cases h; exact ⟨by omega, hp, firstBelow_eq_none.1 e⟩
      · cases h

theorem firstBelow_eq_some {p : Nat → Bool} {n i : Nat} (hn : i < n) (hp : p i = true) (hlow : ∀ j, j < i → p j = false) :
    firstBelow p n = some i := by
  cases h : firstBelow p n with
  | none => rw [firstBelow_eq_none.1 h i hn] at hp; cases hp
  | some k =>
    obtain ⟨-, hk, hklow⟩ := firstBelow_spec h
    have h1 : ¬ i < k := fun hlt => by rw [hklow i hlt] at hp; cases hp
    have h2 : ¬ k < i := fun hlt => by rw [hlow k hlt] at hk; cases hk
    rw [show k = i by omega]

/-! ### Where a granule lies (R43) -/

theorem bankOf_slice_lt (b : Build) (g : Nat) : bankOf b g / 127 < 16 := by
  have hs : sliceOf b g < 16 := by cases b <;> simp only [sliceOf, Build.slices] <;> omega
  have hl : lbankOf b g < 127 := Nat.mod_lt _ (by decide)
  unfold bankOf
  omega

theorem homeOf_lt {b : Build} {g : Nat} (h : g < b.granules) : homeOf b g < 4096 := Nat.div_lt_of_lt_mul h

/-! ### Steps that leave every version -/

/-- From `s` to `t` the remap tables, the groups, the bank maps, and the data and tag of every row are as they were. -/
structure State.SameVersions (s t : State) : Prop where
  build : t.build = s.build
  epc   : t.epc = s.epc
  maps  : ∀ sl, sl < 16 → t.reg (HLT_MAP_BANK sl) = s.reg (HLT_MAP_BANK sl)
  bytes : t.mem.bytes = s.mem.bytes
  tags  : t.mem.tags = s.mem.tags

theorem State.SameVersions.refl (s : State) : s.SameVersions s := ⟨rfl, rfl, fun _ _ => rfl, rfl, rfl⟩

theorem State.SameVersions.trans {s t u : State} (h : s.SameVersions t) (k : t.SameVersions u) : s.SameVersions u :=
  ⟨k.build.trans h.build, k.epc.trans h.epc, fun sl hsl => (k.maps sl hsl).trans (h.maps sl hsl), k.bytes.trans h.bytes, k.tags.trans h.tags⟩

theorem sameVersions_setReg (s : State) (off : Nat) (v : Reg) (h : HLT_MAP_BANK 16 ≤ off) : s.SameVersions (s.setReg off v) := by
  refine ⟨rfl, rfl, fun sl hsl => State.reg_setReg_ne s ?_ v, rfl, rfl⟩
  unfold HLT_MAP_BANK at *
  omega

theorem sameVersions_raiseBit (s : State) (f : Fld) (h : HLT_MAP_BANK 16 ≤ f.off) : s.SameVersions (s.raiseBit f) :=
  sameVersions_setReg s f.off _ h

theorem sameVersions_tally (u i e n : Nat) (s : State) : s.SameVersions (tally u i e n s) := ⟨rfl, rfl, fun _ _ => rfl, rfl, rfl⟩

theorem sameVersions_countCe (k : Nat) (s : State) : s.SameVersions (countCe k s) := by
  obtain ⟨hb, he, hm, -, -⟩ := sameVersions_raiseBit s SMEM_ERR_STAT_CE (by decide)
  exact ⟨hb, he, hm, rfl, rfl⟩

theorem sameVersions_correctRow (k : Nat) (s : State) : s.SameVersions (correctRow k s) := by
  obtain ⟨hb, he, hm, hy, ht⟩ := sameVersions_countCe k s
  exact ⟨hb, he, hm, hy, ht⟩

theorem sameVersions_correctTag (k : Nat) (s : State) : s.SameVersions (correctTag k s) := by
  obtain ⟨hb, he, hm, hy, ht⟩ := sameVersions_countCe k s
  unfold correctTag
  split
  · exact ⟨hb, he, hm, hy, ht⟩
  · exact .refl s

/-- An event that the wake logic does not watch is raised in EVC alone. -/
theorem raise_unwatched {e : Nat} (h : 32 ≤ e) (s : State) : ∃ v, raise e s = { s with evc := v } := by
  have hw : ¬ e < 32 := by omega
  unfold raise
  split
  · exact ⟨s.evc, rfl⟩
  · cases s.evcOn
    · exact ⟨s.evc, by simp [hw]⟩
    · exact ⟨_, by simp only [hw, false_and, if_false, if_true]; rfl⟩

theorem sameVersions_noteUe (k p : Nat) (s : State) : s.SameVersions (noteUe k p s) := by
  unfold noteUe
  split
  · exact sameVersions_raiseBit s _ (by decide)
  · exact (sameVersions_raiseBit s _ (by decide)).trans (sameVersions_setReg _ _ _ (by decide))

theorem sameVersions_logUe (k p : Nat) (s : State) : s.SameVersions (logUe k p s) := by
  obtain ⟨hb, he, hm, hy, ht⟩ := sameVersions_noteUe k p s
  obtain ⟨v, hv⟩ := raise_unwatched (e := 196 + k / 4608 / 128) (by omega) (found k true (noteUe k p s))
  rw [logUe, hv]
  exact ⟨hb, he, hm, hy, ht⟩

theorem sameVersions_fetchRow (k p : Nat) (s : State) : s.SameVersions (fetchRow k p s).2 := by
  have h := sameVersions_correctTag k s
  simp only [fetchRow]
  split
  · exact h
  · exact h.trans (sameVersions_correctRow k _)
  · exact h.trans (sameVersions_logUe k p _)

theorem sameVersions_foldCheck (k : Nat) (s : State) : s.SameVersions (foldCheck k s) := by
  unfold foldCheck
  split
  · exact sameVersions_correctRow k s
  · exact sameVersions_logUe k 3 s
  · exact .refl s

theorem sameVersions_mergeFrom (b src pc : Nat) (d : Gran) (be : BitVec 16) (s : State) :
    s.SameVersions (mergeFrom b src pc d be s).2 := by
  have h := sameVersions_fetchRow (s.rowKey b src) pc s
  unfold mergeFrom
  split
  · exact .refl s
  · split <;> (next e => rw [e] at h; exact h)

theorem sameVersions_checkLow (b : Nat) (s : State) : s.SameVersions (checkLow b s) := by
  unfold checkLow
  split
  · exact sameVersions_raiseBit s _ (by decide)
  · exact .refl s

/-! ### Versions of a home row -/

/-- Data and tag of row `row` of logical bank `b`. -/
def State.content (s : State) (b row : Nat) : Gran × Bool := (s.rowData (s.rowKey b row), s.rowTag (s.rowKey b row))

/-- Does entry `i` of bank `b` name home row `h` in the sense of R86? -/
def State.names (s : State) (b h i : Nat) : Bool :=
  decide ((s.entry (512 * b + i)).home.toNat = h) && !decide (s.estateAt b i = .free) && !decide (s.estateAt b i = .borrowed)

theorem State.entryFor_eq (s : State) (b h : Nat) : s.entryFor b h = firstBelow (s.names b h) 512 := rfl

theorem State.entryFor_none_iff {s : State} {b h : Nat} : s.entryFor b h = none ↔ ∀ i, i < 512 → s.names b h i = false := firstBelow_eq_none

theorem State.names_iff {s : State} {b h i : Nat} :
    s.names b h i = true ↔ (s.entry (512 * b + i)).home.toNat = h ∧ s.estateAt b i ≠ .free ∧ s.estateAt b i ≠ .borrowed := by
  simp [State.names, and_assoc]

theorem State.entryFor_spec {s : State} {b h i : Nat} (e : s.entryFor b h = some i) :
    i < 512 ∧ s.names b h i = true ∧ ∀ j, j < i → s.names b h j = false := firstBelow_spec e

/-- PRIOR reads the committed version, whichever the group (R87, Table 3.5). -/
theorem State.readRowOf_prior (s : State) (g b h : Nat) : s.readRowOf 1 g b h = s.committedRow b h := by
  unfold State.readRowOf State.committedRow
  cases s.entryFor b h with
  | none => rfl
  | some i => cases e : s.estateAt b i <;> simp only [e, if_true, if_false, reduceCtorEq]

/-- The committed version of home row `h` of bank `b`: its data and tag. -/
def State.committed (s : State) (b h : Nat) : Gran × Bool := s.content b (s.committedRow b h)

theorem State.committed_of_none {s : State} {b h : Nat} (e : s.entryFor b h = none) : s.committed b h = s.content b (s.homeRow b h) := by
  unfold State.committed State.committedRow
  rw [e]

theorem State.committed_of_some {s : State} {b h i : Nat} (e : s.entryFor b h = some i) : s.committed b h =
    if s.estateAt b i = .done then s.content b (4096 + i) else s.content b (s.homeRow b h) := by
  unfold State.committed State.committedRow
  rw [e]
  exact apply_ite (s.content b) ..

/-- The home row of `h` is row `h` itself or the twin row of a BORROWED entry that names it (R88). -/
theorem State.homeRow_cases (s : State) (b h : Nat) : s.homeRow b h = h ∨
    ∃ j, s.homeRow b h = 4096 + j ∧ (s.entry (512 * b + j)).home.toNat = h ∧ s.estateAt b j = .borrowed := by
  unfold State.homeRow
  split
  · next j e =>
    obtain ⟨-, hj, -⟩ := firstBelow_spec e
    simp only [Bool.and_eq_true, decide_eq_true_eq] at hj
    exact .inr ⟨j, rfl, hj⟩
  · exact .inl rfl

theorem State.homeRow_congr {s t : State} {b h : Nat}
    (e : ∀ j, (decide ((t.entry (512 * b + j)).home.toNat = h) && decide (t.estateAt b j = .borrowed)) =
      (decide ((s.entry (512 * b + j)).home.toNat = h) && decide (s.estateAt b j = .borrowed))) : t.homeRow b h = s.homeRow b h := by
  unfold State.homeRow
  rw [funext e]

theorem State.homeRow_ne_twin {s : State} {b h i : Nat} (hh : h < 4096) (hi : s.estateAt b i ≠ .borrowed) : s.homeRow b h ≠ 4096 + i := by
  obtain e | ⟨j, e, -, hj⟩ := s.homeRow_cases b h
  · omega
  · rintro k
    rw [show j = i by omega] at hj
    exact hi hj

theorem State.homeRow_inj {s : State} {b h k : Nat} (hh : h < 4096) (hk : k < 4096) (e : s.homeRow b h = s.homeRow b k) : h = k := by
  obtain eh | ⟨i, eh, ih, -⟩ := s.homeRow_cases b h <;> obtain ek | ⟨j, ek, jk, -⟩ := s.homeRow_cases b k
  · omega
  · omega
  · omega
  · rw [← ih, ← jk, show i = j by omega]

theorem State.rowKey_inj {s : State} {b r q : Nat} : s.rowKey b r = s.rowKey b q ↔ r = q := by
  unfold State.rowKey
  omega

theorem State.content_setRow (s : State) (k : Nat) (d : Gran) (tag : Bool) (b row : Nat) :
    (s.setRow k d tag).content b row = if s.rowKey b row = k then (d, tag) else s.content b row := by
  have hk : (s.setRow k d tag).rowKey b row = s.rowKey b row := rfl
  rw [State.content, hk, State.rowData_setRow, State.rowTag_setRow]
  split <;> rfl

theorem State.content_putRow (s : State) (d : Gran) (tag : Bool) (b row r : Nat) :
    (putRow b row d tag s).content b r = if r = row then (d, tag) else s.content b r := by
  simp only [putRow, State.content_setRow, State.rowKey_inj]

/-! ### The change of one remap entry -/

/-- From `s` to `t` no counter of a group and no remap entry but entry `i` of bank `b` changed. -/
structure State.OnlyEntry (s t : State) (b i : Nat) : Prop where
  groups  : t.epc.groups = s.epc.groups
  entries : ∀ k, k ≠ 512 * b + i → t.entry k = s.entry k

theorem State.OnlyEntry.trans {s t u : State} {b i : Nat} (h : s.OnlyEntry t b i) (k : t.OnlyEntry u b i) : s.OnlyEntry u b i :=
  ⟨k.groups.trans h.groups, fun j hj => (k.entries j hj).trans (h.entries j hj)⟩

theorem State.onlyEntry_of_epc {s t : State} (h : t.epc = s.epc) (b i : Nat) : s.OnlyEntry t b i :=
  ⟨by rw [h], fun k _ => by rw [State.entry, State.entry, h]⟩

theorem State.onlyEntry_setEntry (s : State) (b i : Nat) (e : Entry) : s.OnlyEntry (s.setEntry (512 * b + i) e) b i :=
  ⟨rfl, fun _ hk => s.entry_setEntry_ne hk e⟩

section OnlyEntry
variable {s t : State} {b i : Nat} (h : s.OnlyEntry t b i)
include h

theorem State.OnlyEntry.estate (e : Entry) : t.estate e = s.estate e := by
  have hg : t.group e.group.toNat = s.group e.group.toNat := by rw [State.group, State.group, h.groups]
  simp only [State.estate, hg]

theorem State.OnlyEntry.estateAt {j : Nat} (hj : j ≠ i) : t.estateAt b j = s.estateAt b j := by
  rw [State.estateAt, h.entries _ (by omega), h.estate, State.estateAt]

theorem State.OnlyEntry.names (n : Nat) {j : Nat} (hj : j ≠ i) : t.names b n j = s.names b n j := by
  rw [State.names, State.names, h.entries _ (by omega), h.estateAt hj]

/-- An entry that is BORROWED neither before nor after moves no home row. -/
theorem State.OnlyEntry.homeRow (hs : s.estateAt b i ≠ .borrowed) (ht : t.estateAt b i ≠ .borrowed) (n : Nat) :
    t.homeRow b n = s.homeRow b n := by
  refine State.homeRow_congr fun j => ?_
  by_cases hj : j = i
  · subst hj; simp [hs, ht]
  · rw [h.entries _ (by omega), h.estateAt hj]

end OnlyEntry

/-! ### What steps that leave every version leave -/

section SameVersions
variable {s t : State} (h : s.SameVersions t)
include h

/-- The bank map that a row's number depends on is that of its slice alone. -/
theorem State.SameVersions.rowKey {b : Nat} (hb : b / 127 < 16) (row : Nat) :
    t.rowKey b row = s.rowKey b row := by
  have hf : ∀ f : Fld, f.off = HLT_MAP_BANK (b / 127) → t.fld f = s.fld f := fun f e => by rw [State.fld, State.fld, e, h.maps _ hb]
  rw [State.rowKey, State.rowKey, State.pbankOf, State.pbankOf, State.on, State.on, hf _ rfl, hf _ rfl]

theorem State.SameVersions.content {b : Nat} (hb : b / 127 < 16) (row : Nat) :
    t.content b row = s.content b row := by
  simp only [State.content, h.rowKey hb, State.rowData, State.rowTag, h.bytes, h.tags]

theorem State.SameVersions.entry (k : Nat) : t.entry k = s.entry k := by rw [State.entry, State.entry, h.epc]

theorem State.SameVersions.estateAt (b i : Nat) : t.estateAt b i = s.estateAt b i := by
  rw [State.estateAt, h.entry, (State.onlyEntry_of_epc h.epc b i).estate, State.estateAt]

theorem State.SameVersions.entryFor (b n : Nat) : t.entryFor b n = s.entryFor b n := by
  have e : t.names b n = s.names b n := funext fun i => by rw [State.names, State.names, h.entry, h.estateAt]
  rw [State.entryFor_eq, State.entryFor_eq, e]

theorem State.SameVersions.committed {b : Nat} (hb : b / 127 < 16) (n : Nat) : t.committed b n = s.committed b n := by
  have hr : t.homeRow b n = s.homeRow b n := State.homeRow_congr fun j => by rw [h.entry, h.estateAt]
  cases e : s.entryFor b n with
  | none => rw [State.committed_of_none e, State.committed_of_none ((h.entryFor b n).trans e), hr, h.content hb]
  | some i =>
    rw [State.committed_of_some e, State.committed_of_some ((h.entryFor b n).trans e), hr, h.content hb, h.content hb, h.estateAt]

end SameVersions

/-! ### The entry that a version takes becomes free (R90, R91) -/

/-- From `s` to `t` entry `i` of bank `b` becomes FREE; the home row it named as DONE holds its version, and every other home row what it held. -/
structure State.Vacates (s t : State) (b i : Nat) : Prop where
  only : s.OnlyEntry t b i
  free : t.estateAt b i = .free
  home : ∀ h, h < 4096 → t.content b (t.homeRow b h) =
    if s.estateAt b i = .done ∧ (s.entry (512 * b + i)).home.toNat = h then s.content b (4096 + i) else s.content b (s.homeRow b h)

theorem State.Vacates.then_same {s t u : State} {b i : Nat} (hb : b / 127 < 16) (h : s.Vacates t b i) (k : t.SameVersions u) :
    s.Vacates u b i := by
  have ko := State.onlyEntry_of_epc k.epc b i
  have ke : u.estateAt b i = .free := (k.estateAt b i).trans h.free
  refine ⟨h.only.trans ko, ke, fun n hn => ?_⟩
  rw [k.content hb, ko.homeRow (by rw [h.free]; decide) (by rw [ke]; decide), h.home n hn]

theorem vacates_of_free {s : State} {b i : Nat} (h : s.estateAt b i = .free) : s.Vacates s b i :=
  ⟨State.onlyEntry_of_epc rfl b i, h, fun n _ => by rw [if_neg (by simp [h])]⟩

theorem State.estateAt_freeEntry (s : State) (b i : Nat) : (freeEntry b i s).estateAt b i = .free := by
  rw [State.estateAt, freeEntry, State.entry_setEntry_self]
  rfl

theorem vacates_freeEntry {s : State} {b i : Nat} (hd : s.estateAt b i ≠ .done) (hb : s.estateAt b i ≠ .borrowed) :
    s.Vacates (freeEntry b i s) b i := by
  have ho := s.onlyEntry_setEntry b i Entry.free
  have hf := s.estateAt_freeEntry b i
  refine ⟨ho, hf, fun n _ => ?_⟩
  rw [if_neg (fun h => hd h.1), freeEntry, ho.homeRow hb (by rw [← freeEntry, hf]; decide)]
  rfl

theorem sameVersions_spoilRow (j : Nat) (bad : Bool) (s : State) : s.SameVersions (spoilRow j bad s) := by
  cases bad
  · exact .refl s
  · exact ⟨rfl, rfl, fun _ _ => rfl, rfl, rfl⟩

/-- A fold copies the twin row, corrected first where it can be, to the home row that its entry names (R91). -/
theorem State.content_foldEntry (s : State) {b : Nat} (hb : b / 127 < 16) (i row : Nat) :
    (foldEntry b i s).content b row =
      if row = s.homeRow b (s.entry (512 * b + i)).home.toNat then s.content b (4096 + i) else s.content b row := by
  have hc := sameVersions_foldCheck (s.rowKey b (4096 + i)) s
  have ht := hc.content hb (4096 + i)
  rw [State.content, hc.rowKey hb] at ht
  change (foldCopy _ _ _ _).content b row = _
  rw [foldCopy, (sameVersions_spoilRow _ _ _).content hb, State.content_setRow, ht, hc.content hb, hc.rowKey hb]
  simp only [State.rowKey_inj]

theorem onlyEntry_foldEntry (s : State) (b i : Nat) : s.OnlyEntry (foldEntry b i s) b i := by
  refine (State.onlyEntry_of_epc ?_ b i).trans (State.onlyEntry_setEntry _ b i Entry.free)
  rw [foldCopy, (sameVersions_spoilRow _ _ _).epc, State.setRow_epc, (sameVersions_foldCheck _ s).epc]

theorem vacates_foldEntry {s : State} {b i : Nat} (hb : b / 127 < 16) (hd : s.estateAt b i = .done) :
    s.Vacates (foldEntry b i s) b i := by
  have ho := onlyEntry_foldEntry s b i
  have hf : (foldEntry b i s).estateAt b i = .free := State.estateAt_freeEntry _ b i
  refine ⟨ho, hf, fun n hn => ?_⟩
  have hi : s.homeRow b n = s.homeRow b (s.entry (512 * b + i)).home.toNat ↔ (s.entry (512 * b + i)).home.toNat = n :=
    ⟨fun e => (State.homeRow_inj hn (BitVec.isLt _) e).symm, fun e => by rw [e]⟩
  rw [s.content_foldEntry hb, ho.homeRow (by rw [hd]; decide) (by rw [hf]; decide)]
  simp only [hi, hd, true_and]

theorem State.findState_spec {s : State} {b i : Nat} {st : EState} (e : s.findState b st = some i) : i < 512 ∧ s.estateAt b i = st := by
  obtain ⟨hi, hp, -⟩ := firstBelow_spec e
  exact ⟨hi, of_decide_eq_true hp⟩

/-- The entry that a new working version takes is FREE, STALE or DONE, and is vacated for it (R90). -/
theorem allocEntry_vacates {s t : State} {b i : Nat} (hb : b / 127 < 16) (e : allocEntry b s = some (i, t)) :
    i < 512 ∧ s.estateAt b i ≠ .borrowed ∧ s.Vacates t b i := by
  have count : ∀ {u : State}, s.Vacates u b i → s.Vacates (tally 4 0 0 1 u) b i := fun h => h.then_same hb (sameVersions_tally ..)
  unfold allocEntry at e
  split at e
  · next f => cases e; obtain ⟨hi, hs⟩ := State.findState_spec f; exact ⟨hi, by rw [hs]; decide, count (vacates_of_free hs)⟩
  · split at e
    · next f =>
      cases e
      obtain ⟨hi, hs⟩ := State.findState_spec f
      have hn : s.estateAt b i ≠ .borrowed := by rw [hs]; decide
      exact ⟨hi, hn, count (vacates_freeEntry (by rw [hs]; decide) hn)⟩
    · split at e
      · next f =>
        cases e
        obtain ⟨hi, hs⟩ := State.findState_spec f
        exact ⟨hi, by rw [hs]; decide, count ((vacates_foldEntry hb hs).then_same hb (sameVersions_tally ..))⟩
      · cases e

/-! ### A new working version -/

section NewVersion
variable (a : Access) (b h i : Nat) (d : Gran) (tag : Bool) (s : State)

theorem onlyEntry_createVersion : s.OnlyEntry (createVersion a b h i d tag s) b i := by
  have hp : s.OnlyEntry (putRow b (4096 + i) d tag s) b i := State.onlyEntry_of_epc (State.setRow_epc ..) b i
  exact hp.trans ((State.onlyEntry_setEntry _ b i _).trans (State.onlyEntry_of_epc (sameVersions_checkLow b _).epc b i))

theorem entry_createVersion : (createVersion a b h i d tag s).entry (512 * b + i) =
    { home := BitVec.ofNat 12 h, group := a.group, epoch := s.epochOf a, owner := a.owner, valid := true, borrowed := false } := by
  rw [createVersion, State.entry, (sameVersions_checkLow ..).epc]
  exact State.entry_setEntry_self ..

theorem estateAt_createVersion (hl : a.late = none) : (createVersion a b h i d tag s).estateAt b i = .work := by
  rw [State.estateAt, (onlyEntry_createVersion a b h i d tag s).estate, entry_createVersion]
  simp [State.estate, State.epochOf, hl]

theorem content_createVersion (hb : b / 127 < 16) {row : Nat} (hr : row ≠ 4096 + i) :
    (createVersion a b h i d tag s).content b row = s.content b row := by
  rw [createVersion, (sameVersions_checkLow ..).content hb]
  exact (State.content_putRow s d tag b (4096 + i) row).trans (if_neg hr)

end NewVersion

/-- A version created in a vacated entry leaves the committed version of its home row, which no other entry names (R92, R93). -/
theorem committed_createVersion {a : Access} {s t : State} {b h i : Nat} (d : Gran) (tag : Bool) (hb : b / 127 < 16) (hh : h < 4096)
    (hl : a.late = none) (hi : i < 512) (hn : s.estateAt b i ≠ .borrowed) (hv : s.Vacates t b i)
    (he : s.entryFor b h = none ∨ s.entryFor b h = some i) : (createVersion a b h i d tag t).committed b h = s.committed b h := by
  have ho := onlyEntry_createVersion a b h i d tag t
  have hw := estateAt_createVersion a b h i d tag t hl
  have ht : t.estateAt b i ≠ .borrowed := by rw [hv.free]; decide
  have hlow : ∀ j, j < i → s.names b h j = false := by
    obtain e | e := he
    · exact fun j hj => State.entryFor_none_iff.1 e j (by omega)
    · exact (State.entryFor_spec e).2.2
  have hself : (createVersion a b h i d tag t).names b h i = true := by
    rw [State.names_iff, hw, entry_createVersion]
    exact ⟨by simp [Nat.mod_eq_of_lt hh], by decide, by decide⟩
  have hfor : (createVersion a b h i d tag t).entryFor b h = some i := by
    rw [State.entryFor_eq]
    exact firstBelow_eq_some hi hself (fun j hj => ((hv.only.trans ho).names h (by omega)).trans (hlow j hj))
  rw [State.committed_of_some hfor, hw, if_neg (by decide), ho.homeRow ht (by rw [hw]; decide),
    content_createVersion a b h i d tag t hb (State.homeRow_ne_twin hh ht), hv.home h hh]
  obtain e | e := he
  · have : ¬ (s.estateAt b i = .done ∧ (s.entry (512 * b + i)).home.toNat = h) := fun ⟨hd, hm⟩ => by
      have hf := State.entryFor_none_iff.1 e i hi
      rw [State.names_iff.2 ⟨hm, by rw [hd]; decide, hn⟩] at hf
      cases hf
    rw [if_neg this, State.committed_of_none e]
  · obtain ⟨hm, -, -⟩ := State.names_iff.1 (State.entryFor_spec e).2.1
    simp only [State.committed_of_some e, hm, and_true]

/-! ### A write that is granted -/

/-- The twin row of a WORK entry is not the committed version. -/
theorem committed_putRow_work {s : State} {b h i : Nat} (d : Gran) (tag : Bool) (e : s.entryFor b h = some i) (hw : s.estateAt b i = .work)
    (hh : h < 4096) : (putRow b (4096 + i) d tag s).committed b h = s.committed b h := by
  have hf : (putRow b (4096 + i) d tag s).entryFor b h = some i := e
  have hm : (putRow b (4096 + i) d tag s).homeRow b h = s.homeRow b h := State.homeRow_congr fun _ => rfl
  have hs : (putRow b (4096 + i) d tag s).estateAt b i = .work := hw
  rw [State.committed_of_some hf, State.committed_of_some e, hs, hw, if_neg (by decide), if_neg (by decide), hm]
  exact (s.content_putRow ..).trans (if_neg (State.homeRow_ne_twin hh (by rw [hw]; decide)))

/-- An entry that names a home row is WORK to a late write of its group and group-epoch (R33). -/
theorem estateTo_of_late {a : Access} {s : State} {b h i : Nat} (hn : s.names b h i = true)
    (hl : a.late = some (s.entry (512 * b + i)).epoch) (hg : (s.entry (512 * b + i)).group = a.group) :
    s.estateTo a (s.entry (512 * b + i)) = .work := by
  obtain ⟨-, hf, hb⟩ := State.names_iff.1 hn
  rw [State.estateAt, State.estate] at hf hb
  cases hv : (s.entry (512 * b + i)).valid with
  | false =>
    rw [hv] at hf
    exact absurd rfl hf
  | true =>
    cases hr : (s.entry (512 * b + i)).borrowed with
    | true =>
      rw [hv, hr] at hb
      exact absurd rfl hb
    | false => rw [State.estateTo, if_pos ⟨hv, hr, hg, hl⟩]

theorem estateTo_of_not_late {a : Access} (h : a.late = none) (s : State) (e : Entry) : s.estateTo a e = s.estate e := by
  simp [State.estateTo, h]

/-! The cases of a CURRENT write (Table 3.5): it joins the version that is WORK to it, or creates one in the entry that names its home row, once
vacated, or else in the entry that R90 gives it. -/

section Placed
variable {a : Access} (d : Gran) (tag : Bool) {s : State} {i : Nat}

theorem placeGranule_work (e : s.entryFor (bankOf s.build a.gran) (homeOf s.build a.gran) = some i)
    (hw : s.estateTo a (s.entry (512 * bankOf s.build a.gran + i)) = .work) :
    placeGranule a d tag s = putRow (bankOf s.build a.gran) (4096 + i) d tag s := by
  delta placeGranule
  simp only [e, hw, if_true]

theorem placeGranule_reuse (hv : a.view = 2) (e : s.entryFor (bankOf s.build a.gran) (homeOf s.build a.gran) = some i)
    (hw : s.estateTo a (s.entry (512 * bankOf s.build a.gran + i)) ≠ .work) :
    placeGranule a d tag s = createVersion a (bankOf s.build a.gran) (homeOf s.build a.gran) i d tag
      (if s.estateAt (bankOf s.build a.gran) i = .done then tally 4 0 1 1 (foldEntry (bankOf s.build a.gran) i s)
        else freeEntry (bankOf s.build a.gran) i s) := by
  delta placeGranule
  simp only [e, hw, hv, if_true, if_false]

theorem placeGranule_new (hv : a.view = 2) (e : s.entryFor (bankOf s.build a.gran) (homeOf s.build a.gran) = none) :
    placeGranule a d tag s = s ∨ ∃ i t, allocEntry (bankOf s.build a.gran) s = some (i, t) ∧
      placeGranule a d tag s = createVersion a (bankOf s.build a.gran) (homeOf s.build a.gran) i d tag t := by
  delta placeGranule
  simp only [e, hv, if_true]
  cases allocEntry (bankOf s.build a.gran) s with
  | none => exact .inl rfl
  | some p => exact .inr ⟨p.1, p.2, rfl, rfl⟩

end Placed

theorem committed_placeGranule {a : Access} {s : State} (d : Gran) (tag : Bool) (hv : a.view = 2) (hl : a.late = none)
    (hg : a.gran < s.build.granules) : (placeGranule a d tag s).committed (bankOf s.build a.gran) (homeOf s.build a.gran) =
      s.committed (bankOf s.build a.gran) (homeOf s.build a.gran) := by
  have hb : bankOf s.build a.gran / 127 < 16 := bankOf_slice_lt ..
  have hh : homeOf s.build a.gran < 4096 := homeOf_lt hg
  cases e : s.entryFor (bankOf s.build a.gran) (homeOf s.build a.gran) with
  | none =>
    obtain ep | ⟨i, t, ea, ep⟩ := placeGranule_new d tag hv e
    · rw [ep]
    · obtain ⟨hi, hn, hvac⟩ := allocEntry_vacates hb ea
      rw [ep]
      exact committed_createVersion d tag hb hh hl hi hn hvac (.inl e)
  | some i =>
    obtain ⟨hi, hname, -⟩ := State.entryFor_spec e
    obtain ⟨-, -, hn⟩ := State.names_iff.1 hname
    by_cases hw : s.estateTo a (s.entry (512 * bankOf s.build a.gran + i)) = .work
    · rw [placeGranule_work d tag e hw]
      rw [estateTo_of_not_late hl, ← State.estateAt] at hw
      exact committed_putRow_work d tag e hw hh
    · rw [placeGranule_reuse d tag hv e hw]
      refine committed_createVersion d tag hb hh hl hi hn ?_ (.inr e)
      split
      · next hd => exact (vacates_foldEntry hb hd).then_same hb (sameVersions_tally ..)
      · next hd => exact vacates_freeEntry hd hn

theorem State.refusal_ne_ok (s : State) (a : Access) (x : Gran) (y : Bool) : s.refusal a ≠ some (.ok x y) := by
  unfold State.refusal
  dsimp only
  split
  · simp
  · split
    · split <;> simp
    · split
      · split
        · simp
        · split
          · simp
          · split <;> simp
      · simp

/-- A CURRENT write that takes effect places its granule in a state with the same versions. -/
theorem writeGranule_current {a : Access} {d x : Gran} {be : BitVec 16} {tag y : Bool} {s t : State} (hv : a.view = 2)
    (e : writeGranule a d be tag s = (.ok x y, t)) : ∃ u, s.SameVersions u ∧ t = placeGranule a x tag u := by
  obtain ⟨r, hr, ew⟩ | ⟨o, u, -, hm, ew⟩ := writeGranule_cases a d be tag s
  · cases ew.symm.trans e
    exact absurd hr (s.refusal_ne_ok a x y)
  · have hu := sameVersions_mergeFrom (bankOf s.build a.gran) (s.writeBase a) (portClass a.port) d be s
    rw [hm] at hu
    rw [e] at ew
    cases o with
    | none => cases ew
    | some g => cases ew; exact ⟨u, hu, by simp only [keptWrite, hv, if_true]⟩

/-- A late write whose version its entry holds leaves its granule in the entry's twin row, and the entry as it was (R33). -/
theorem placeGranule_late {a : Access} {s : State} {i : Nat} (d : Gran) (tag : Bool)
    (e : s.entryFor (bankOf s.build a.gran) (homeOf s.build a.gran) = some i)
    (hl : a.late = some (s.entry (512 * bankOf s.build a.gran + i)).epoch)
    (hg : (s.entry (512 * bankOf s.build a.gran + i)).group = a.group) :
    (placeGranule a d tag s).content (bankOf s.build a.gran) (4096 + i) = (d, tag) ∧
      ∀ k, (placeGranule a d tag s).entry k = s.entry k := by
  obtain ⟨-, hn, -⟩ := State.entryFor_spec e
  rw [placeGranule_work d tag e (estateTo_of_late hn hl hg)]
  exact ⟨(s.content_putRow ..).trans (if_pos rfl), fun _ => State.entry_setRow ..⟩

/-- Settles O18: a write is placed in a state with the same versions, where a late one joins the version its entry holds, and any other leaves the
committed version, which is what PRIOR reads. -/
theorem currentWritesHideFromPrior : Obligations.CurrentWritesHideFromPrior := by
  intro s t a d x be tag y hv hg e b h
  obtain ⟨u, hu, ht⟩ := writeGranule_current hv e
  rw [ht]
  have eb : bankOf u.build a.gran = b := by rw [hu.build]
  have eh : homeOf u.build a.gran = h := by rw [hu.build]
  refine ⟨fun ep i hl he => ?_, fun hl g => ?_⟩
  · intro v hve hvg _
    have hp := placeGranule_late (s := u) (i := i) x tag (by rw [eb, eh, hu.entryFor]; exact he) (by rw [eb, hu.entry, hl, ← hve])
      (by rw [eb, hu.entry]; exact hvg)
    rw [eb, State.content, Prod.mk.injEq] at hp
    obtain ⟨⟨hd, ht⟩, hent⟩ := hp
    exact ⟨hd, ht, (hent _).trans (hu.entry _)⟩
  · have hc := committed_placeGranule (s := u) x tag hv hl (by rw [hu.build]; exact hg)
    rw [eb, eh, hu.committed (bankOf_slice_lt ..), State.committed, State.committed, State.content, State.content, Prod.mk.injEq] at hc
    rw [State.readRowOf_prior, State.readRowOf_prior]
    exact hc

end Sys2Proof.Machine
end

section
/-! PROOF that O32 fails. The statement aligns every staged period to the instant that TBU_TICK_NEXT holds at the write. A write that replaces a staged
period after the old period's last instant keeps that instant as its base, as R445 asks, and NEXT then lies above it. -/

namespace Sys2Proof.Machine

/-- After the old period's last instant `b₀`, a period in range replaces the staged one, keeps its base, and takes effect at its first multiple at
or after the instant `e₀` at which the replaced one would have (R445). -/
theorem tickPeriod_replaces (v : Reg) (s : State) {p₀ b₀ e₀ : Nat} (hs : s.clk.perStage = some (p₀, b₀, e₀)) (hb : b₀ ≤ s.clk.tb.toNat)
    (lo : 20000 ≤ v.toNat % 2 ^ 27) (hi : v.toNat % 2 ^ 27 ≤ 100000000) :
    (tickPeriod v s).clk.perStage = some (v.toNat % 2 ^ 27, b₀, alignUp (v.toNat % 2 ^ 27) e₀) := by
  have hn : s.clk.nextAt s.clk.tb.toNat = e₀ := by simp [Clk.nextAt, hs, Nat.not_lt.2 hb]
  have hp : bitsOf v.toNat 0 27 = v.toNat % 2 ^ 27 := by simp [bitsOf]
  simp only [tickPeriod, hp, lo, hi, hs, hn, if_neg (Nat.not_lt.2 hb)]
  rfl

/-- TB stands at 1,000,500, past the old period's instant 1,000,000; a period of 30,000 is staged and takes effect at 1,020,000. -/
def pastOldInstant : State :=
  { State.reset with
    regs := [(CRP_RST_STAT, 1), (TBU_TB_SET_LO, 1000500), (TBU_TICK_PER, 30000), (TBU_TICK_STAT, 2), (TBU_TICK_NEXT_LO, 1020000)]
    crp := { Crp.init with phase := 2 }
    clk := { Clk.init with tb := 1000500, perStage := some (30000, 1000000, 1020000), passed := 1, tickDone := false, quietDue := true } }

/-- Three register writes of the host lead there, once the supervisor is released. -/
theorem pastOldInstant_reached : core.run 3 { State.reset with
    crp := { Crp.init with phase := 2 }
    pending := [.regWrite .host TBU_TICK_PER 30000, .regWrite .host TBU_TB_SET_LO 1000500, .regWrite .host TBU_TB_STAT 1] } =
    .next pastOldInstant := by rfl

/-- Refutes O32: a period of 40,000 written in `pastOldInstant` keeps the base 1,000,000, where the statement asks for the next instant, 1,020,000. -/
theorem not_tickAndTimeSettings : ¬ Obligations.TickAndTimeSettings := by
  intro ⟨settings, _⟩
  obtain ⟨-, -, -, period, -⟩ := settings pastOldInstant rfl
  obtain ⟨t, b, e, hx, hstage, hbase, -⟩ := (period 40000).2 (by decide) (by decide)
  have ht : t = tickPeriod 40000 pastOldInstant := by cases hx; rfl
  rw [ht, tickPeriod_replaces 40000 pastOldInstant rfl (by decide) (by decide) (by decide)] at hstage
  simp only [Option.some.injEq, Prod.mk.injEq] at hstage
  obtain ⟨-, hb, -⟩ := hstage
  rw [← hb] at hbase
  exact absurd hbase (by decide)

end Sys2Proof.Machine
end
